-- ==== Sys2Proof/Word.lean ====
section
/-! DEFINITION.
The word types of the device: 16-bit registers (R11), 8-bit bytes of packets and stores (R7), and the plainest
arithmetic on them.  Everything here is numbering and arithmetic; what a register means stands in `Machine/`.
-/
namespace Sys2Proof

/-- A 16-bit register value (R11). -/
abbrev Word := BitVec 16

/-- One byte of a packet, a store or a folio. -/
abbrev Byte := BitVec 8

/-- The number 1 for `true` and 0 for `false`: a one-bit field as a number. -/
def bit (b : Bool) : Nat := if b then 1 else 0

/-- Bits `hi` down to `lo` of a number (R5). -/
def bits (n hi lo : Nat) : Nat := n / 2 ^ lo % 2 ^ (hi + 1 - lo)

/-- `n` with one more, staying at `top` (a saturating counter). -/
def satSucc (top n : Nat) : Nat := if n < top then n + 1 else top

/-- The two's complement reading of a `w`-bit number. -/
def signed (w n : Nat) : Int := if n < 2 ^ (w - 1) then (n : Int) else (n : Int) - 2 ^ w

/-- An integer as a `w`-bit two's complement number. -/
def unsigned (w : Nat) (z : Int) : Nat := (z % (2 ^ w : Int)).toNat

/-- An integer held between two bounds. -/
def clampInt (lo hi z : Int) : Int := if z < lo then lo else if hi < z then hi else z

/-- The sixteen bits of a word as two bytes, most significant byte first (R7). -/
def wordBytes (n : Nat) : List Byte := [BitVec.ofNat 8 (n / 256), BitVec.ofNat 8 n]

/-- A number as `k` bytes, most significant byte first (R7). -/
def bytesBE : Nat → Nat → List Byte
  | 0, _ => []
  | k + 1, n => BitVec.ofNat 8 (n / 256 ^ k) :: bytesBE k n

/-- The number a list of bytes spells, most significant byte first (R7). -/
def natBE (bs : List Byte) : Nat := bs.foldl (fun a b => a * 256 + b.toNat) 0

end Sys2Proof
end

