-- ==== Sys2Proof/Syntax.lean ====
section
/-! DEFINITION.
The commands of the block: one constructor per row of the opcode table, with what the host, the pins, the converters
or the passing of time supply with it.  A command that a register write spells carries the value written.
-/
namespace Sys2Proof

/-- The two routes of a host access (R180, R546). -/
inductive Route where
  | port | target
  deriving DecidableEq, Repr

/-- The banked stores (Table 06-1). -/
inductive BankedStore where
  | wave | lut | adcseq
  deriving DecidableEq, Repr

/-- How the start-up read of the record ended (R553): the 64 bytes, or an error code of Table 16-7; with the
arbitration losses on the way. -/
inductive RecordRead where
  | complete (data : List Byte) (losses : Nat)
  | failed (code : Fin 10) (losses : Nat)
  deriving DecidableEq, Repr

/-- How the bus side of a controller transfer ended (R537, R542, R543): the bytes read, where there were any. -/
inductive BusEnd where
  | complete (data : List Byte)
  | nackAddr
  | nackData
  | aborted (data : List Byte)
  deriving DecidableEq, Repr

/-- The synchronised level of an input land that a filter follows, and the ticks for which it has held (R414). -/
structure PinLevel where
  high : Bool
  held : Nat
  deriving DecidableEq, Repr

/-- The samples of a row pair: the CDS differences of step 1 of Table 09-3, in native LSB, as the converters give
them.  `cols` is indexed by 4 × quire + 2 × gain + bank, `left` and `right` (black columns) by 2 × gain + bank. -/
structure Samples where
  cols : List (List Int)
  left : List (List Int)
  right : List (List Int)
  deriving DecidableEq, Repr

/-- What a step of a test run measured (Tables 18-4 and 18-7); each step looks at its own fields. -/
structure Measured where
  /-- Step 0: sum of the 8 samples of channel 9 -/
  vddSum : Nat
  /-- Step 0: sum of the 8 samples of the diode; `none` = rejected as SAT -/
  diodeSum : Option Int
  /-- The narrowed FREQUENCY window was left during the step (R599) -/
  freqOut : Bool
  /-- Step 1: signatures by partition -/
  signatures : List (BitVec 32)
  /-- Step 2: codes by 6 × unit + 2 × (level − 1) + bank; unit = quire, or 12 left and 13 right black columns -/
  columns : List (List Nat)
  /-- Step 3: sums of 16 samples of channels 13, 12 and 15 -/
  vrefSum : Nat
  vcoreSum : Nat
  vanaSum : Nat
  /-- Step 4: sums of 16 samples of channels 10 and 11 -/
  vpixhSum : Nat
  vnegSum : Nat
  /-- Step 5: lanes with a code-group or disparity error -/
  laneErrors : BitVec 12
  /-- Step 6: every code less CODE × 16 × 2^r, the twelve of converter 0 first, and the mismatches of the interleaved
  pairs -/
  auxErrors : List Int
  auxPairs : List Int
  /-- Microseconds the step took -/
  micros : Nat
  deriving DecidableEq, Repr

/-- The commands. DESIGN CHOICE (log entry 42). -/
inductive Instr where
  /-- R168: Command that does nothing and answers with no data. -/
  | nop (flags : Byte) (addr : BitVec 32) (len : Word)
  /-- R180: Command that reads 1 to 32 consecutive registers, one per tick, with their read side effects unless
  INSPECT is set. -/
  | regRd (flags : Byte) (addr : BitVec 32) (len : Word)
  /-- R180: Command that writes 1 to 32 consecutive registers, one per tick, and answers with one status byte per
  register. -/
  | regWr (flags : Byte) (addr : BitVec 32) (payload : List Byte) (lost : BitVec 32)
  /-- R181: Command that reads a register, merges VALUE under MASK and writes the result in the next tick, with no
  host access in between. -/
  | regRmw (flags : Byte) (addr : BitVec 32) (payload : List Byte) (lost : Bool)
  /-- R182: Command that reads up to 1024 bytes of a store by ID and offset. -/
  | bulkRd (flags : Byte) (addr : BitVec 32) (len : Word)
  /-- R182: Command that writes up to 1024 bytes of a store, with staging, banking and refusal rules. -/
  | bulkWr (flags : Byte) (addr : BitVec 32) (payload : List Byte)
  /-- R205: Command that opens a Bindery transaction, or acknowledges a timed-out one. -/
  | txnBegin (flags : Byte) (addr : BitVec 32) (len : Word)
  /-- R210: Commit whose staged writes apply in the tick after it executes. -/
  | txnCommitImmediate (flags : Byte) (payload : List Byte)
  /-- R210: Commit that goes PENDING until the next line exposure-start event that starts an exposure. -/
  | txnCommitNextLine (flags : Byte) (payload : List Byte)
  /-- R210: Commit that goes PENDING until the next frame exposure-start event that starts an exposure. -/
  | txnCommitNextFrame (flags : Byte) (payload : List Byte)
  /-- R210: Commit that is checked for a reference and a target strictly ahead, then goes PENDING until the position
  reaches the target. -/
  | txnCommitAtPosition (flags : Byte) (payload : List Byte)
  /-- R217: Command that discards staged writes or cancels a pending commit, then starts bank syncs of the written
  stores. -/
  | txnAbort (flags : Byte) (addr : BitVec 32) (len : Word)
  /-- R620: Command that returns whole event-log entries, oldest first, and removes them unless INSPECT is set. -/
  | eventRd (flags : Byte) (addr : BitVec 32) (len : Word)
  /-- R593: Command that starts the shut-down self-test, or goes straight to Dormant from Safe after a wake failure or
  in lockout. -/
  | shutdown (flags : Byte) (addr : BitVec 32) (len : Word)
  /-- R100: Command that restarts the wake sequence at the failed step, optionally writing PWR_WAKE_TMO first. -/
  | wakeRetry (flags : Byte) (addr : BitVec 32) (payload : List Byte)
  /-- R594: Command that starts a full test run that ends in Armed, or in Safe on FAIL. -/
  | bstRun (flags : Byte) (addr : BitVec 32) (len : Word)
  /-- R186: Legacy 24-bit read that executes at the 8th SDI bit and returns the register value in the same frame. -/
  | shortFrameRead (addr : BitVec 7)
  /-- R186: Legacy 24-bit write that executes when SCS_N rises. -/
  | shortFrameWrite (addr : BitVec 7) (value : Word) (lost : Bool)
  /-- R171: SCS_N falls: the device shifts out a pending response from byte 0, or 0xFE or 0xFF. -/
  | slotBegin
  /-- R164: SCS_N rises: the device classifies the slot by its first bit and edge count, and switches SPI mode or port
  clock if one is due. -/
  | slotEnd (sdi : List Bool)
  /-- R173: A response in preparation becomes ready and pending, and raises the RESP_READY attention cause. -/
  | respReady
  /-- R216: Write of a register that has no row of its own: it goes live, is staged, or writes through under the
  transaction state. -/
  | registerWrite (route : Route) (addr : Byte) (value : Word) (lost : Bool)
  /-- R202: A read without INSPECT of an RC field returns the value and clears the field. -/
  | readClear (addr : Byte)
  /-- R113: A write of 0xA55A to SYS_SOFT_RESET starts a SOFT reset once its packet has passed its CRC check. -/
  | softReset (route : Route)
  /-- R85: PWR_CTRL.REQ = Standby moves the device from Armed to Standby, or is refused. -/
  | pwrReqStandby
  /-- R85: PWR_CTRL.REQ = Armed starts the wake steps from Standby or Dormant. -/
  | pwrReqArmed
  /-- R85: PWR_CTRL.REQ = Dormant switches off every rail except the always-on domain. -/
  | pwrReqDormant
  /-- R92: VDD has risen above the warning level plus 20 mV, so the wake sequence starts step 1. -/
  | wakeSupplyWaitEnd
  /-- R90: A wake step meets its completion condition, and the next step starts or the finish stage begins. -/
  | wakeStepDone
  /-- R97: A wake step reaches its timeout: the device enters Safe, records WAKE_FAIL and switches off the later
  rails. -/
  | wakeStepTimeout
  /-- R93: After step 8, spare rows are switched in, banks are synced and the record decision leads to Armed, Safe or
  the start-up self-test. -/
  | finishStage
  /-- R553: After a POR, once step 3 completes, the device reads the 64-byte record from the EEPROM on the RC
  oscillator. -/
  | startupRecordRead (outcome : RecordRead)
  /-- R112: VDD falls below 1.00 V: every storage class returns to defaults and the straps are sampled at release. -/
  | por
  /-- R112: VDD rises above 1.05 V and the power-on reset releases. -/
  | porRelease (cfgsel : BitVec 2) (spiMode3 : Bool)
  /-- R111: VDD stays below the brown-out threshold for 1 µs and a BOR starts. -/
  | bor
  /-- R111: VDD stays above 1.60 V for 1 µs and the BOR releases. -/
  | borRelease
  /-- R113: RESET_N held low for at least 1 µs starts a PIN reset. -/
  | pinReset
  /-- R113: RESET_N returns high and the wake sequence starts. -/
  | resetNRelease
  /-- R574: In the tick after an uncorrectable error or a watchdog expiry, a FAULT reset starts. -/
  | faultReset
  /-- R103: VDD stays below the warning level for 1 µs: the warning asserts and HOLD begins under HOLD. -/
  | supplyWarn
  /-- R104: VDD stays above the level plus 20 mV for 1 µs and the warning deasserts. -/
  | supplyWarnDeassert
  /-- R107: 2,500 tk after the warning deasserts, the exposure hold ends. -/
  | dipHoldEnd
  /-- R109: VPIXH or VNEG leaves regulation while Armed or Streaming. -/
  | cpDroop (second : Bool)
  /-- R138: A write of CLK_REFDIV starts a relock at the full ratio for the written grid value. -/
  | clkRefdivWrite (value : Word)
  /-- R140: The PLL locks at the target ratio: held counters and CLK_TIME resume. -/
  | clkRelocked
  /-- R140: The PLL has not locked 2.0 ms after a relock began, so a FREQUENCY loss is declared. -/
  | relockTimeout
  /-- R148: No REFCLK edge for 16 RC periods: a MISSING loss is declared, the VCO coasts and the stream gate closes. -/
  | refclkMissing
  /-- R148: The lock detector finds REFCLK outside its window: a FREQUENCY loss is declared. -/
  | refclkFrequencyLoss
  /-- R151: 256 good REFCLK periods are seen and the PLL starts to relock. -/
  | refPresent
  /-- R152: A write of 1 to CLK_STATUS.LOST while locked opens the stream gate. -/
  | clkLostAck
  /-- R219: The transaction timeout expires in OPEN: the transaction is rolled back and the state becomes TIMED_OUT. -/
  | bndTxnTmoExpiry
  /-- R211: In the apply tick all staged values go live at once, banked stores swap and BND_GEN increments. -/
  | txnApply
  /-- R218: Once no frame context uses the old active bank, the bank sync copy begins. -/
  | bankSyncStart (store : BankedStore)
  /-- R218: The bank sync copy ends and BND_STATUS.SYNC clears. -/
  | bankSyncDone (store : BankedStore)
  /-- R225: A write of 1 to BND_WDOG.EN starts the first watchdog period. -/
  | bndWdogEnable (period : BitVec 10)
  /-- R224: A write of 0xC3C3 restarts the watchdog period. -/
  | bndWdogKick
  /-- R224: A period ends without a kick: a WATCHDOG fault-log entry is written and a FAULT reset starts. -/
  | bndWdogExpiry
  /-- R260: A write of a legacy column-window register translates S and E into QR_ENABLE and each quire's column
  window. -/
  | legColWindowWrite (last : Bool) (value : Word)
  /-- R272: EXP_CTRL.RUN = 1 in Armed moves the device to Streaming, or is refused. -/
  | runStart
  /-- R273: EXP_CTRL.RUN = 0 stops accepting triggers while frames in progress complete. -/
  | runStop
  /-- R273: The last folio of the last frame has been handed: BUSY clears and STATE returns to Armed. -/
  | streamDrained
  /-- R276: The free-run timer expires, gives a trigger and reloads from EXP_PERIOD. -/
  | freeRunExpiry
  /-- R285: An event on the trigger line reaches the quires and is decided once: start, drop, stretch or hold. -/
  | trigger
  /-- R285: The exposure duration or stretch ends: charge moves to the storage nodes and readout begins. -/
  | exposureEnd
  /-- R278: In LEGACY mode an event on line EVENT + 1 ends the running exposure, no sooner than 250 tk. -/
  | legacyEndEvent
  /-- R290: The next sub-exposure of a multi-exposure frame starts once its transfer cannot wait for the storage
  nodes. -/
  | subExposureStart
  /-- R259: A row pair finishes converting, its digital path runs and the next pair starts in the same tick. -/
  | pairConversionEnd (samples : Samples)
  /-- R361: A folio's EOF has been sent: a marker follows and the next folio or spilled folio may leave. -/
  | folioHanded (lane : Fin 12)
  /-- R346: A lane sends a /M/ marker with its state and number, where a changed lane bias takes effect. -/
  | markerOrderedSet (lane : Fin 12)
  /-- R323: A write of CNV_DEF_STATUS.DEF_LOAD = 1 starts a compile of the DEFECT store. -/
  | defLoad
  /-- R323: The defect compile ends and the compiled table goes into force. -/
  | defCompileDone
  /-- R386: SPN_GO GO bits release IDLE counters, or the write is refused with NEEDS_REF. -/
  | spnGoRelease (mask : Byte)
  /-- R386: SPN_GO HALT bits halt running or spent counters, keeping value and remainder. -/
  | spnGoHalt (mask : Byte)
  /-- R389: A write of SPN_C_LO loads the counter from the holding registers and clears its remainder. -/
  | counterLoad (value : Word) (lost : Bool)
  /-- R388: A write of SPN_C_STAT.ARM makes a SPENT counter RUNNING again. -/
  | counterArm
  /-- R396: A write of SPN_M_LO loads the 48-bit compare value from the next tick. -/
  | compareLoad (value : Word) (lost : Bool)
  /-- R380: The prescaler remainder reaches D, or falls below 0, and the counter steps by one. -/
  | counterStep (counter : Fin 8) (pulses : Nat)
  /-- R403: A capture pair stores RISE, sets OPEN and raises line 24 + k. -/
  | capturePulseStart (pair : Fin 4)
  /-- R403: A capture pair stores FALL and WIDTH, sets DONE, advances SEQ and raises line 28 + k. -/
  | capturePulseEnd (pair : Fin 4)
  /-- R406: A write of SPN_K_CFG clears OPEN and keeps the captured values. -/
  | captureCfgWrite (value : Word)
  /-- R414: An accepted encoder edge changes C and updates the estimator, acquisition or return. -/
  | encEdge (a : PinLevel) (b : PinLevel)
  /-- R421: An accepted index pulse sets C and P to Z_VALUE, sets REF and raises line 35. -/
  | encZ (level : PinLevel)
  /-- R423: A write of POS_DATA part 0x2 presets P, moves C and the anchor, and sets REF. -/
  | posPreset (value : Word) (lost : Bool)
  /-- R425: No edge within FACTOR × T: the state becomes HOLDOVER and P steps ahead. -/
  | encHold
  /-- R426: Holdover ends after its line count or 65,535 ec: P freezes and the state becomes LOST. -/
  | encLost
  /-- R430: A SLEW closes the phase error below 1/16 ec and the state returns to TRACK. -/
  | encRelocked
  /-- R446: The round timer expires and starts a round, or sets ROUND_LATE. -/
  | auxRoundTimer
  /-- R445: A write of AUX_STATUS.ROUND_NOW = 1 starts a regular round. -/
  | roundNow
  /-- R445: A slot whose converters are free waits its DELAY and any open-wire check, then starts converting its
  block. -/
  | auxSlotStart
  /-- R447: An event on an I-slot's TRIG line is accepted and its delay starts counting. -/
  | auxInjTrigger (line : BitVec 6)
  /-- R448: The delay ends and the request is decided: run, abort a regular slot, wait or drop. -/
  | auxInjRequest (slot : Fin 4)
  /-- R462: The stop event ends an INTEGRATE flash run. -/
  | auxFlashStop (going : BitVec 2)
  /-- R467: A converter's reference has settled and its first conversion may start. -/
  | auxRefSettled (converter : Fin 2)
  /-- R439: An aux conversion ends, autorange decides, and the next conversion starts in the same VCO period. -/
  | auxConversionEnd (converter : Fin 2) (nanovolts : Int)
  /-- R454: A read of AUX_Q_HI removes the oldest queue entry and snapshots its lower half. -/
  | auxQPop
  /-- R479: A host write of TMP_TEMP is a used result with HOST = 1, or is refused. -/
  | tmpTempWrite (value : Word) (lost : Bool)
  /-- R494: The stale timer reaches its period without a used result. -/
  | tempStale
  /-- R501: AGT_GO START makes a halted engine RUNNING from the next tick. -/
  | agtStart (mask : BitVec 4)
  /-- R501: AGT_GO STEP gives a halted engine exactly one row slot. -/
  | agtStep (mask : BitVec 4)
  /-- R517: AGT_GO HALT requests a halt, which takes effect at the first unlocked row or after 32 rows. -/
  | agtHalt (mask : BitVec 4)
  /-- R518: A write of AGT_FORCE_HALT halts the engine at once, breaking a lock if needed. -/
  | agtForceHalt (mask : BitVec 4)
  /-- R506: At each cycle tick the row at PC waits or executes and chooses the next PC. -/
  | agtCycle (engine : Fin 4) (pins : Byte) (edges : Byte)
  /-- R507: A row's wait limit expires: the row executes, sets WAIT_TMO and goes to TARGET. -/
  | agtWaitLimit (engine : Fin 4) (pins : Byte) (edges : Byte)
  /-- R520: A write of AGT_INJECT adds one quarter of an injected row, and the fourth makes it pending. -/
  | agtInjectPart (value : Word)
  /-- R520: A pending injected row executes once at the first unlocked cycle tick, or in a halted engine. -/
  | agtInjectedRow (engine : Fin 4) (pins : Byte)
  /-- R520: A write of AGT_SEL selects the engine and clears held injection parts. -/
  | agtSelWrite (value : Word)
  /-- R521: A host write of AGT_FIFO appends an entry, or sets FIFO_OVER. -/
  | agtFifoPush (value : Word)
  /-- R521: A host read of AGT_FIFO removes the oldest entry, or sets FIFO_UNDER. -/
  | agtFifoPop
  /-- R537: PB_XFER OP WRITE starts a host controller write of WLEN buffer bytes. -/
  | pbXferWrite (wlen : BitVec 6) (rlen : BitVec 6)
  /-- R537: PB_XFER OP READ starts a host controller read of RLEN bytes into the buffer. -/
  | pbXferRead (wlen : BitVec 6) (rlen : BitVec 6)
  /-- R537: PB_XFER OP WRITE_READ starts a write, repeated START and read. -/
  | pbXferWriteRead (wlen : BitVec 6) (rlen : BitVec 6)
  /-- R543: PB_XFER OP = 0 aborts a running host transfer after the current byte. -/
  | pbXferAbort (wlen : BitVec 6) (rlen : BitVec 6)
  /-- R537: A write of PB_DATA stores two buffer bytes and advances PTR. -/
  | pbDataWrite (value : Word)
  /-- R537: A read of PB_DATA returns two buffer bytes and advances PTR. -/
  | pbDataPop
  /-- R538: The bus is free, so a waiting controller transfer sends its START. -/
  | pbBusFree
  /-- R540: The device loses arbitration in a bit, abandons the attempt and may become the target. -/
  | pbArbLost (winner : Option Byte)
  /-- R540: The backoff after bus free ends and the transfer starts again. -/
  | pbBackoffEnd
  /-- R541: Arbitration is lost at a STOP or repeated START, and the transfer ends without retry. -/
  | pbArbSr
  /-- R537: A controller transfer ends: BUSY clears, DONE sets and ERR takes the outcome. -/
  | pbDone (outcome : BusEnd)
  /-- R556: After a write to the EEPROM the device polls until it acknowledges, or 25 ms pass. -/
  | pbAckPoll (acknowledged : Bool)
  /-- R555: With SDA low, the device sends up to nine SCL pulses and a STOP, or reports SDA_STUCK. -/
  | pbBusRecovery (freed : Bool)
  /-- R557: SCL held low for 25 ms ends the transfer with SCL_STUCK. -/
  | sclStuck
  /-- R545: A byte pair from another controller executes a register write at the pointer. -/
  | pbTargetWrite (high : Byte) (low : Byte) (lost : Bool)
  /-- R545: A target read executes a register read at the pointer and advances it. -/
  | pbTargetRead
  /-- R545: The first byte of a target write sets the register pointer. -/
  | pbTargetPointer (pointer : Byte)
  /-- R579: The scrubber interval ends and the scrubber reads the next word of its walk. -/
  | scrubVisit
  /-- R573: The corrected word is written back at scrubber priority, unless a write cancels it. -/
  | correctedWriteback
  /-- R586: A write of MEM_FLIP_MASK arms or disarms a flip for the selected store. -/
  | memFlipMaskWrite (value : Word)
  /-- R588: A write of MEM_RAW switches raw mode for a store on or off. -/
  | memRawWrite (value : Word)
  /-- R584: A write of SLT_RETIRE retires or returns pages of the selected group. -/
  | sltRetireWrite (value : Word)
  /-- R596: A test run step ends and the next starts; after step 7 the run ends in Armed, Safe or Dormant. -/
  | testStepEnd (found : Measured)
  /-- R628: Injection 0x00 asserts the supply warning for ARG µs. -/
  | injSupplyWarn (arg : Word)
  /-- R628: Injection 0x01 makes CP1_OK read 0 for ARG µs. -/
  | injCp1 (arg : Word)
  /-- R628: Injection 0x02 makes CP2_OK read 0 for ARG µs. -/
  | injCp2 (arg : Word)
  /-- R628: The ARG µs of an injected warning or pump fault end. -/
  | injDurationEnd (det : Fin 3)
  /-- R628: Injection 0x03 starts a BOR in the next tick. -/
  | injBrownOut (arg : Word)
  /-- R628: Injection 0x04 makes a wake step time out at the next request for Armed. -/
  | injWakeTimeout (arg : Word)
  /-- R628: Injection 0x05 starts a SOFT reset whose step 2 fails. -/
  | injColophonCrc (arg : Word)
  /-- R628: Injection 0x06 declares a REFCLK loss in the next tick. -/
  | injRefclkLoss (arg : Word)
  /-- R628: Injection 0x07 declares an encoder loss at the next TRACK tick. -/
  | injEncLoss (arg : Word)
  /-- R628: Injection 0x08 makes the next decoded edge a quadrature error. -/
  | injQerr (arg : Word)
  /-- R628: Injection 0x09 makes the next accepted index pulse raise ENC_ZMISS. -/
  | injIndexSpan (arg : Word)
  /-- R628: Injection 0x0A declares a Slate macro failed. -/
  | injMacroFail (arg : Word)
  /-- R628: Injection 0x0B ends the watchdog period in the next tick. -/
  | injWatchdog (arg : Word)
  /-- R628: Injection 0x0C makes BND_TXN_TMO expire in the next tick. -/
  | injTxnTimeout (arg : Word)
  /-- R628: Injection 0x0D makes the next packet fail its CRC check. -/
  | injPacketCrc (arg : Word)
  /-- R628: Injection 0x0E makes the next open-wire check of a land find it open. -/
  | injOpenWire (arg : Word)
  /-- R628: Injection 0x0F makes the next aux result find the queue full. -/
  | injAuxQueueFull (arg : Word)
  /-- R628: Injection 0x10 drops the next request of an I-slot. -/
  | injSlotCollision (arg : Word)
  /-- R628: Injection 0x11 replaces the next used temperature result with ARG. -/
  | injTempResult (arg : Word)
  /-- R628: Injection 0x12 expires the stale timer in the next tick. -/
  | injTempStale (arg : Word)
  /-- R628: Injection 0x13 makes the next valid black update set BLK_STEP. -/
  | injBlackStep (arg : Word)
  /-- R628: Injection 0x14 drops the next trigger that would start an exposure. -/
  | injExposureOverrun (arg : Word)
  /-- R628: Injection 0x15 drops the next line folio of a lane. -/
  | injLaneFifo (arg : Word)
  /-- R628: Injection 0x16 sets sticky AGT_STATUS flags of an engine. -/
  | injAgtFlags (arg : Word)
  /-- R628: Injection 0x17 makes the next controller transfer lose arbitration or end with PB_ARB_SR. -/
  | injBusArbitration (arg : Word)
  /-- R628: Injection 0x18 makes the next controller transfer end with SDA_STUCK. -/
  | injBusStuck (arg : Word)
  /-- R628: Injection 0x19 makes a partition's signature fail in the next test run. -/
  | injLbist (arg : Word)
  /-- R628: Injection 0x1A makes a step's first measurement fail in the next test run. -/
  | injAnalogCheck (arg : Word)
  /-- R631: A write of 1 to INJ_STATUS.CANCEL ends a pending injection without effect. -/
  | injCancel
  /-- R545: Another controller sends a STOP or repeated START after a lone high byte of a target write, and the device
  discards the held byte and ends the target transfer. -/
  | pbTargetStop
  deriving DecidableEq, Repr

end Sys2Proof
end

