-- ==== Sys2Proof/Decode.lean ====
section
/-! DEFINITION.
The opcode table gives no row of this block any bits: its commands are register accesses, packets, pin events and the
passing of time, and no word spells one.  Packets have an encoding of their own, which `Machine/Operands.lean` reads.
-/
namespace Sys2Proof

/-- The command that a word spells by the table's bits: none, since the table gives no row bits. -/
def decodeTableWord (_nbits _w : Nat) : Option Instr := none

end Sys2Proof
end

