-- ==== Sys2Proof/Config.lean ====
section
/-! DEFINITION.
What a member and a die fix (Tables 00-1, 01-2, 01-8 to 01-12), and the free values: results that the spec leaves
open.  A free value is an `opaque` constant without a body, so no proof can see what it is.
-/
namespace Sys2Proof

/-- The members of the family (Table 00-1). DESIGN CHOICE (log entry 10). -/
inductive Part where
  | nl2612 | nl2612s | nl2606 | nl2603 | nl2601
  deriving DecidableEq, Repr

/-- Quires of a member (Table 01-9): quires 0 to `quires - 1` are present. -/
def Part.quires : Part → Nat
  | .nl2612 => 12 | .nl2612s => 12 | .nl2606 => 6 | .nl2603 => 3 | .nl2601 => 1

/-- Slate pages of 2 KiB (Table 01-9); 0 where the Slate is absent. -/
def Part.pages : Part → Nat
  | .nl2612 => 2048 | .nl2606 => 1024 | _ => 0

/-- Whether the Slate, aux converter 1, the interleave path and Agate engines 2 and 3 are present: the optional units
come and go together on every member (Tables 01-2 and 01-10). -/
def Part.full : Part → Bool
  | .nl2612 => true | .nl2606 => true | _ => false

/-- Agate engines of a member (Table 01-9). -/
def Part.engines (p : Part) : Nat := if p.full then 4 else 2

/-- Aux converters of a member (Table 01-9). -/
def Part.converters (p : Part) : Nat := if p.full then 2 else 1

/-- SYS_CHIP_ID.CODE (Table 01-9): the part number in BCD; the NL-2612S reads 0x2612. -/
def Part.code : Part → Nat
  | .nl2612 => 0x2612 | .nl2612s => 0x2612 | .nl2606 => 0x2606 | .nl2603 => 0x2603 | .nl2601 => 0x2601

/-- SYS_REV.VARIANT (Table 01-9). -/
def Part.variant : Part → Nat
  | .nl2612s => 1 | _ => 0

/-- SYS_UNITS (Tables 01-7 and 01-9). -/
def Part.units (p : Part) : Nat :=
  2 ^ 11 * bit p.full + 2 ^ 10 * bit p.full + 2 ^ 8 * p.converters + 2 ^ 4 * p.engines + p.quires

/-- Colophon PRESENT (Tables 01-9 and 01-10). -/
def Part.present (p : Part) : Nat := if p.full then 0x001F else 0

/-- Size of one Slate macro in Kibit (Table 01-9). -/
def Part.macroKibit : Part → Nat
  | .nl2612 => 2048 | .nl2606 => 1024 | _ => 0

/-- The ASCII part name (Table 01-8, PART_NAME), 12 bytes padded with 0x00. -/
def Part.name : Part → List Byte
  | .nl2612 => [0x4E, 0x4C, 0x2D, 0x32, 0x36, 0x31, 0x32, 0, 0, 0, 0, 0]
  | .nl2612s => [0x4E, 0x4C, 0x2D, 0x32, 0x36, 0x31, 0x32, 0x53, 0, 0, 0, 0]
  | .nl2606 => [0x4E, 0x4C, 0x2D, 0x32, 0x36, 0x30, 0x36, 0, 0, 0, 0, 0]
  | .nl2603 => [0x4E, 0x4C, 0x2D, 0x32, 0x36, 0x30, 0x33, 0, 0, 0, 0, 0]
  | .nl2601 => [0x4E, 0x4C, 0x2D, 0x32, 0x36, 0x30, 0x31, 0, 0, 0, 0, 0]

namespace Config

/-! ### Per-die fuse values: fixed for a die, given by no rule (R23, R41, R45, R47, R48) -/

/-- SYS_REV.MAJOR of the die (Table 01-6), four bits. DESIGN CHOICE (log entry 11). -/
opaque dieMajor : BitVec 4
/-- SYS_REV.MINOR of the die (Table 01-6). DESIGN CHOICE (log entry 11). -/
opaque dieMinor : Byte
/-- LOT of UNIQUE_ID (Table 01-11). DESIGN CHOICE (log entry 11). -/
opaque dieLot : BitVec 16
/-- WAFER of UNIQUE_ID less 1: 1 to 25 (Table 01-11). DESIGN CHOICE (log entry 11). -/
opaque dieWafer : Fin 25
/-- SITE of UNIQUE_ID (Table 01-11). DESIGN CHOICE (log entry 11). -/
opaque dieSite : BitVec 16
/-- SERIAL of UNIQUE_ID (Table 01-11). DESIGN CHOICE (log entry 11). -/
opaque dieSerial : BitVec 16
/-- UNIQUE_ID of the die (R45, Table 01-11). -/
def uniqueId : BitVec 64 := dieLot ++ BitVec.ofNat 8 (dieWafer.val + 1) ++ 0#8 ++ dieSite ++ dieSerial
/-- Golden signature of an LBIST partition (R47), as fused. DESIGN CHOICE (log entry 11). -/
opaque golden : Nat → BitVec 32
/-- Spare rows switched in per Slate macro (R48), as fused. DESIGN CHOICE (log entry 11). -/
opaque sparesUsed : Nat → Byte

/-! ### Free values: results the spec leaves open, indexed by the free-value counter of the state -/

/-- A 16-bit value that the spec leaves open. DESIGN CHOICE (log entry 12). -/
opaque freeWord : Nat → Word
/-- A number that the spec leaves open. DESIGN CHOICE (log entry 12). -/
opaque freeNat : Nat → Nat
/-- A choice that the spec leaves open ("may or may not"). DESIGN CHOICE (log entry 12). -/
opaque freeBool : Nat → Bool

/-- The LBIST partition that runs in a tick of step 1 of a test run (R604): the spec bounds the time of each and gives
none. DESIGN CHOICE (log entry 12). -/
opaque lbistAt : Nat → Nat
/-- VDD in a tick of a POR not yet released (R56, R57): 0 = 0 V, 1 = below 1.0 V, 2 = at or above it. DESIGN CHOICE (log
entry 12). -/
opaque vddAt : Nat → Fin 3

/-- By tick and land, the level that is sampled of an AG land which has both levels within the tick (R384, R508): the
spec lets a pulse so short be seen or not. DESIGN CHOICE (log entry 12). -/
opaque levelAt : Nat → Byte

/-- Whether a pump that has left regulation is back in a tick (R109): the spec gives no end of a droop. DESIGN CHOICE
(log entry 12). -/
opaque pumpBack : Bool → Nat → Bool

/-- Whether an inexact quotient `n / d` is rounded up where the spec states a value and a resolution but no rounding
(the interpolated position and VEL, R419, Table 12-12). DESIGN CHOICE (log entry 13). -/
opaque roundUp : Int → Nat → Bool

end Config

/-- `n / d` at a resolution for which the spec gives no rounding: exact where it divides, else one of the two
neighbours. DESIGN CHOICE (log entry 13). -/
def roundOpen (n : Int) (d : Nat) : Int :=
  if n % d = 0 then n / d else n / d + (if Config.roundUp n d then 1 else 0)

end Sys2Proof
end

