-- ==== Sys2Proof/Machine/Cells.lean ====
section
/-! DEFINITION.
Sparse data: a list of key and value pairs in ONE canonical form, so that equal contents are equal lists.
The keys rise strictly, and no entry holds the value that an unlisted key reads as (the default `d`).
The registers, the stores, the counters and every other numbered family of the device are held so.
-/
namespace Sys2Proof.Machine

/-- Sparse contents: pairs of a key and a value, the keys rising. -/
abbrev Cells (β : Type) := List (Nat × β)

/-- What key `k` reads as; `d` where the list does not name it. -/
def Cells.get {β : Type} (d : β) : Cells β → Nat → β
  | [], _ => d
  | (k', v) :: m, k => if k = k' then v else Cells.get d m k

/-- The contents with the keys that satisfy `p` removed: they read as the default. -/
def Cells.drop {β : Type} (p : Nat → Bool) (m : Cells β) : Cells β := m.filter fun e => !p e.1

/-- The contents with key `k` holding `v`; writing the default removes the entry. DESIGN CHOICE (log entry 9). -/
def Cells.set {β : Type} [DecidableEq β] (d : β) : Cells β → Nat → β → Cells β
  | [], k, v => if v = d then [] else [(k, v)]
  | (k', v') :: m, k, v =>
    if k = k' then (if v = d then Cells.drop (fun x => x == k) m else (k, v) :: m)
    else if k < k' then
      (if v = d then (k', v') :: Cells.drop (fun x => x == k) m else (k, v) :: (k', v') :: m)
    else (k', v') :: Cells.set d m k v

/-- The contents with `f` applied to what key `k` holds. -/
def Cells.modify {β : Type} [DecidableEq β] (d : β) (m : Cells β) (k : Nat) (f : β → β) : Cells β :=
  Cells.set d m k (f (Cells.get d m k))

/-- The contents with every listed entry mapped by `f`; one that becomes the default is removed. -/
def Cells.mapEntries {β : Type} [DecidableEq β] (d : β) (f : Nat → β → β) : Cells β → Cells β
  | [] => []
  | (k, v) :: m =>
    if f k v = d then Cells.drop (fun x => x == k) (Cells.mapEntries d f m) else (k, f k v) :: Cells.mapEntries d f m

/-- Writes of several values at consecutive keys from `k` on. -/
def Cells.setRange {β : Type} [DecidableEq β] (d : β) (m : Cells β) (k : Nat) : List β → Cells β
  | [] => m
  | v :: vs => Cells.setRange d (Cells.set d m k v) (k + 1) vs

/-- The values at `n` consecutive keys from `k` on. -/
def Cells.getRange {β : Type} (d : β) (m : Cells β) (k : Nat) : Nat → List β
  | 0 => []
  | n + 1 => Cells.get d m k :: Cells.getRange d m (k + 1) n

/-- The canonical form: every key lies above `lo`'s bound, the keys rise, and no entry holds the default. -/
def Cells.wfFrom {β : Type} [DecidableEq β] (d : β) : Nat → Cells β → Bool
  | _, [] => true
  | lo, (k, v) :: m => decide (lo ≤ k) && decide (v ≠ d) && Cells.wfFrom d (k + 1) m

/-- The canonical form of sparse contents. -/
def Cells.wf {β : Type} [DecidableEq β] (d : β) (m : Cells β) : Bool := Cells.wfFrom d 0 m

end Sys2Proof.Machine
end

