-- ==== Sys2Proof/Machine/Regs.lean ====
section
/-! DEFINITION.
The register map (Tables 01-5 to 22-4, indexed by Table 21-2): every field of every register that holds a value of
its own, with its bits, its access code (R12), its value after POR (R11) and the events it is kept through (R14).
Reserved bits are no field: they read 0 and ignore writes (R13).  Fields whose reset value depends on the member,
the straps or the instance carry the NL-2612 value of instance 0 here; `resetWord` in `State.lean` gives the others.
The registers SPN_K_DATA, POS_DATA, AUX_DATA and MEM_INFO show parts that live in their units' own state.
-/
namespace Sys2Proof.Machine

/-- The access codes of R12. -/
inductive Access where
  | rw | ro | w1c | wo | rc
  deriving DecidableEq, Repr

/-- The strings of the Kept through column (R14, R122). -/
inductive Kept where
  | none | y | sy | psy | psfy | psfyd
  deriving DecidableEq, Repr

/-- One field of a register: address, highest and lowest bit, access, value after POR, kept-through string. -/
structure Field where
  addr : Nat
  hi : Nat
  lo : Nat
  acc : Access
  rst : Nat
  kept : Kept
  deriving DecidableEq, Repr

/-! ### Addresses (Table 21-2) -/

/-- Address of SYS_CHIP_ID. -/
def R.SYS_CHIP_ID : Nat := 0x00
/-- Address of SYS_REV. -/
def R.SYS_REV : Nat := 0x01
/-- Address of LEG_COL_FIRST. -/
def R.LEG_COL_FIRST : Nat := 0x08
/-- Address of LEG_COL_LAST. -/
def R.LEG_COL_LAST : Nat := 0x09
/-- Address of LEG_STROBE_DLY. -/
def R.LEG_STROBE_DLY : Nat := 0x16
/-- Address of LEG_STROBE_WIDTH. -/
def R.LEG_STROBE_WIDTH : Nat := 0x17
/-- Address of LEG_LVDS_CFG. -/
def R.LEG_LVDS_CFG : Nat := 0x18
/-- Address of LEG_TRIG_POL. -/
def R.LEG_TRIG_POL : Nat := 0x19
/-- Address of LEG_ENC_DIV. -/
def R.LEG_ENC_DIV : Nat := 0x1A
/-- Address of SYS_UNITS. -/
def R.SYS_UNITS : Nat := 0x60
/-- Address of SYS_STRAPS. -/
def R.SYS_STRAPS : Nat := 0x61
/-- Address of SYS_STATUS. -/
def R.SYS_STATUS : Nat := 0x62
/-- Address of SYS_RESET_CAUSE. -/
def R.SYS_RESET_CAUSE : Nat := 0x63
/-- Address of SYS_STORE_LOST. -/
def R.SYS_STORE_LOST : Nat := 0x64
/-- Address of SYS_SOFT_RESET. -/
def R.SYS_SOFT_RESET : Nat := 0x65
/-- Address of PWR_CTRL. -/
def R.PWR_CTRL : Nat := 0x66
/-- Address of PWR_STATUS. -/
def R.PWR_STATUS : Nat := 0x67
/-- Address of PWR_WARN. -/
def R.PWR_WARN : Nat := 0x68
/-- Address of PWR_DIP_POLICY. -/
def R.PWR_DIP_POLICY : Nat := 0x69
/-- Address of PWR_WAKE_TMO. -/
def R.PWR_WAKE_TMO : Nat := 0x6A
/-- Address of CLK_REFDIV. -/
def R.CLK_REFDIV : Nat := 0x6B
/-- Address of CLK_STATUS. -/
def R.CLK_STATUS : Nat := 0x6C
/-- Address of CLK_CTRL. -/
def R.CLK_CTRL : Nat := 0x6D
/-- Address of CLK_TRIG_LOST. -/
def R.CLK_TRIG_LOST : Nat := 0x6E
/-- Address of CLK_TIME_HI. -/
def R.CLK_TIME_HI : Nat := 0x6F
/-- Address of CLK_TIME_MID. -/
def R.CLK_TIME_MID : Nat := 0x70
/-- Address of CLK_TIME_LO. -/
def R.CLK_TIME_LO : Nat := 0x71
/-- Address of CP_MODE. -/
def R.CP_MODE : Nat := 0x72
/-- Address of CP_CTRL. -/
def R.CP_CTRL : Nat := 0x73
/-- Address of CP_STATUS. -/
def R.CP_STATUS : Nat := 0x74
/-- Address of CP_ERR. -/
def R.CP_ERR : Nat := 0x75
/-- Address of CP_REFUSED. -/
def R.CP_REFUSED : Nat := 0x76
/-- Address of BND_STATUS. -/
def R.BND_STATUS : Nat := 0x77
/-- Address of BND_GEN. -/
def R.BND_GEN : Nat := 0x78
/-- Address of BND_TXN_TMO. -/
def R.BND_TXN_TMO : Nat := 0x79
/-- Address of BND_CTRL. -/
def R.BND_CTRL : Nat := 0x7A
/-- Address of BND_TARGET_HI. -/
def R.BND_TARGET_HI : Nat := 0x7B
/-- Address of BND_TARGET_MID. -/
def R.BND_TARGET_MID : Nat := 0x7C
/-- Address of BND_TARGET_LO. -/
def R.BND_TARGET_LO : Nat := 0x7D
/-- Address of BND_WDOG. -/
def R.BND_WDOG : Nat := 0x7E
/-- Address of BND_WDOG_KICK. -/
def R.BND_WDOG_KICK : Nat := 0x7F
/-- Address of QR_SEL. -/
def R.QR_SEL : Nat := 0x80
/-- Address of QR_ENABLE. -/
def R.QR_ENABLE : Nat := 0x81
/-- Address of QR_COL_START. -/
def R.QR_COL_START : Nat := 0x82
/-- Address of QR_COL_COUNT. -/
def R.QR_COL_COUNT : Nat := 0x83
/-- Address of QR_ROW_START. -/
def R.QR_ROW_START : Nat := 0x84
/-- Address of QR_ROW_COUNT. -/
def R.QR_ROW_COUNT : Nat := 0x85
/-- Address of QR_MODE. -/
def R.QR_MODE : Nat := 0x86
/-- Address of QR_STATUS. -/
def R.QR_STATUS : Nat := 0x87
/-- Address of EXP_CTRL. -/
def R.EXP_CTRL : Nat := 0x88
/-- Address of EXP_MODE. -/
def R.EXP_MODE : Nat := 0x89
/-- Address of EXP_TIME_HI. -/
def R.EXP_TIME_HI : Nat := 0x8A
/-- Address of EXP_TIME_LO. -/
def R.EXP_TIME_LO : Nat := 0x8B
/-- Address of EXP_PERIOD. -/
def R.EXP_PERIOD : Nat := 0x8C
/-- Address of EXP_SCHED. -/
def R.EXP_SCHED : Nat := 0x8D
/-- Address of EXP_TRIG_HELD. -/
def R.EXP_TRIG_HELD : Nat := 0x8E
/-- Address of EXP_DROPPED. -/
def R.EXP_DROPPED : Nat := 0x8F
/-- Address of CNV_MODE. -/
def R.CNV_MODE : Nat := 0x90
/-- Address of CNV_CORR. -/
def R.CNV_CORR : Nat := 0x91
/-- Address of CNV_BLK_CTRL. -/
def R.CNV_BLK_CTRL : Nat := 0x92
/-- Address of CNV_HDR. -/
def R.CNV_HDR : Nat := 0x93
/-- Address of CNV_PAIR. -/
def R.CNV_PAIR : Nat := 0x94
/-- Address of CNV_FF. -/
def R.CNV_FF : Nat := 0x95
/-- Address of CNV_STATUS. -/
def R.CNV_STATUS : Nat := 0x96
/-- Address of CNV_DEF_STATUS. -/
def R.CNV_DEF_STATUS : Nat := 0x97
/-- Address of LN_MODE. -/
def R.LN_MODE : Nat := 0x98
/-- Address of LN_RATE. -/
def R.LN_RATE : Nat := 0x99
/-- Address of LN_ANNEX. -/
def R.LN_ANNEX : Nat := 0x9A
/-- Address of LN_ANNEX_EVERY. -/
def R.LN_ANNEX_EVERY : Nat := 0x9B
/-- Address of LN_BUF. -/
def R.LN_BUF : Nat := 0x9C
/-- Address of LN_STATUS. -/
def R.LN_STATUS : Nat := 0x9D
/-- Address of LN_DROPPED. -/
def R.LN_DROPPED : Nat := 0x9E
/-- Address of SPN_SEL. -/
def R.SPN_SEL : Nat := 0xA0
/-- Address of SPN_GO. -/
def R.SPN_GO : Nat := 0xA1
/-- Address of SPN_C_CFG. -/
def R.SPN_C_CFG : Nat := 0xA2
/-- Address of SPN_C_STAT. -/
def R.SPN_C_STAT : Nat := 0xA3
/-- Address of SPN_C_HI. -/
def R.SPN_C_HI : Nat := 0xA4
/-- Address of SPN_C_MID. -/
def R.SPN_C_MID : Nat := 0xA5
/-- Address of SPN_C_LO. -/
def R.SPN_C_LO : Nat := 0xA6
/-- Address of SPN_C_DIV_HI. -/
def R.SPN_C_DIV_HI : Nat := 0xA7
/-- Address of SPN_C_DIV_LO. -/
def R.SPN_C_DIV_LO : Nat := 0xA8
/-- Address of SPN_M_CFG. -/
def R.SPN_M_CFG : Nat := 0xA9
/-- Address of SPN_M_HI. -/
def R.SPN_M_HI : Nat := 0xAA
/-- Address of SPN_M_MID. -/
def R.SPN_M_MID : Nat := 0xAB
/-- Address of SPN_M_LO. -/
def R.SPN_M_LO : Nat := 0xAC
/-- Address of SPN_M_INTERVAL. -/
def R.SPN_M_INTERVAL : Nat := 0xAD
/-- Address of SPN_M_STAT. -/
def R.SPN_M_STAT : Nat := 0xAE
/-- Address of SPN_K_DATA. -/
def R.SPN_K_DATA : Nat := 0xAF
/-- Address of POS_CFG. -/
def R.POS_CFG : Nat := 0xB0
/-- Address of POS_LOSS. -/
def R.POS_LOSS : Nat := 0xB1
/-- Address of POS_HOLD_LINES. -/
def R.POS_HOLD_LINES : Nat := 0xB2
/-- Address of POS_Z_SPAN. -/
def R.POS_Z_SPAN : Nat := 0xB3
/-- Address of POS_STATUS. -/
def R.POS_STATUS : Nat := 0xB4
/-- Address of POS_SKIPPED. -/
def R.POS_SKIPPED : Nat := 0xB5
/-- Address of POS_PART. -/
def R.POS_PART : Nat := 0xB6
/-- Address of POS_DATA. -/
def R.POS_DATA : Nat := 0xB7
/-- Address of AUX_SEL. -/
def R.AUX_SEL : Nat := 0xB8
/-- Address of AUX_CTRL. -/
def R.AUX_CTRL : Nat := 0xB9
/-- Address of AUX_ROUND. -/
def R.AUX_ROUND : Nat := 0xBA
/-- Address of AUX_OVF_POLICY. -/
def R.AUX_OVF_POLICY : Nat := 0xBB
/-- Address of AUX_OW_THRESH. -/
def R.AUX_OW_THRESH : Nat := 0xBC
/-- Address of AUX_DAC. -/
def R.AUX_DAC : Nat := 0xBD
/-- Address of AUX_FLASH. -/
def R.AUX_FLASH : Nat := 0xBE
/-- Address of AUX_FLASH_DARK. -/
def R.AUX_FLASH_DARK : Nat := 0xBF
/-- Address of AUX_STATUS. -/
def R.AUX_STATUS : Nat := 0xC0
/-- Address of AUX_OW_STAT. -/
def R.AUX_OW_STAT : Nat := 0xC1
/-- Address of AUX_Q_HI. -/
def R.AUX_Q_HI : Nat := 0xC2
/-- Address of AUX_Q_LO. -/
def R.AUX_Q_LO : Nat := 0xC3
/-- Address of AUX_Q_LEVEL. -/
def R.AUX_Q_LEVEL : Nat := 0xC4
/-- Address of AUX_OVF_COUNT. -/
def R.AUX_OVF_COUNT : Nat := 0xC5
/-- Address of AUX_INJ_DROPPED. -/
def R.AUX_INJ_DROPPED : Nat := 0xC6
/-- Address of AUX_DATA. -/
def R.AUX_DATA : Nat := 0xC7
/-- Address of TMP_SEL. -/
def R.TMP_SEL : Nat := 0xC8
/-- Address of TMP_CFG. -/
def R.TMP_CFG : Nat := 0xC9
/-- Address of TMP_GAIN. -/
def R.TMP_GAIN : Nat := 0xCA
/-- Address of TMP_OFS. -/
def R.TMP_OFS : Nat := 0xCB
/-- Address of TMP_BAND. -/
def R.TMP_BAND : Nat := 0xCC
/-- Address of TMP_STATUS. -/
def R.TMP_STATUS : Nat := 0xCD
/-- Address of TMP_BLK. -/
def R.TMP_BLK : Nat := 0xCE
/-- Address of TMP_TEMP. -/
def R.TMP_TEMP : Nat := 0xCF
/-- Address of AGT_SEL. -/
def R.AGT_SEL : Nat := 0xD0
/-- Address of AGT_CFG. -/
def R.AGT_CFG : Nat := 0xD1
/-- Address of AGT_DIV. -/
def R.AGT_DIV : Nat := 0xD2
/-- Address of AGT_WRAP_TOP. -/
def R.AGT_WRAP_TOP : Nat := 0xD3
/-- Address of AGT_WRAP_BOT. -/
def R.AGT_WRAP_BOT : Nat := 0xD4
/-- Address of AGT_CORE. -/
def R.AGT_CORE : Nat := 0xD5
/-- Address of AGT_STATUS. -/
def R.AGT_STATUS : Nat := 0xD6
/-- Address of AGT_SR. -/
def R.AGT_SR : Nat := 0xD7
/-- Address of AGT_FIFO. -/
def R.AGT_FIFO : Nat := 0xD8
/-- Address of AGT_INJECT. -/
def R.AGT_INJECT : Nat := 0xD9
/-- Address of AGT_GO. -/
def R.AGT_GO : Nat := 0xDA
/-- Address of AGT_FORCE_HALT. -/
def R.AGT_FORCE_HALT : Nat := 0xDB
/-- Address of AGT_PINPERM_A. -/
def R.AGT_PINPERM_A : Nat := 0xDC
/-- Address of AGT_PINPERM_B. -/
def R.AGT_PINPERM_B : Nat := 0xDD
/-- Address of AGT_BIST_PINS. -/
def R.AGT_BIST_PINS : Nat := 0xDE
/-- Address of AGT_TRACE. -/
def R.AGT_TRACE : Nat := 0xDF
/-- Address of PB_TGT. -/
def R.PB_TGT : Nat := 0xE0
/-- Address of PB_CFG. -/
def R.PB_CFG : Nat := 0xE1
/-- Address of PB_EE. -/
def R.PB_EE : Nat := 0xE2
/-- Address of PB_XADDR. -/
def R.PB_XADDR : Nat := 0xE3
/-- Address of PB_DATA. -/
def R.PB_DATA : Nat := 0xE4
/-- Address of PB_XFER. -/
def R.PB_XFER : Nat := 0xE5
/-- Address of PB_STATUS. -/
def R.PB_STATUS : Nat := 0xE6
/-- Address of PB_ERR. -/
def R.PB_ERR : Nat := 0xE7
/-- Address of MEM_SEL. -/
def R.MEM_SEL : Nat := 0xE8
/-- Address of MEM_SCRUB_RATE. -/
def R.MEM_SCRUB_RATE : Nat := 0xE9
/-- Address of MEM_CTRL. -/
def R.MEM_CTRL : Nat := 0xEA
/-- Address of MEM_STATUS. -/
def R.MEM_STATUS : Nat := 0xEB
/-- Address of MEM_INFO. -/
def R.MEM_INFO : Nat := 0xEC
/-- Address of MEM_FLIP_MASK. -/
def R.MEM_FLIP_MASK : Nat := 0xED
/-- Address of MEM_RAW. -/
def R.MEM_RAW : Nat := 0xEE
/-- Address of SLT_RETIRE. -/
def R.SLT_RETIRE : Nat := 0xEF
/-- Address of BST_CTRL. -/
def R.BST_CTRL : Nat := 0xF0
/-- Address of BST_STATUS. -/
def R.BST_STATUS : Nat := 0xF1
/-- Address of BST_PART. -/
def R.BST_PART : Nat := 0xF2
/-- Address of BST_REC. -/
def R.BST_REC : Nat := 0xF3
/-- Address of FLT_CTRL. -/
def R.FLT_CTRL : Nat := 0xF4
/-- Address of FLT_STATUS. -/
def R.FLT_STATUS : Nat := 0xF5
/-- Address of FLT_PART. -/
def R.FLT_PART : Nat := 0xF6
/-- Address of FLT_DATA. -/
def R.FLT_DATA : Nat := 0xF7
/-- Address of FLT_ATTN. -/
def R.FLT_ATTN : Nat := 0xF8
/-- Address of FLT_EV_STAT. -/
def R.FLT_EV_STAT : Nat := 0xF9
/-- Address of FLT_EV_LOST. -/
def R.FLT_EV_LOST : Nat := 0xFA
/-- Address of FLT_LOG_WR. -/
def R.FLT_LOG_WR : Nat := 0xFB
/-- Address of INJ_SEL. -/
def R.INJ_SEL : Nat := 0xFC
/-- Address of INJ_ARG. -/
def R.INJ_ARG : Nat := 0xFD
/-- Address of INJ_FIRE. -/
def R.INJ_FIRE : Nat := 0xFE
/-- Address of INJ_STATUS. -/
def R.INJ_STATUS : Nat := 0xFF
/-- Address of LEG_RUN (Table 22-3, an alias). -/
def R.LEG_RUN : Nat := 0x02
/-- Address of LEG_TRIG (Table 22-3, an alias). -/
def R.LEG_TRIG : Nat := 0x03
/-- Address of LEG_EXP_HI (Table 22-3, an alias). -/
def R.LEG_EXP_HI : Nat := 0x04
/-- Address of LEG_EXP_LO (Table 22-3, an alias). -/
def R.LEG_EXP_LO : Nat := 0x05
/-- Address of LEG_PERIOD (Table 22-3, an alias). -/
def R.LEG_PERIOD : Nat := 0x06
/-- Address of LEG_TRIG_EVT (Table 22-3, an alias). -/
def R.LEG_TRIG_EVT : Nat := 0x07
/-- Address of LEG_ROW_START (Table 22-3, an alias). -/
def R.LEG_ROW_START : Nat := 0x0A
/-- Address of LEG_ROW_COUNT (Table 22-3, an alias). -/
def R.LEG_ROW_COUNT : Nat := 0x0B
/-- Address of LEG_BIN (Table 22-3, an alias). -/
def R.LEG_BIN : Nat := 0x0C
/-- Address of LEG_READOUT (Table 22-3, an alias). -/
def R.LEG_READOUT : Nat := 0x0D
/-- Address of LEG_ADC (Table 22-3, an alias). -/
def R.LEG_ADC : Nat := 0x0E
/-- Address of LEG_CORR (Table 22-3, an alias). -/
def R.LEG_CORR : Nat := 0x0F
/-- Address of LEG_BLACK (Table 22-3, an alias). -/
def R.LEG_BLACK : Nat := 0x10
/-- Address of LEG_HDR_RATIO (Table 22-3, an alias). -/
def R.LEG_HDR_RATIO : Nat := 0x11
/-- Address of LEG_OUT (Table 22-3, an alias). -/
def R.LEG_OUT : Nat := 0x12
/-- Address of LEG_STATUS (Table 22-3, an alias). -/
def R.LEG_STATUS : Nat := 0x13
/-- Address of LEG_DROPPED (Table 22-3, an alias). -/
def R.LEG_DROPPED : Nat := 0x14
/-- Address of LEG_MCLK (Table 22-3, an alias). -/
def R.LEG_MCLK : Nat := 0x15

/-! ### Fields -/

/-- SYS_CHIP_ID.CODE (Table 01-5). -/
def F.SYS_CHIP_ID_CODE : Field := ⟨0x00, 15, 0, .ro, 0x0, .psfyd⟩
/-- SYS_REV.VARIANT (Table 01-6). -/
def F.SYS_REV_VARIANT : Field := ⟨0x01, 15, 12, .ro, 0x0, .psfyd⟩
/-- SYS_REV.MAJOR (Table 01-6). -/
def F.SYS_REV_MAJOR : Field := ⟨0x01, 11, 8, .ro, 0x0, .psfyd⟩
/-- SYS_REV.MINOR (Table 01-6). -/
def F.SYS_REV_MINOR : Field := ⟨0x01, 7, 0, .ro, 0x0, .psfyd⟩
/-- LEG_COL_FIRST.S (Table 22-4). -/
def F.LEG_COL_FIRST_S : Field := ⟨0x08, 12, 0, .rw, 0x0, .y⟩
/-- LEG_COL_LAST.E (Table 22-4). -/
def F.LEG_COL_LAST_E : Field := ⟨0x09, 12, 0, .rw, 0x17FF, .y⟩
/-- LEG_STROBE_DLY.DLY (Table 22-4). -/
def F.LEG_STROBE_DLY_DLY : Field := ⟨0x16, 15, 0, .rw, 0x0, .y⟩
/-- LEG_STROBE_WIDTH.WIDTH (Table 22-4). -/
def F.LEG_STROBE_WIDTH_WIDTH : Field := ⟨0x17, 15, 0, .rw, 0x0, .y⟩
/-- LEG_LVDS_CFG.CFG (Table 22-4). -/
def F.LEG_LVDS_CFG_CFG : Field := ⟨0x18, 15, 0, .rw, 0x0, .y⟩
/-- LEG_TRIG_POL.POL (Table 22-4). -/
def F.LEG_TRIG_POL_POL : Field := ⟨0x19, 1, 0, .rw, 0x0, .y⟩
/-- LEG_ENC_DIV.DIV (Table 22-4). -/
def F.LEG_ENC_DIV_DIV : Field := ⟨0x1A, 15, 0, .rw, 0x1, .y⟩
/-- SYS_UNITS.SLATE (Table 01-7). -/
def F.SYS_UNITS_SLATE : Field := ⟨0x60, 11, 11, .ro, 0x0, .psfyd⟩
/-- SYS_UNITS.AUX_ILV (Table 01-7). -/
def F.SYS_UNITS_AUX_ILV : Field := ⟨0x60, 10, 10, .ro, 0x0, .psfyd⟩
/-- SYS_UNITS.AUX (Table 01-7). -/
def F.SYS_UNITS_AUX : Field := ⟨0x60, 9, 8, .ro, 0x0, .psfyd⟩
/-- SYS_UNITS.ENGINES (Table 01-7). -/
def F.SYS_UNITS_ENGINES : Field := ⟨0x60, 6, 4, .ro, 0x0, .psfyd⟩
/-- SYS_UNITS.QUIRES (Table 01-7). -/
def F.SYS_UNITS_QUIRES : Field := ⟨0x60, 3, 0, .ro, 0x0, .psfyd⟩
/-- SYS_STRAPS.SPIMODE (Table 02-9). -/
def F.SYS_STRAPS_SPIMODE : Field := ⟨0x61, 2, 2, .ro, 0x0, .psfyd⟩
/-- SYS_STRAPS.CFGSEL (Table 02-9). -/
def F.SYS_STRAPS_CFGSEL : Field := ⟨0x61, 1, 0, .ro, 0x0, .psfyd⟩
/-- SYS_STATUS.CONFIG_VALID (Table 03-11). -/
def F.SYS_STATUS_CONFIG_VALID : Field := ⟨0x62, 9, 9, .rw, 0x0, .y⟩
/-- SYS_STATUS.STORES_VALID (Table 03-11). -/
def F.SYS_STATUS_STORES_VALID : Field := ⟨0x62, 8, 8, .rw, 0x0, .psy⟩
/-- SYS_STATUS.SAFE_WHY (Table 03-11). -/
def F.SYS_STATUS_SAFE_WHY : Field := ⟨0x62, 4, 3, .ro, 0x0, .none⟩
/-- SYS_STATUS.STATE (Table 03-11). -/
def F.SYS_STATUS_STATE : Field := ⟨0x62, 2, 0, .ro, 0x3, .none⟩
/-- SYS_RESET_CAUSE.FROM_DORMANT (Table 03-12). -/
def F.SYS_RESET_CAUSE_FROM_DORMANT : Field := ⟨0x63, 12, 12, .ro, 0x0, .psfyd⟩
/-- SYS_RESET_CAUSE.FAULT_WDOG (Table 03-12). -/
def F.SYS_RESET_CAUSE_FAULT_WDOG : Field := ⟨0x63, 11, 11, .ro, 0x0, .psfyd⟩
/-- SYS_RESET_CAUSE.LOCKOUT (Table 03-12). -/
def F.SYS_RESET_CAUSE_LOCKOUT : Field := ⟨0x63, 10, 10, .ro, 0x0, .psfyd⟩
/-- SYS_RESET_CAUSE.FAILS (Table 03-12). -/
def F.SYS_RESET_CAUSE_FAILS : Field := ⟨0x63, 9, 8, .ro, 0x0, .psfyd⟩
/-- SYS_RESET_CAUSE.FAIL_STEP (Table 03-12). -/
def F.SYS_RESET_CAUSE_FAIL_STEP : Field := ⟨0x63, 7, 4, .ro, 0x0, .psfyd⟩
/-- SYS_RESET_CAUSE.WAKE_FAIL (Table 03-12). -/
def F.SYS_RESET_CAUSE_WAKE_FAIL : Field := ⟨0x63, 3, 3, .w1c, 0x0, .psfyd⟩
/-- SYS_RESET_CAUSE.CLASS (Table 03-12). -/
def F.SYS_RESET_CAUSE_CLASS : Field := ⟨0x63, 2, 0, .ro, 0x1, .psfyd⟩
/-- SYS_STORE_LOST.TRACE (Table 03-13). -/
def F.SYS_STORE_LOST_TRACE : Field := ⟨0x64, 10, 10, .w1c, 0x1, .psfy⟩
/-- SYS_STORE_LOST.ADCSEQ (Table 03-13). -/
def F.SYS_STORE_LOST_ADCSEQ : Field := ⟨0x64, 8, 8, .w1c, 0x1, .psfy⟩
/-- SYS_STORE_LOST.LOG (Table 03-13). -/
def F.SYS_STORE_LOST_LOG : Field := ⟨0x64, 7, 7, .w1c, 0x1, .psfy⟩
/-- SYS_STORE_LOST.LUT (Table 03-13). -/
def F.SYS_STORE_LOST_LUT : Field := ⟨0x64, 5, 5, .w1c, 0x1, .psfy⟩
/-- SYS_STORE_LOST.AGATE (Table 03-13). -/
def F.SYS_STORE_LOST_AGATE : Field := ⟨0x64, 4, 4, .w1c, 0x1, .psfy⟩
/-- SYS_STORE_LOST.DEFECT (Table 03-13). -/
def F.SYS_STORE_LOST_DEFECT : Field := ⟨0x64, 3, 3, .w1c, 0x1, .psfy⟩
/-- SYS_STORE_LOST.CAL (Table 03-13). -/
def F.SYS_STORE_LOST_CAL : Field := ⟨0x64, 2, 2, .w1c, 0x1, .psfy⟩
/-- SYS_STORE_LOST.WAVE (Table 03-13). -/
def F.SYS_STORE_LOST_WAVE : Field := ⟨0x64, 1, 1, .w1c, 0x1, .psfy⟩
/-- SYS_SOFT_RESET.KEY (Table 03-14). -/
def F.SYS_SOFT_RESET_KEY : Field := ⟨0x65, 15, 0, .wo, 0x0, .none⟩
/-- PWR_CTRL.REQ (Table 03-15). -/
def F.PWR_CTRL_REQ : Field := ⟨0x66, 1, 0, .wo, 0x0, .none⟩
/-- PWR_STATUS.CP_DROOP (Table 03-16). -/
def F.PWR_STATUS_CP_DROOP : Field := ⟨0x67, 5, 5, .w1c, 0x0, .y⟩
/-- PWR_STATUS.CP2_OK (Table 03-16). -/
def F.PWR_STATUS_CP2_OK : Field := ⟨0x67, 4, 4, .ro, 0x0, .none⟩
/-- PWR_STATUS.CP1_OK (Table 03-16). -/
def F.PWR_STATUS_CP1_OK : Field := ⟨0x67, 3, 3, .ro, 0x0, .none⟩
/-- PWR_STATUS.HOLD (Table 03-16). -/
def F.PWR_STATUS_HOLD : Field := ⟨0x67, 2, 2, .ro, 0x0, .none⟩
/-- PWR_STATUS.WARN_LATCH (Table 03-16). -/
def F.PWR_STATUS_WARN_LATCH : Field := ⟨0x67, 1, 1, .w1c, 0x0, .y⟩
/-- PWR_STATUS.WARN (Table 03-16). -/
def F.PWR_STATUS_WARN : Field := ⟨0x67, 0, 0, .ro, 0x0, .none⟩
/-- PWR_WARN.ATTN_EN (Table 03-17). -/
def F.PWR_WARN_ATTN_EN : Field := ⟨0x68, 4, 4, .rw, 0x0, .y⟩
/-- PWR_WARN.LEVEL (Table 03-17). -/
def F.PWR_WARN_LEVEL : Field := ⟨0x68, 3, 0, .rw, 0x4, .y⟩
/-- PWR_DIP_POLICY.POLICY (Table 03-17). -/
def F.PWR_DIP_POLICY_POLICY : Field := ⟨0x69, 0, 0, .rw, 0x0, .y⟩
/-- PWR_WAKE_TMO.PLL_TMO (Table 03-18). -/
def F.PWR_WAKE_TMO_PLL_TMO : Field := ⟨0x6A, 15, 8, .rw, 0xA, .y⟩
/-- PWR_WAKE_TMO.STEP_TMO (Table 03-18). -/
def F.PWR_WAKE_TMO_STEP_TMO : Field := ⟨0x6A, 7, 0, .rw, 0x8, .y⟩
/-- CLK_REFDIV.FREQ (Table 04-7). -/
def F.CLK_REFDIV_FREQ : Field := ⟨0x6B, 5, 0, .rw, 0xA, .y⟩
/-- CLK_STATUS.TIME_GAP (Table 04-8). -/
def F.CLK_STATUS_TIME_GAP : Field := ⟨0x6C, 7, 7, .w1c, 0x0, .none⟩
/-- CLK_STATUS.RELOCKING (Table 04-8). -/
def F.CLK_STATUS_RELOCKING : Field := ⟨0x6C, 6, 6, .ro, 0x0, .none⟩
/-- CLK_STATUS.BOOT (Table 04-8). -/
def F.CLK_STATUS_BOOT : Field := ⟨0x6C, 5, 5, .ro, 0x1, .none⟩
/-- CLK_STATUS.REF_PRESENT (Table 04-8). -/
def F.CLK_STATUS_REF_PRESENT : Field := ⟨0x6C, 4, 4, .ro, 0x0, .none⟩
/-- CLK_STATUS.LOCKED (Table 04-8). -/
def F.CLK_STATUS_LOCKED : Field := ⟨0x6C, 3, 3, .ro, 0x0, .none⟩
/-- CLK_STATUS.LOST (Table 04-8). -/
def F.CLK_STATUS_LOST : Field := ⟨0x6C, 2, 2, .w1c, 0x0, .y⟩
/-- CLK_STATUS.CAUSE (Table 04-8). -/
def F.CLK_STATUS_CAUSE : Field := ⟨0x6C, 1, 0, .ro, 0x0, .y⟩
/-- CLK_CTRL.ATTN_EN (Table 04-9). -/
def F.CLK_CTRL_ATTN_EN : Field := ⟨0x6D, 0, 0, .rw, 0x1, .y⟩
/-- CLK_TRIG_LOST.COUNT (Table 04-10). -/
def F.CLK_TRIG_LOST_COUNT : Field := ⟨0x6E, 15, 0, .rc, 0x0, .none⟩
/-- CLK_TIME_HI.TIME (Table 04-11). -/
def F.CLK_TIME_HI_TIME : Field := ⟨0x6F, 15, 0, .ro, 0x0, .none⟩
/-- CLK_TIME_MID.TIME (Table 04-11). -/
def F.CLK_TIME_MID_TIME : Field := ⟨0x70, 15, 0, .ro, 0x0, .none⟩
/-- CLK_TIME_LO.TIME (Table 04-11). -/
def F.CLK_TIME_LO_TIME : Field := ⟨0x71, 15, 0, .ro, 0x0, .none⟩
/-- CP_MODE.LEGACY_EN (Table 05-12). -/
def F.CP_MODE_LEGACY_EN : Field := ⟨0x72, 1, 1, .rw, 0x1, .sy⟩
/-- CP_MODE.SPI (Table 05-12). -/
def F.CP_MODE_SPI : Field := ⟨0x72, 0, 0, .rw, 0x0, .sy⟩
/-- CP_CTRL.ERR_ATTN (Table 05-13). -/
def F.CP_CTRL_ERR_ATTN : Field := ⟨0x73, 1, 1, .rw, 0x0, .y⟩
/-- CP_CTRL.RDY_ATTN (Table 05-13). -/
def F.CP_CTRL_RDY_ATTN : Field := ⟨0x73, 0, 0, .rw, 0x0, .y⟩
/-- CP_STATUS.LAST_SEQ (Table 05-14). -/
def F.CP_STATUS_LAST_SEQ : Field := ⟨0x74, 11, 8, .ro, 0x0, .none⟩
/-- CP_STATUS.SF_REFUSED (Table 05-14). -/
def F.CP_STATUS_SF_REFUSED : Field := ⟨0x74, 3, 3, .w1c, 0x0, .none⟩
/-- CP_STATUS.ERR (Table 05-14). -/
def F.CP_STATUS_ERR : Field := ⟨0x74, 2, 2, .w1c, 0x0, .none⟩
/-- CP_STATUS.RESP_PREP (Table 05-14). -/
def F.CP_STATUS_RESP_PREP : Field := ⟨0x74, 1, 1, .ro, 0x0, .none⟩
/-- CP_STATUS.RESP_PEND (Table 05-14). -/
def F.CP_STATUS_RESP_PEND : Field := ⟨0x74, 0, 0, .ro, 0x0, .none⟩
/-- CP_ERR.CRC_ERRS (Table 05-15). -/
def F.CP_ERR_CRC_ERRS : Field := ⟨0x75, 15, 8, .rc, 0x0, .none⟩
/-- CP_ERR.FRAME_ERRS (Table 05-15). -/
def F.CP_ERR_FRAME_ERRS : Field := ⟨0x75, 7, 0, .rc, 0x0, .none⟩
/-- CP_REFUSED.COUNT (Table 05-16). -/
def F.CP_REFUSED_COUNT : Field := ⟨0x76, 15, 0, .rc, 0x0, .none⟩
/-- BND_STATUS.STAGED (Table 06-10). -/
def F.BND_STATUS_STAGED : Field := ⟨0x77, 15, 8, .ro, 0x0, .none⟩
/-- BND_STATUS.SYNC (Table 06-10). -/
def F.BND_STATUS_SYNC : Field := ⟨0x77, 7, 7, .ro, 0x0, .none⟩
/-- BND_STATUS.TIMEOUT_LATCH (Table 06-10). -/
def F.BND_STATUS_TIMEOUT_LATCH : Field := ⟨0x77, 6, 6, .w1c, 0x0, .none⟩
/-- BND_STATUS.APPLIED (Table 06-10). -/
def F.BND_STATUS_APPLIED : Field := ⟨0x77, 5, 5, .w1c, 0x0, .none⟩
/-- BND_STATUS.BANK_ADCSEQ (Table 06-10). -/
def F.BND_STATUS_BANK_ADCSEQ : Field := ⟨0x77, 4, 4, .ro, 0x0, .psfy⟩
/-- BND_STATUS.BANK_LUT (Table 06-10). -/
def F.BND_STATUS_BANK_LUT : Field := ⟨0x77, 3, 3, .ro, 0x0, .psfy⟩
/-- BND_STATUS.BANK_WAVE (Table 06-10). -/
def F.BND_STATUS_BANK_WAVE : Field := ⟨0x77, 2, 2, .ro, 0x0, .psfy⟩
/-- BND_STATUS.STATE (Table 06-10). -/
def F.BND_STATUS_STATE : Field := ⟨0x77, 1, 0, .ro, 0x0, .none⟩
/-- BND_GEN.GEN (Table 06-11). -/
def F.BND_GEN_GEN : Field := ⟨0x78, 7, 0, .ro, 0x0, .none⟩
/-- BND_TXN_TMO.TMO (Table 06-12). -/
def F.BND_TXN_TMO_TMO : Field := ⟨0x79, 15, 0, .rw, 0x64, .y⟩
/-- BND_CTRL.APPLY_ATTN (Table 06-13). -/
def F.BND_CTRL_APPLY_ATTN : Field := ⟨0x7A, 1, 1, .rw, 0x0, .y⟩
/-- BND_CTRL.TMO_ATTN (Table 06-13). -/
def F.BND_CTRL_TMO_ATTN : Field := ⟨0x7A, 0, 0, .rw, 0x1, .y⟩
/-- BND_TARGET_HI.TARGET (Table 06-14). -/
def F.BND_TARGET_HI_TARGET : Field := ⟨0x7B, 15, 0, .ro, 0x0, .none⟩
/-- BND_TARGET_MID.TARGET (Table 06-14). -/
def F.BND_TARGET_MID_TARGET : Field := ⟨0x7C, 15, 0, .ro, 0x0, .none⟩
/-- BND_TARGET_LO.TARGET (Table 06-14). -/
def F.BND_TARGET_LO_TARGET : Field := ⟨0x7D, 15, 0, .ro, 0x0, .none⟩
/-- BND_WDOG.EN (Table 06-15). -/
def F.BND_WDOG_EN : Field := ⟨0x7E, 15, 15, .rw, 0x0, .y⟩
/-- BND_WDOG.PERIOD (Table 06-15). -/
def F.BND_WDOG_PERIOD : Field := ⟨0x7E, 9, 0, .rw, 0x64, .y⟩
/-- BND_WDOG_KICK.KEY (Table 06-15). -/
def F.BND_WDOG_KICK_KEY : Field := ⟨0x7F, 15, 0, .wo, 0x0, .none⟩
/-- QR_SEL.QUIRE (Table 07-9). -/
def F.QR_SEL_QUIRE : Field := ⟨0x80, 3, 0, .rw, 0x0, .y⟩
/-- QR_ENABLE.EN (Table 07-10). -/
def F.QR_ENABLE_EN : Field := ⟨0x81, 11, 0, .rw, 0x0, .y⟩
/-- QR_COL_START.START (Table 07-11). -/
def F.QR_COL_START_START : Field := ⟨0x82, 8, 0, .rw, 0x0, .y⟩
/-- QR_COL_COUNT.COUNT (Table 07-11). -/
def F.QR_COL_COUNT_COUNT : Field := ⟨0x83, 9, 0, .rw, 0x200, .y⟩
/-- QR_ROW_START.START (Table 07-12). -/
def F.QR_ROW_START_START : Field := ⟨0x84, 10, 0, .rw, 0x0, .y⟩
/-- QR_ROW_COUNT.COUNT (Table 07-12). -/
def F.QR_ROW_COUNT_COUNT : Field := ⟨0x85, 11, 0, .rw, 0x800, .y⟩
/-- QR_MODE.TEST_ROWS (Table 07-13). -/
def F.QR_MODE_TEST_ROWS : Field := ⟨0x86, 11, 11, .rw, 0x0, .y⟩
/-- QR_MODE.BLK_COL_OUT (Table 07-13). -/
def F.QR_MODE_BLK_COL_OUT : Field := ⟨0x86, 10, 10, .rw, 0x0, .y⟩
/-- QR_MODE.BLK_ROW_OUT (Table 07-13). -/
def F.QR_MODE_BLK_ROW_OUT : Field := ⟨0x86, 9, 9, .rw, 0x0, .y⟩
/-- QR_MODE.COL_FLIP (Table 07-13). -/
def F.QR_MODE_COL_FLIP : Field := ⟨0x86, 8, 8, .rw, 0x0, .y⟩
/-- QR_MODE.ROW_FLIP (Table 07-13). -/
def F.QR_MODE_ROW_FLIP : Field := ⟨0x86, 7, 7, .rw, 0x0, .y⟩
/-- QR_MODE.ROW_SUB (Table 07-13). -/
def F.QR_MODE_ROW_SUB : Field := ⟨0x86, 6, 5, .rw, 0x0, .y⟩
/-- QR_MODE.COL_SUB (Table 07-13). -/
def F.QR_MODE_COL_SUB : Field := ⟨0x86, 4, 4, .rw, 0x0, .y⟩
/-- QR_MODE.AVG (Table 07-13). -/
def F.QR_MODE_AVG : Field := ⟨0x86, 3, 3, .rw, 0x0, .y⟩
/-- QR_MODE.VBIN (Table 07-13). -/
def F.QR_MODE_VBIN : Field := ⟨0x86, 2, 2, .rw, 0x0, .y⟩
/-- QR_MODE.HBIN (Table 07-13). -/
def F.QR_MODE_HBIN : Field := ⟨0x86, 1, 0, .rw, 0x0, .y⟩
/-- QR_STATUS.CLAMPED (Table 07-14). -/
def F.QR_STATUS_CLAMPED : Field := ⟨0x87, 15, 15, .w1c, 0x0, .none⟩
/-- QR_STATUS.OUT_PIX (Table 07-14). -/
def F.QR_STATUS_OUT_PIX : Field := ⟨0x87, 9, 0, .ro, 0x0, .none⟩
/-- EXP_CTRL.NEEDS_REF (Table 08-6). -/
def F.EXP_CTRL_NEEDS_REF : Field := ⟨0x88, 7, 7, .w1c, 0x0, .none⟩
/-- EXP_CTRL.NO_SLATE (Table 08-6). -/
def F.EXP_CTRL_NO_SLATE : Field := ⟨0x88, 6, 6, .w1c, 0x0, .none⟩
/-- EXP_CTRL.MODE_CLAMP (Table 08-6). -/
def F.EXP_CTRL_MODE_CLAMP : Field := ⟨0x88, 5, 5, .w1c, 0x0, .none⟩
/-- EXP_CTRL.OVERRUN (Table 08-6). -/
def F.EXP_CTRL_OVERRUN : Field := ⟨0x88, 4, 4, .w1c, 0x0, .none⟩
/-- EXP_CTRL.PRIMING (Table 08-6). -/
def F.EXP_CTRL_PRIMING : Field := ⟨0x88, 3, 3, .ro, 0x0, .none⟩
/-- EXP_CTRL.BUSY (Table 08-6). -/
def F.EXP_CTRL_BUSY : Field := ⟨0x88, 2, 2, .ro, 0x0, .none⟩
/-- EXP_CTRL.RUN (Table 08-6). -/
def F.EXP_CTRL_RUN : Field := ⟨0x88, 0, 0, .rw, 0x0, .none⟩
/-- EXP_MODE.ABS (Table 08-7). -/
def F.EXP_MODE_ABS : Field := ⟨0x89, 14, 14, .rw, 0x0, .y⟩
/-- EXP_MODE.COMBINE (Table 08-7). -/
def F.EXP_MODE_COMBINE : Field := ⟨0x89, 13, 13, .rw, 0x0, .y⟩
/-- EXP_MODE.OVERRUN (Table 08-7). -/
def F.EXP_MODE_OVERRUN : Field := ⟨0x89, 12, 12, .rw, 0x0, .y⟩
/-- EXP_MODE.PUNIT (Table 08-7). -/
def F.EXP_MODE_PUNIT : Field := ⟨0x89, 11, 11, .rw, 0x0, .y⟩
/-- EXP_MODE.TDI_DIR (Table 08-7). -/
def F.EXP_MODE_TDI_DIR : Field := ⟨0x89, 10, 10, .rw, 0x0, .y⟩
/-- EXP_MODE.RATIO (Table 08-7). -/
def F.EXP_MODE_RATIO : Field := ⟨0x89, 9, 7, .rw, 0x0, .y⟩
/-- EXP_MODE.NEXP (Table 08-7). -/
def F.EXP_MODE_NEXP : Field := ⟨0x89, 6, 5, .rw, 0x0, .y⟩
/-- EXP_MODE.SCAN (Table 08-7). -/
def F.EXP_MODE_SCAN : Field := ⟨0x89, 4, 3, .rw, 0x0, .y⟩
/-- EXP_MODE.TRIG (Table 08-7). -/
def F.EXP_MODE_TRIG : Field := ⟨0x89, 1, 0, .rw, 0x0, .y⟩
/-- EXP_TIME_HI.TIME (Table 08-8). -/
def F.EXP_TIME_HI_TIME : Field := ⟨0x8A, 13, 0, .rw, 0x0, .y⟩
/-- EXP_TIME_LO.TIME (Table 08-8). -/
def F.EXP_TIME_LO_TIME : Field := ⟨0x8B, 15, 0, .rw, 0x9C4, .y⟩
/-- EXP_PERIOD.PERIOD (Table 08-9). -/
def F.EXP_PERIOD_PERIOD : Field := ⟨0x8C, 15, 0, .rw, 0x0, .y⟩
/-- EXP_SCHED.STAGES (Table 08-10). -/
def F.EXP_SCHED_STAGES : Field := ⟨0x8D, 15, 8, .rw, 0x0, .y⟩
/-- EXP_SCHED.EVENT (Table 08-10). -/
def F.EXP_SCHED_EVENT : Field := ⟨0x8D, 5, 0, .rw, 0x0, .y⟩
/-- EXP_TRIG_HELD.COUNT (Table 08-11). -/
def F.EXP_TRIG_HELD_COUNT : Field := ⟨0x8E, 15, 0, .rc, 0x0, .none⟩
/-- EXP_DROPPED.COUNT (Table 08-11). -/
def F.EXP_DROPPED_COUNT : Field := ⟨0x8F, 15, 0, .rc, 0x0, .none⟩
/-- CNV_MODE.LUT (Table 09-10). -/
def F.CNV_MODE_LUT : Field := ⟨0x90, 8, 5, .rw, 0x0, .y⟩
/-- CNV_MODE.COMPAND (Table 09-10). -/
def F.CNV_MODE_COMPAND : Field := ⟨0x90, 4, 4, .rw, 0x0, .y⟩
/-- CNV_MODE.GAIN (Table 09-10). -/
def F.CNV_MODE_GAIN : Field := ⟨0x90, 3, 2, .rw, 0x0, .y⟩
/-- CNV_MODE.BITS (Table 09-10). -/
def F.CNV_MODE_BITS : Field := ⟨0x90, 1, 0, .rw, 0x0, .y⟩
/-- CNV_CORR.ROWCORR (Table 09-11). -/
def F.CNV_CORR_ROWCORR : Field := ⟨0x91, 5, 5, .rw, 0x0, .y⟩
/-- CNV_CORR.BLK (Table 09-11). -/
def F.CNV_CORR_BLK : Field := ⟨0x91, 4, 4, .rw, 0x1, .y⟩
/-- CNV_CORR.DEFECT (Table 09-11). -/
def F.CNV_CORR_DEFECT : Field := ⟨0x91, 3, 3, .rw, 0x1, .y⟩
/-- CNV_CORR.FF (Table 09-11). -/
def F.CNV_CORR_FF : Field := ⟨0x91, 2, 2, .rw, 0x0, .y⟩
/-- CNV_CORR.GAIN (Table 09-11). -/
def F.CNV_CORR_GAIN : Field := ⟨0x91, 1, 1, .rw, 0x1, .y⟩
/-- CNV_CORR.OFS (Table 09-11). -/
def F.CNV_CORR_OFS : Field := ⟨0x91, 0, 0, .rw, 0x1, .y⟩
/-- CNV_BLK_CTRL.CLIP (Table 09-12). -/
def F.CNV_BLK_CTRL_CLIP : Field := ⟨0x92, 15, 12, .rw, 0x6, .y⟩
/-- CNV_BLK_CTRL.PED (Table 09-12). -/
def F.CNV_BLK_CTRL_PED : Field := ⟨0x92, 11, 0, .rw, 0x40, .y⟩
/-- CNV_HDR.BLEND (Table 09-13). -/
def F.CNV_HDR_BLEND : Field := ⟨0x93, 13, 10, .rw, 0x0, .y⟩
/-- CNV_HDR.RATIO (Table 09-13). -/
def F.CNV_HDR_RATIO : Field := ⟨0x93, 9, 0, .rw, 0x2F5, .y⟩
/-- CNV_PAIR.PERIOD (Table 09-14). -/
def F.CNV_PAIR_PERIOD : Field := ⟨0x94, 15, 0, .rw, 0x0, .y⟩
/-- CNV_FF.ROWS_M1 (Table 09-15). -/
def F.CNV_FF_ROWS_M1 : Field := ⟨0x95, 10, 0, .rw, 0x0, .y⟩
/-- CNV_STATUS.WAVE_ROM (Table 09-16). -/
def F.CNV_STATUS_WAVE_ROM : Field := ⟨0x96, 4, 4, .ro, 0x0, .none⟩
/-- CNV_STATUS.WAVE_BAD (Table 09-16). -/
def F.CNV_STATUS_WAVE_BAD : Field := ⟨0x96, 3, 3, .w1c, 0x0, .none⟩
/-- CNV_STATUS.BLK_STEP (Table 09-16). -/
def F.CNV_STATUS_BLK_STEP : Field := ⟨0x96, 2, 2, .w1c, 0x0, .none⟩
/-- CNV_STATUS.PAIR_CLAMP (Table 09-16). -/
def F.CNV_STATUS_PAIR_CLAMP : Field := ⟨0x96, 1, 1, .w1c, 0x0, .none⟩
/-- CNV_STATUS.BLK_VALID (Table 09-16). -/
def F.CNV_STATUS_BLK_VALID : Field := ⟨0x96, 0, 0, .ro, 0x0, .none⟩
/-- CNV_DEF_STATUS.DEF_LOAD (Table 09-17). -/
def F.CNV_DEF_STATUS_DEF_LOAD : Field := ⟨0x97, 15, 15, .wo, 0x0, .none⟩
/-- CNV_DEF_STATUS.DEF_BUSY (Table 09-17). -/
def F.CNV_DEF_STATUS_DEF_BUSY : Field := ⟨0x97, 14, 14, .ro, 0x0, .none⟩
/-- CNV_DEF_STATUS.DEFECT_DUP (Table 09-17). -/
def F.CNV_DEF_STATUS_DEFECT_DUP : Field := ⟨0x97, 13, 7, .ro, 0x0, .none⟩
/-- CNV_DEF_STATUS.IGNORED (Table 09-17). -/
def F.CNV_DEF_STATUS_IGNORED : Field := ⟨0x97, 6, 0, .ro, 0x0, .none⟩
/-- LN_MODE.LEGACY_HDR (Table 10-13). -/
def F.LN_MODE_LEGACY_HDR : Field := ⟨0x98, 1, 1, .rw, 0x0, .y⟩
/-- LN_MODE.PACK (Table 10-13). -/
def F.LN_MODE_PACK : Field := ⟨0x98, 0, 0, .rw, 0x0, .y⟩
/-- LN_RATE.RATE (Table 10-14). -/
def F.LN_RATE_RATE : Field := ⟨0x99, 1, 0, .rw, 0x0, .y⟩
/-- LN_ANNEX.PAIRS (Table 10-15). -/
def F.LN_ANNEX_PAIRS : Field := ⟨0x9A, 15, 8, .rw, 0x0, .y⟩
/-- LN_ANNEX.EV_EN (Table 10-15). -/
def F.LN_ANNEX_EV_EN : Field := ⟨0x9A, 7, 7, .rw, 0x0, .y⟩
/-- LN_ANNEX.AUX_EN (Table 10-15). -/
def F.LN_ANNEX_AUX_EN : Field := ⟨0x9A, 6, 6, .rw, 0x0, .y⟩
/-- LN_ANNEX.STATUS_ALL (Table 10-15). -/
def F.LN_ANNEX_STATUS_ALL : Field := ⟨0x9A, 5, 5, .rw, 0x0, .y⟩
/-- LN_ANNEX.STATUS_EN (Table 10-15). -/
def F.LN_ANNEX_STATUS_EN : Field := ⟨0x9A, 4, 4, .rw, 0x1, .y⟩
/-- LN_ANNEX.LANE (Table 10-15). -/
def F.LN_ANNEX_LANE : Field := ⟨0x9A, 3, 0, .rw, 0x0, .y⟩
/-- LN_ANNEX_EVERY.LINES (Table 10-16). -/
def F.LN_ANNEX_EVERY_LINES : Field := ⟨0x9B, 15, 0, .rw, 0x400, .y⟩
/-- LN_BUF.PAGES (Table 10-17). -/
def F.LN_BUF_PAGES : Field := ⟨0x9C, 10, 0, .rw, 0x0, .y⟩
/-- LN_STATUS.SPILLING (Table 10-18). -/
def F.LN_STATUS_SPILLING : Field := ⟨0x9D, 4, 4, .ro, 0x0, .none⟩
/-- LN_STATUS.RATE_HELD (Table 10-18). -/
def F.LN_STATUS_RATE_HELD : Field := ⟨0x9D, 3, 3, .w1c, 0x0, .none⟩
/-- LN_STATUS.ANNEX_SKIP (Table 10-18). -/
def F.LN_STATUS_ANNEX_SKIP : Field := ⟨0x9D, 2, 2, .w1c, 0x0, .none⟩
/-- LN_STATUS.SPILLED (Table 10-18). -/
def F.LN_STATUS_SPILLED : Field := ⟨0x9D, 1, 1, .w1c, 0x0, .none⟩
/-- LN_STATUS.OVF (Table 10-18). -/
def F.LN_STATUS_OVF : Field := ⟨0x9D, 0, 0, .w1c, 0x0, .none⟩
/-- LN_DROPPED.COUNT (Table 10-19). -/
def F.LN_DROPPED_COUNT : Field := ⟨0x9E, 15, 0, .rc, 0x0, .none⟩
/-- SPN_SEL.KPART (Table 11-12). -/
def F.SPN_SEL_KPART : Field := ⟨0xA0, 15, 12, .rw, 0x0, .y⟩
/-- SPN_SEL.CAP (Table 11-12). -/
def F.SPN_SEL_CAP : Field := ⟨0xA0, 9, 8, .rw, 0x0, .y⟩
/-- SPN_SEL.CNT (Table 11-12). -/
def F.SPN_SEL_CNT : Field := ⟨0xA0, 6, 4, .rw, 0x0, .y⟩
/-- SPN_SEL.CMP (Table 11-12). -/
def F.SPN_SEL_CMP : Field := ⟨0xA0, 3, 0, .rw, 0x0, .y⟩
/-- SPN_GO.HALT (Table 11-13). -/
def F.SPN_GO_HALT : Field := ⟨0xA1, 15, 8, .wo, 0x0, .none⟩
/-- SPN_GO.GO (Table 11-13). -/
def F.SPN_GO_GO : Field := ⟨0xA1, 7, 0, .wo, 0x0, .none⟩
/-- SPN_C_CFG.PLOCK (Table 11-14). -/
def F.SPN_C_CFG_PLOCK : Field := ⟨0xA2, 15, 15, .rw, 0x0, .y⟩
/-- SPN_C_CFG.ONESHOT (Table 11-14). -/
def F.SPN_C_CFG_ONESHOT : Field := ⟨0xA2, 14, 14, .rw, 0x0, .y⟩
/-- SPN_C_CFG.EDGE (Table 11-14). -/
def F.SPN_C_CFG_EDGE : Field := ⟨0xA2, 13, 12, .rw, 0x0, .y⟩
/-- SPN_C_CFG.SEL (Table 11-14). -/
def F.SPN_C_CFG_SEL : Field := ⟨0xA2, 9, 4, .rw, 0x0, .y⟩
/-- SPN_C_CFG.SRC (Table 11-14). -/
def F.SPN_C_CFG_SRC : Field := ⟨0xA2, 3, 0, .rw, 0x0, .y⟩
/-- SPN_C_STAT.ARM (Table 11-15). -/
def F.SPN_C_STAT_ARM : Field := ⟨0xA3, 2, 2, .wo, 0x0, .none⟩
/-- SPN_C_STAT.SPENT (Table 11-15). -/
def F.SPN_C_STAT_SPENT : Field := ⟨0xA3, 1, 1, .ro, 0x0, .none⟩
/-- SPN_C_STAT.RUN (Table 11-15). -/
def F.SPN_C_STAT_RUN : Field := ⟨0xA3, 0, 0, .ro, 0x0, .none⟩
/-- SPN_C_HI.VALUE (Table 11-16). -/
def F.SPN_C_HI_VALUE : Field := ⟨0xA4, 15, 0, .rw, 0x0, .none⟩
/-- SPN_C_MID.VALUE (Table 11-16). -/
def F.SPN_C_MID_VALUE : Field := ⟨0xA5, 15, 0, .rw, 0x0, .none⟩
/-- SPN_C_LO.VALUE (Table 11-16). -/
def F.SPN_C_LO_VALUE : Field := ⟨0xA6, 15, 0, .rw, 0x0, .none⟩
/-- SPN_C_DIV_HI.INT (Table 11-16). -/
def F.SPN_C_DIV_HI_INT : Field := ⟨0xA7, 15, 0, .rw, 0x1, .y⟩
/-- SPN_C_DIV_LO.FRAC (Table 11-16). -/
def F.SPN_C_DIV_LO_FRAC : Field := ⟨0xA8, 15, 0, .rw, 0x0, .y⟩
/-- SPN_M_CFG.EN (Table 11-17). -/
def F.SPN_M_CFG_EN : Field := ⟨0xA9, 15, 15, .rw, 0x0, .y⟩
/-- SPN_M_CFG.MODE (Table 11-17). -/
def F.SPN_M_CFG_MODE : Field := ⟨0xA9, 14, 14, .rw, 0x1, .y⟩
/-- SPN_M_CFG.AUTO (Table 11-17). -/
def F.SPN_M_CFG_AUTO : Field := ⟨0xA9, 13, 13, .rw, 0x0, .y⟩
/-- SPN_M_CFG.STOP (Table 11-17). -/
def F.SPN_M_CFG_STOP : Field := ⟨0xA9, 12, 12, .rw, 0x0, .y⟩
/-- SPN_M_CFG.LINE (Table 11-17). -/
def F.SPN_M_CFG_LINE : Field := ⟨0xA9, 11, 8, .rw, 0x0, .y⟩
/-- SPN_M_CFG.CNT (Table 11-17). -/
def F.SPN_M_CFG_CNT : Field := ⟨0xA9, 2, 0, .rw, 0x0, .y⟩
/-- SPN_M_HI.CMP (Table 11-18). -/
def F.SPN_M_HI_CMP : Field := ⟨0xAA, 15, 0, .rw, 0x0, .none⟩
/-- SPN_M_MID.CMP (Table 11-18). -/
def F.SPN_M_MID_CMP : Field := ⟨0xAB, 15, 0, .rw, 0x0, .none⟩
/-- SPN_M_LO.CMP (Table 11-18). -/
def F.SPN_M_LO_CMP : Field := ⟨0xAC, 15, 0, .rw, 0x0, .none⟩
/-- SPN_M_INTERVAL.INTERVAL (Table 11-18). -/
def F.SPN_M_INTERVAL_INTERVAL : Field := ⟨0xAD, 15, 0, .rw, 0x1, .y⟩
/-- SPN_M_STAT.ADD_LOST (Table 11-18). -/
def F.SPN_M_STAT_ADD_LOST : Field := ⟨0xAE, 2, 2, .w1c, 0x0, .none⟩
/-- SPN_M_STAT.MATCH (Table 11-18). -/
def F.SPN_M_STAT_MATCH : Field := ⟨0xAE, 1, 1, .w1c, 0x0, .none⟩
/-- SPN_M_STAT.PENDING (Table 11-18). -/
def F.SPN_M_STAT_PENDING : Field := ⟨0xAE, 0, 0, .ro, 0x0, .none⟩
/-- POS_CFG.DECODE (Table 12-7). -/
def F.POS_CFG_DECODE : Field := ⟨0xB0, 15, 14, .rw, 0x2, .y⟩
/-- POS_CFG.DIR (Table 12-7). -/
def F.POS_CFG_DIR : Field := ⟨0xB0, 13, 13, .rw, 0x0, .y⟩
/-- POS_CFG.BW (Table 12-7). -/
def F.POS_CFG_BW : Field := ⟨0xB0, 12, 10, .rw, 0x2, .y⟩
/-- POS_CFG.ZMODE (Table 12-7). -/
def F.POS_CFG_ZMODE : Field := ⟨0xB0, 9, 8, .rw, 0x0, .y⟩
/-- POS_CFG.ZG_EN (Table 12-7). -/
def F.POS_CFG_ZG_EN : Field := ⟨0xB0, 7, 7, .rw, 0x1, .y⟩
/-- POS_CFG.ZGATE (Table 12-7). -/
def F.POS_CFG_ZGATE : Field := ⟨0xB0, 6, 5, .rw, 0x3, .y⟩
/-- POS_CFG.LOSS_UNREF (Table 12-7). -/
def F.POS_CFG_LOSS_UNREF : Field := ⟨0xB0, 4, 4, .rw, 0x0, .y⟩
/-- POS_CFG.FILT (Table 12-7). -/
def F.POS_CFG_FILT : Field := ⟨0xB0, 3, 0, .rw, 0x2, .y⟩
/-- POS_LOSS.FACTOR (Table 12-8). -/
def F.POS_LOSS_FACTOR : Field := ⟨0xB1, 15, 12, .rw, 0x8, .y⟩
/-- POS_LOSS.RET_EDGES (Table 12-8). -/
def F.POS_LOSS_RET_EDGES : Field := ⟨0xB1, 11, 8, .rw, 0x4, .y⟩
/-- POS_LOSS.RELOCK (Table 12-8). -/
def F.POS_LOSS_RELOCK : Field := ⟨0xB1, 7, 7, .rw, 0x0, .y⟩
/-- POS_LOSS.STILL (Table 12-8). -/
def F.POS_LOSS_STILL : Field := ⟨0xB1, 6, 4, .rw, 0x5, .y⟩
/-- POS_LOSS.LOST_ATTN (Table 12-8). -/
def F.POS_LOSS_LOST_ATTN : Field := ⟨0xB1, 2, 2, .rw, 0x1, .y⟩
/-- POS_LOSS.HOLD_ATTN (Table 12-8). -/
def F.POS_LOSS_HOLD_ATTN : Field := ⟨0xB1, 1, 1, .rw, 0x0, .y⟩
/-- POS_LOSS.ZMISS_ATTN (Table 12-8). -/
def F.POS_LOSS_ZMISS_ATTN : Field := ⟨0xB1, 0, 0, .rw, 0x0, .y⟩
/-- POS_HOLD_LINES.LINES (Table 12-9). -/
def F.POS_HOLD_LINES_LINES : Field := ⟨0xB2, 15, 0, .rw, 0x40, .y⟩
/-- POS_Z_SPAN.SPAN (Table 12-9). -/
def F.POS_Z_SPAN_SPAN : Field := ⟨0xB3, 15, 0, .rw, 0x0, .y⟩
/-- POS_STATUS.ZMISS (Table 12-10). -/
def F.POS_STATUS_ZMISS : Field := ⟨0xB4, 15, 15, .w1c, 0x0, .none⟩
/-- POS_STATUS.QERR (Table 12-10). -/
def F.POS_STATUS_QERR : Field := ⟨0xB4, 14, 14, .w1c, 0x0, .none⟩
/-- POS_STATUS.RELOCKED (Table 12-10). -/
def F.POS_STATUS_RELOCKED : Field := ⟨0xB4, 13, 13, .w1c, 0x0, .none⟩
/-- POS_STATUS.LOST_LATCH (Table 12-10). -/
def F.POS_STATUS_LOST_LATCH : Field := ⟨0xB4, 12, 12, .w1c, 0x0, .none⟩
/-- POS_STATUS.HOLD_LATCH (Table 12-10). -/
def F.POS_STATUS_HOLD_LATCH : Field := ⟨0xB4, 11, 11, .w1c, 0x0, .none⟩
/-- POS_STATUS.STILL (Table 12-10). -/
def F.POS_STATUS_STILL : Field := ⟨0xB4, 7, 7, .ro, 0x0, .none⟩
/-- POS_STATUS.BACK (Table 12-10). -/
def F.POS_STATUS_BACK : Field := ⟨0xB4, 6, 6, .ro, 0x0, .none⟩
/-- POS_STATUS.EST (Table 12-10). -/
def F.POS_STATUS_EST : Field := ⟨0xB4, 5, 5, .ro, 0x0, .none⟩
/-- POS_STATUS.REF (Table 12-10). -/
def F.POS_STATUS_REF : Field := ⟨0xB4, 4, 4, .ro, 0x0, .none⟩
/-- POS_STATUS.STATE (Table 12-10). -/
def F.POS_STATUS_STATE : Field := ⟨0xB4, 2, 0, .ro, 0x0, .none⟩
/-- POS_SKIPPED.COUNT (Table 12-11). -/
def F.POS_SKIPPED_COUNT : Field := ⟨0xB5, 15, 0, .rc, 0x0, .none⟩
/-- POS_PART.PART (Table 12-11). -/
def F.POS_PART_PART : Field := ⟨0xB6, 3, 0, .rw, 0x0, .y⟩
/-- AUX_SEL.PART (Table 13-8). -/
def F.AUX_SEL_PART : Field := ⟨0xB8, 15, 12, .rw, 0x0, .y⟩
/-- AUX_SEL.CONV (Table 13-8). -/
def F.AUX_SEL_CONV : Field := ⟨0xB8, 8, 8, .rw, 0x0, .y⟩
/-- AUX_SEL.INJ (Table 13-8). -/
def F.AUX_SEL_INJ : Field := ⟨0xB8, 4, 4, .rw, 0x0, .y⟩
/-- AUX_SEL.SLOT (Table 13-8). -/
def F.AUX_SEL_SLOT : Field := ⟨0xB8, 3, 0, .rw, 0x0, .y⟩
/-- AUX_CTRL.EN0 (Table 13-9). -/
def F.AUX_CTRL_EN0 : Field := ⟨0xB9, 15, 15, .rw, 0x1, .y⟩
/-- AUX_CTRL.EN1 (Table 13-9). -/
def F.AUX_CTRL_EN1 : Field := ⟨0xB9, 14, 14, .rw, 0x0, .y⟩
/-- AUX_CTRL.LP0 (Table 13-9). -/
def F.AUX_CTRL_LP0 : Field := ⟨0xB9, 13, 13, .rw, 0x0, .y⟩
/-- AUX_CTRL.LP1 (Table 13-9). -/
def F.AUX_CTRL_LP1 : Field := ⟨0xB9, 12, 12, .rw, 0x0, .y⟩
/-- AUX_CTRL.REG_EN (Table 13-9). -/
def F.AUX_CTRL_REG_EN : Field := ⟨0xB9, 11, 11, .rw, 0x0, .y⟩
/-- AUX_CTRL.REG_LEN_M1 (Table 13-9). -/
def F.AUX_CTRL_REG_LEN_M1 : Field := ⟨0xB9, 10, 7, .rw, 0x0, .y⟩
/-- AUX_CTRL.INJ_EN (Table 13-9). -/
def F.AUX_CTRL_INJ_EN : Field := ⟨0xB9, 6, 3, .rw, 0x0, .y⟩
/-- AUX_CTRL.OW_ATTN (Table 13-9). -/
def F.AUX_CTRL_OW_ATTN : Field := ⟨0xB9, 2, 2, .rw, 0x0, .y⟩
/-- AUX_CTRL.OVF_ATTN (Table 13-9). -/
def F.AUX_CTRL_OVF_ATTN : Field := ⟨0xB9, 1, 1, .rw, 0x0, .y⟩
/-- AUX_CTRL.QW_ATTN (Table 13-9). -/
def F.AUX_CTRL_QW_ATTN : Field := ⟨0xB9, 0, 0, .rw, 0x0, .y⟩
/-- AUX_ROUND.UNIT (Table 13-10). -/
def F.AUX_ROUND_UNIT : Field := ⟨0xBA, 15, 15, .rw, 0x1, .y⟩
/-- AUX_ROUND.PERIOD (Table 13-10). -/
def F.AUX_ROUND_PERIOD : Field := ⟨0xBA, 14, 0, .rw, 0xA, .y⟩
/-- AUX_OVF_POLICY.POLICY (Table 13-11). -/
def F.AUX_OVF_POLICY_POLICY : Field := ⟨0xBB, 15, 15, .rw, 0x0, .y⟩
/-- AUX_OVF_POLICY.WATER (Table 13-11). -/
def F.AUX_OVF_POLICY_WATER : Field := ⟨0xBB, 6, 0, .rw, 0x30, .y⟩
/-- AUX_OW_THRESH.IPULL (Table 13-12). -/
def F.AUX_OW_THRESH_IPULL : Field := ⟨0xBC, 15, 15, .rw, 0x0, .y⟩
/-- AUX_OW_THRESH.THRESH (Table 13-12). -/
def F.AUX_OW_THRESH_THRESH : Field := ⟨0xBC, 13, 0, .rw, 0x1000, .y⟩
/-- AUX_DAC.EN (Table 13-12). -/
def F.AUX_DAC_EN : Field := ⟨0xBD, 15, 15, .rw, 0x0, .y⟩
/-- AUX_DAC.CHAN (Table 13-12). -/
def F.AUX_DAC_CHAN : Field := ⟨0xBD, 13, 10, .rw, 0xE, .y⟩
/-- AUX_DAC.CODE (Table 13-12). -/
def F.AUX_DAC_CODE : Field := ⟨0xBD, 9, 0, .rw, 0x0, .y⟩
/-- AUX_FLASH.STOP (Table 13-13). -/
def F.AUX_FLASH_STOP : Field := ⟨0xBE, 13, 8, .rw, 0x1C, .y⟩
/-- AUX_FLASH.FSHIFT (Table 13-13). -/
def F.AUX_FLASH_FSHIFT : Field := ⟨0xBE, 7, 4, .rw, 0x0, .y⟩
/-- AUX_FLASH.FINT (Table 13-13). -/
def F.AUX_FLASH_FINT : Field := ⟨0xBE, 3, 3, .rw, 0x0, .y⟩
/-- AUX_FLASH_DARK.DARK (Table 13-13). -/
def F.AUX_FLASH_DARK_DARK : Field := ⟨0xBF, 15, 0, .rw, 0x0, .y⟩
/-- AUX_STATUS.ROUND_NOW (Table 13-14). -/
def F.AUX_STATUS_ROUND_NOW : Field := ⟨0xC0, 15, 15, .wo, 0x0, .none⟩
/-- AUX_STATUS.FL_LONG (Table 13-14). -/
def F.AUX_STATUS_FL_LONG : Field := ⟨0xC0, 7, 7, .w1c, 0x0, .none⟩
/-- AUX_STATUS.RFLUSH (Table 13-14). -/
def F.AUX_STATUS_RFLUSH : Field := ⟨0xC0, 6, 6, .w1c, 0x0, .none⟩
/-- AUX_STATUS.ROUND_LATE (Table 13-14). -/
def F.AUX_STATUS_ROUND_LATE : Field := ⟨0xC0, 5, 5, .w1c, 0x0, .none⟩
/-- AUX_STATUS.QOVF (Table 13-14). -/
def F.AUX_STATUS_QOVF : Field := ⟨0xC0, 4, 4, .w1c, 0x0, .none⟩
/-- AUX_STATUS.QWATER (Table 13-14). -/
def F.AUX_STATUS_QWATER : Field := ⟨0xC0, 3, 3, .ro, 0x0, .none⟩
/-- AUX_STATUS.ROUND_BUSY (Table 13-14). -/
def F.AUX_STATUS_ROUND_BUSY : Field := ⟨0xC0, 2, 2, .ro, 0x0, .none⟩
/-- AUX_STATUS.INJ_WAIT (Table 13-14). -/
def F.AUX_STATUS_INJ_WAIT : Field := ⟨0xC0, 1, 1, .ro, 0x0, .none⟩
/-- AUX_STATUS.INJ_BUSY (Table 13-14). -/
def F.AUX_STATUS_INJ_BUSY : Field := ⟨0xC0, 0, 0, .ro, 0x0, .none⟩
/-- AUX_OW_STAT.OPEN (Table 13-14). -/
def F.AUX_OW_STAT_OPEN : Field := ⟨0xC1, 15, 8, .ro, 0x0, .none⟩
/-- AUX_OW_STAT.OPEN_LATCH (Table 13-14). -/
def F.AUX_OW_STAT_OPEN_LATCH : Field := ⟨0xC1, 7, 0, .w1c, 0x0, .none⟩
/-- AUX_Q_HI.ENTRY (Table 13-15). -/
def F.AUX_Q_HI_ENTRY : Field := ⟨0xC2, 15, 0, .ro, 0xFFFF, .none⟩
/-- AUX_Q_LO.ENTRY (Table 13-15). -/
def F.AUX_Q_LO_ENTRY : Field := ⟨0xC3, 15, 0, .ro, 0xFFFF, .none⟩
/-- AUX_Q_LEVEL.LEVEL (Table 13-16). -/
def F.AUX_Q_LEVEL_LEVEL : Field := ⟨0xC4, 6, 0, .ro, 0x0, .none⟩
/-- AUX_OVF_COUNT.COUNT (Table 13-16). -/
def F.AUX_OVF_COUNT_COUNT : Field := ⟨0xC5, 15, 0, .rc, 0x0, .none⟩
/-- AUX_INJ_DROPPED.COUNT (Table 13-16). -/
def F.AUX_INJ_DROPPED_COUNT : Field := ⟨0xC6, 15, 0, .rc, 0x0, .none⟩
/-- TMP_SEL.BAND (Table 14-7). -/
def F.TMP_SEL_BAND : Field := ⟨0xC8, 2, 0, .rw, 0x0, .y⟩
/-- TMP_CFG.CHAN (Table 14-8). -/
def F.TMP_CFG_CHAN : Field := ⟨0xC9, 15, 12, .rw, 0x8, .y⟩
/-- TMP_CFG.HOST (Table 14-8). -/
def F.TMP_CFG_HOST : Field := ⟨0xC9, 11, 11, .rw, 0x0, .y⟩
/-- TMP_CFG.START (Table 14-8). -/
def F.TMP_CFG_START : Field := ⟨0xC9, 10, 8, .rw, 0x2, .y⟩
/-- TMP_CFG.HYST (Table 14-8). -/
def F.TMP_CFG_HYST : Field := ⟨0xC9, 7, 4, .rw, 0x2, .y⟩
/-- TMP_CFG.STALE (Table 14-8). -/
def F.TMP_CFG_STALE : Field := ⟨0xC9, 3, 2, .rw, 0x2, .y⟩
/-- TMP_CFG.LIM_STOP (Table 14-8). -/
def F.TMP_CFG_LIM_STOP : Field := ⟨0xC9, 1, 1, .rw, 0x0, .y⟩
/-- TMP_CFG.ATTN_EN (Table 14-8). -/
def F.TMP_CFG_ATTN_EN : Field := ⟨0xC9, 0, 0, .rw, 0x1, .y⟩
/-- TMP_GAIN.GAIN (Table 14-9). -/
def F.TMP_GAIN_GAIN : Field := ⟨0xCA, 15, 0, .rw, 0x210, .y⟩
/-- TMP_OFS.OFS (Table 14-9). -/
def F.TMP_OFS_OFS : Field := ⟨0xCB, 15, 0, .rw, 0x0, .y⟩
/-- TMP_BAND.THR (Table 14-10). -/
def F.TMP_BAND_THR : Field := ⟨0xCC, 15, 8, .rw, 0x0, .y⟩
/-- TMP_BAND.WAVE (Table 14-10). -/
def F.TMP_BAND_WAVE : Field := ⟨0xCC, 6, 4, .rw, 0x0, .y⟩
/-- TMP_BAND.LMARGIN (Table 14-10). -/
def F.TMP_BAND_LMARGIN : Field := ⟨0xCC, 3, 2, .rw, 0x0, .y⟩
/-- TMP_STATUS.OVER (Table 14-11). -/
def F.TMP_STATUS_OVER : Field := ⟨0xCD, 15, 15, .w1c, 0x0, .none⟩
/-- TMP_STATUS.UNDER (Table 14-11). -/
def F.TMP_STATUS_UNDER : Field := ⟨0xCD, 14, 14, .w1c, 0x0, .none⟩
/-- TMP_STATUS.SENSOR (Table 14-11). -/
def F.TMP_STATUS_SENSOR : Field := ⟨0xCD, 13, 13, .w1c, 0x0, .none⟩
/-- TMP_STATUS.STALE_LATCH (Table 14-11). -/
def F.TMP_STATUS_STALE_LATCH : Field := ⟨0xCD, 12, 12, .w1c, 0x0, .none⟩
/-- TMP_STATUS.CHANGE (Table 14-11). -/
def F.TMP_STATUS_CHANGE : Field := ⟨0xCD, 11, 11, .w1c, 0x0, .none⟩
/-- TMP_STATUS.THR_CLAMP (Table 14-11). -/
def F.TMP_STATUS_THR_CLAMP : Field := ⟨0xCD, 10, 10, .w1c, 0x0, .none⟩
/-- TMP_STATUS.LIMIT (Table 14-11). -/
def F.TMP_STATUS_LIMIT : Field := ⟨0xCD, 6, 6, .ro, 0x0, .none⟩
/-- TMP_STATUS.STALE (Table 14-11). -/
def F.TMP_STATUS_STALE : Field := ⟨0xCD, 5, 5, .ro, 0x0, .none⟩
/-- TMP_STATUS.VALID (Table 14-11). -/
def F.TMP_STATUS_VALID : Field := ⟨0xCD, 4, 4, .ro, 0x0, .none⟩
/-- TMP_STATUS.BAND (Table 14-11). -/
def F.TMP_STATUS_BAND : Field := ⟨0xCD, 2, 0, .ro, 0x2, .none⟩
/-- TMP_BLK.FILT (Table 09-18). -/
def F.TMP_BLK_FILT : Field := ⟨0xCE, 15, 13, .rw, 0x3, .y⟩
/-- TMP_BLK.LG_OFS (Table 09-18). -/
def F.TMP_BLK_LG_OFS : Field := ⟨0xCE, 11, 6, .rw, 0x0, .y⟩
/-- TMP_BLK.HG_OFS (Table 09-18). -/
def F.TMP_BLK_HG_OFS : Field := ⟨0xCE, 5, 0, .rw, 0x0, .y⟩
/-- TMP_TEMP.T16 (Table 14-12). -/
def F.TMP_TEMP_T16 : Field := ⟨0xCF, 15, 0, .rw, 0x8000, .none⟩
/-- AGT_SEL.ENGINE (Table 15-10). -/
def F.AGT_SEL_ENGINE : Field := ⟨0xD0, 2, 0, .rw, 0x0, .y⟩
/-- AGT_CFG.TRACE (Table 15-11). -/
def F.AGT_CFG_TRACE : Field := ⟨0xD1, 13, 13, .rw, 0x0, .y⟩
/-- AGT_CFG.HALT_Z (Table 15-11). -/
def F.AGT_CFG_HALT_Z : Field := ⟨0xD1, 12, 12, .rw, 0x0, .y⟩
/-- AGT_CFG.SRPIN (Table 15-11). -/
def F.AGT_CFG_SRPIN : Field := ⟨0xD1, 10, 8, .rw, 0x0, .y⟩
/-- AGT_DIV.DIV_M1 (Table 15-12). -/
def F.AGT_DIV_DIV_M1 : Field := ⟨0xD2, 11, 0, .rw, 0x0, .y⟩
/-- AGT_WRAP_TOP.TOP (Table 15-12). -/
def F.AGT_WRAP_TOP_TOP : Field := ⟨0xD3, 4, 0, .rw, 0x0, .y⟩
/-- AGT_WRAP_BOT.BOT (Table 15-12). -/
def F.AGT_WRAP_BOT_BOT : Field := ⟨0xD4, 4, 0, .rw, 0x1F, .y⟩
/-- AGT_CORE.FLAGS (Table 15-13). -/
def F.AGT_CORE_FLAGS : Field := ⟨0xD5, 15, 8, .rw, 0x0, .none⟩
/-- AGT_CORE.HALT_WHY (Table 15-13). -/
def F.AGT_CORE_HALT_WHY : Field := ⟨0xD5, 7, 5, .ro, 0x0, .none⟩
/-- AGT_CORE.PC (Table 15-13). -/
def F.AGT_CORE_PC : Field := ⟨0xD5, 4, 0, .rw, 0x0, .none⟩
/-- AGT_STATUS.FIFO_UNDER (Table 15-14). -/
def F.AGT_STATUS_FIFO_UNDER : Field := ⟨0xD6, 15, 15, .w1c, 0x0, .none⟩
/-- AGT_STATUS.FIFO_OVER (Table 15-14). -/
def F.AGT_STATUS_FIFO_OVER : Field := ⟨0xD6, 14, 14, .w1c, 0x0, .none⟩
/-- AGT_STATUS.PIN_CONFLICT (Table 15-14). -/
def F.AGT_STATUS_PIN_CONFLICT : Field := ⟨0xD6, 13, 13, .w1c, 0x0, .none⟩
/-- AGT_STATUS.LOCK_BROKEN (Table 15-14). -/
def F.AGT_STATUS_LOCK_BROKEN : Field := ⟨0xD6, 12, 12, .w1c, 0x0, .none⟩
/-- AGT_STATUS.WAIT_TMO (Table 15-14). -/
def F.AGT_STATUS_WAIT_TMO : Field := ⟨0xD6, 11, 11, .w1c, 0x0, .none⟩
/-- AGT_STATUS.RUN (Table 15-14). -/
def F.AGT_STATUS_RUN : Field := ⟨0xD6, 10, 9, .ro, 0x0, .none⟩
/-- AGT_STATUS.WAITING (Table 15-14). -/
def F.AGT_STATUS_WAITING : Field := ⟨0xD6, 8, 8, .ro, 0x0, .none⟩
/-- AGT_STATUS.INJ_PEND (Table 15-14). -/
def F.AGT_STATUS_INJ_PEND : Field := ⟨0xD6, 7, 7, .ro, 0x0, .none⟩
/-- AGT_STATUS.IPTR (Table 15-14). -/
def F.AGT_STATUS_IPTR : Field := ⟨0xD6, 6, 5, .ro, 0x0, .none⟩
/-- AGT_STATUS.LEVEL (Table 15-14). -/
def F.AGT_STATUS_LEVEL : Field := ⟨0xD6, 4, 0, .ro, 0x0, .none⟩
/-- AGT_SR.SR (Table 15-15). -/
def F.AGT_SR_SR : Field := ⟨0xD7, 15, 0, .rw, 0x0, .none⟩
/-- AGT_FIFO.DATA (Table 15-15). -/
def F.AGT_FIFO_DATA : Field := ⟨0xD8, 15, 0, .rw, 0x0, .none⟩
/-- AGT_INJECT.PART (Table 15-15). -/
def F.AGT_INJECT_PART : Field := ⟨0xD9, 15, 0, .wo, 0x0, .none⟩
/-- AGT_GO.STEP (Table 15-16). -/
def F.AGT_GO_STEP : Field := ⟨0xDA, 11, 8, .wo, 0x0, .none⟩
/-- AGT_GO.HALT (Table 15-16). -/
def F.AGT_GO_HALT : Field := ⟨0xDA, 7, 4, .wo, 0x0, .none⟩
/-- AGT_GO.START (Table 15-16). -/
def F.AGT_GO_START : Field := ⟨0xDA, 3, 0, .wo, 0x0, .none⟩
/-- AGT_FORCE_HALT.FORCE (Table 15-17). -/
def F.AGT_FORCE_HALT_FORCE : Field := ⟨0xDB, 3, 0, .wo, 0x0, .none⟩
/-- AGT_PINPERM_A.AG3 (Table 15-18). -/
def F.AGT_PINPERM_A_AG3 : Field := ⟨0xDC, 15, 12, .rw, 0x0, .y⟩
/-- AGT_PINPERM_A.AG2 (Table 15-18). -/
def F.AGT_PINPERM_A_AG2 : Field := ⟨0xDC, 11, 8, .rw, 0x0, .y⟩
/-- AGT_PINPERM_A.AG1 (Table 15-18). -/
def F.AGT_PINPERM_A_AG1 : Field := ⟨0xDC, 7, 4, .rw, 0x0, .y⟩
/-- AGT_PINPERM_A.AG0 (Table 15-18). -/
def F.AGT_PINPERM_A_AG0 : Field := ⟨0xDC, 3, 0, .rw, 0x0, .y⟩
/-- AGT_PINPERM_B.AG7 (Table 15-18). -/
def F.AGT_PINPERM_B_AG7 : Field := ⟨0xDD, 15, 12, .rw, 0x0, .y⟩
/-- AGT_PINPERM_B.AG6 (Table 15-18). -/
def F.AGT_PINPERM_B_AG6 : Field := ⟨0xDD, 11, 8, .rw, 0x0, .y⟩
/-- AGT_PINPERM_B.AG5 (Table 15-18). -/
def F.AGT_PINPERM_B_AG5 : Field := ⟨0xDD, 7, 4, .rw, 0x0, .y⟩
/-- AGT_PINPERM_B.AG4 (Table 15-18). -/
def F.AGT_PINPERM_B_AG4 : Field := ⟨0xDD, 3, 0, .rw, 0x0, .y⟩
/-- AGT_BIST_PINS.Z (Table 15-19). -/
def F.AGT_BIST_PINS_Z : Field := ⟨0xDE, 7, 0, .rw, 0xFF, .y⟩
/-- AGT_TRACE.WRAPPED (Table 15-20). -/
def F.AGT_TRACE_WRAPPED : Field := ⟨0xDF, 15, 15, .w1c, 0x0, .psfy⟩
/-- AGT_TRACE.FREEZE (Table 15-20). -/
def F.AGT_TRACE_FREEZE : Field := ⟨0xDF, 14, 14, .rw, 0x0, .y⟩
/-- AGT_TRACE.WR (Table 15-20). -/
def F.AGT_TRACE_WR : Field := ⟨0xDF, 8, 0, .ro, 0x0, .psfy⟩
/-- PB_TGT.EN (Table 16-8). -/
def F.PB_TGT_EN : Field := ⟨0xE0, 15, 15, .rw, 0x1, .y⟩
/-- PB_TGT.ADDR (Table 16-8). -/
def F.PB_TGT_ADDR : Field := ⟨0xE0, 6, 0, .rw, 0x2C, .sy⟩
/-- PB_CFG.SPEED (Table 16-9). -/
def F.PB_CFG_SPEED : Field := ⟨0xE1, 15, 14, .rw, 0x1, .y⟩
/-- PB_CFG.RETRY (Table 16-9). -/
def F.PB_CFG_RETRY : Field := ⟨0xE1, 13, 10, .rw, 0x3, .y⟩
/-- PB_CFG.BACKOFF (Table 16-9). -/
def F.PB_CFG_BACKOFF : Field := ⟨0xE1, 9, 2, .rw, 0x8, .y⟩
/-- PB_CFG.ATTN_EN (Table 16-9). -/
def F.PB_CFG_ATTN_EN : Field := ⟨0xE1, 1, 1, .rw, 0x0, .y⟩
/-- PB_EE.ADDR (Table 16-10). -/
def F.PB_EE_ADDR : Field := ⟨0xE2, 15, 9, .rw, 0x50, .y⟩
/-- PB_EE.AW (Table 16-10). -/
def F.PB_EE_AW : Field := ⟨0xE2, 8, 8, .rw, 0x1, .y⟩
/-- PB_EE.PAGE (Table 16-10). -/
def F.PB_EE_PAGE : Field := ⟨0xE2, 7, 6, .rw, 0x2, .y⟩
/-- PB_EE.BLK (Table 16-10). -/
def F.PB_EE_BLK : Field := ⟨0xE2, 5, 4, .rw, 0x0, .y⟩
/-- PB_EE.RECOFS (Table 16-10). -/
def F.PB_EE_RECOFS : Field := ⟨0xE2, 3, 0, .rw, 0x0, .y⟩
/-- PB_XADDR.PTR (Table 16-11). -/
def F.PB_XADDR_PTR : Field := ⟨0xE3, 12, 8, .rw, 0x0, .none⟩
/-- PB_XADDR.TADDR (Table 16-11). -/
def F.PB_XADDR_TADDR : Field := ⟨0xE3, 6, 0, .rw, 0x0, .none⟩
/-- PB_DATA.DATA (Table 16-11). -/
def F.PB_DATA_DATA : Field := ⟨0xE4, 15, 0, .rw, 0x0, .none⟩
/-- PB_XFER.OP (Table 16-12). -/
def F.PB_XFER_OP : Field := ⟨0xE5, 15, 14, .wo, 0x0, .none⟩
/-- PB_XFER.WLEN (Table 16-12). -/
def F.PB_XFER_WLEN : Field := ⟨0xE5, 13, 8, .rw, 0x0, .none⟩
/-- PB_XFER.RLEN (Table 16-12). -/
def F.PB_XFER_RLEN : Field := ⟨0xE5, 5, 0, .rw, 0x0, .none⟩
/-- PB_STATUS.BUSY (Table 16-13). -/
def F.PB_STATUS_BUSY : Field := ⟨0xE6, 15, 15, .ro, 0x0, .none⟩
/-- PB_STATUS.DONE (Table 16-13). -/
def F.PB_STATUS_DONE : Field := ⟨0xE6, 14, 14, .w1c, 0x0, .none⟩
/-- PB_STATUS.REFUSED (Table 16-13). -/
def F.PB_STATUS_REFUSED : Field := ⟨0xE6, 13, 13, .w1c, 0x0, .none⟩
/-- PB_STATUS.OWN (Table 16-13). -/
def F.PB_STATUS_OWN : Field := ⟨0xE6, 12, 12, .ro, 0x0, .none⟩
/-- PB_STATUS.INHIBIT (Table 16-13). -/
def F.PB_STATUS_INHIBIT : Field := ⟨0xE6, 11, 11, .ro, 0x0, .none⟩
/-- PB_STATUS.STUCK (Table 16-13). -/
def F.PB_STATUS_STUCK : Field := ⟨0xE6, 10, 10, .w1c, 0x0, .none⟩
/-- PB_STATUS.TGT_STATUS (Table 16-13). -/
def F.PB_STATUS_TGT_STATUS : Field := ⟨0xE6, 9, 5, .ro, 0x0, .none⟩
/-- PB_STATUS.TGT_REF (Table 16-13). -/
def F.PB_STATUS_TGT_REF : Field := ⟨0xE6, 4, 4, .w1c, 0x0, .none⟩
/-- PB_STATUS.ERR (Table 16-13). -/
def F.PB_STATUS_ERR : Field := ⟨0xE6, 3, 0, .ro, 0x0, .none⟩
/-- PB_ERR.ARB_LOSSES (Table 16-13). -/
def F.PB_ERR_ARB_LOSSES : Field := ⟨0xE7, 15, 8, .rc, 0x0, .none⟩
/-- PB_ERR.NACKS (Table 16-13). -/
def F.PB_ERR_NACKS : Field := ⟨0xE7, 7, 0, .rc, 0x0, .none⟩
/-- MEM_SEL.BAND (Table 17-10). -/
def F.MEM_SEL_BAND : Field := ⟨0xE8, 15, 13, .rw, 0x0, .y⟩
/-- MEM_SEL.STORE (Table 17-10). -/
def F.MEM_SEL_STORE : Field := ⟨0xE8, 11, 8, .rw, 0x0, .y⟩
/-- MEM_SEL.RGRP (Table 17-10). -/
def F.MEM_SEL_RGRP : Field := ⟨0xE8, 6, 0, .rw, 0x0, .y⟩
/-- MEM_SCRUB_RATE.PASS (Table 17-11). -/
def F.MEM_SCRUB_RATE_PASS : Field := ⟨0xE9, 15, 0, .rw, 0x0, .y⟩
/-- MEM_CTRL.SCRUB_EN (Table 17-12). -/
def F.MEM_CTRL_SCRUB_EN : Field := ⟨0xEA, 15, 15, .rw, 0x1, .y⟩
/-- MEM_CTRL.ERASE_EN (Table 17-12). -/
def F.MEM_CTRL_ERASE_EN : Field := ⟨0xEA, 14, 14, .rw, 0x1, .y⟩
/-- MEM_CTRL.REPEAT_ATTN (Table 17-12). -/
def F.MEM_CTRL_REPEAT_ATTN : Field := ⟨0xEA, 4, 4, .rw, 0x1, .y⟩
/-- MEM_CTRL.MACRO_ATTN (Table 17-12). -/
def F.MEM_CTRL_MACRO_ATTN : Field := ⟨0xEA, 3, 3, .rw, 0x1, .y⟩
/-- MEM_CTRL.LATE_ATTN (Table 17-12). -/
def F.MEM_CTRL_LATE_ATTN : Field := ⟨0xEA, 2, 2, .rw, 0x0, .y⟩
/-- MEM_CTRL.CORR_ATTN (Table 17-12). -/
def F.MEM_CTRL_CORR_ATTN : Field := ⟨0xEA, 1, 1, .rw, 0x0, .y⟩
/-- MEM_STATUS.MACRO (Table 17-13). -/
def F.MEM_STATUS_MACRO : Field := ⟨0xEB, 15, 15, .w1c, 0x0, .none⟩
/-- MEM_STATUS.REPEAT (Table 17-13). -/
def F.MEM_STATUS_REPEAT : Field := ⟨0xEB, 14, 14, .w1c, 0x0, .none⟩
/-- MEM_STATUS.CORR (Table 17-13). -/
def F.MEM_STATUS_CORR : Field := ⟨0xEB, 13, 13, .w1c, 0x0, .none⟩
/-- MEM_STATUS.SCRUB_LATE (Table 17-13). -/
def F.MEM_STATUS_SCRUB_LATE : Field := ⟨0xEB, 12, 12, .w1c, 0x0, .none⟩
/-- MEM_STATUS.FLIP_ARMED (Table 17-13). -/
def F.MEM_STATUS_FLIP_ARMED : Field := ⟨0xEB, 11, 11, .ro, 0x0, .none⟩
/-- MEM_STATUS.SCRUBBING (Table 17-13). -/
def F.MEM_STATUS_SCRUBBING : Field := ⟨0xEB, 10, 10, .ro, 0x0, .none⟩
/-- MEM_STATUS.PASSES (Table 17-13). -/
def F.MEM_STATUS_PASSES : Field := ⟨0xEB, 7, 0, .ro, 0x0, .none⟩
/-- MEM_FLIP_MASK.MASK (Table 17-15). -/
def F.MEM_FLIP_MASK_MASK : Field := ⟨0xED, 15, 8, .rw, 0x0, .none⟩
/-- MEM_FLIP_MASK.POS (Table 17-15). -/
def F.MEM_FLIP_MASK_POS : Field := ⟨0xED, 7, 3, .rw, 0x0, .none⟩
/-- MEM_RAW.EN (Table 17-16). -/
def F.MEM_RAW_EN : Field := ⟨0xEE, 15, 15, .rw, 0x0, .none⟩
/-- MEM_RAW.STORE (Table 17-16). -/
def F.MEM_RAW_STORE : Field := ⟨0xEE, 3, 0, .rw, 0x0, .none⟩
/-- SLT_RETIRE.PAGES (Table 17-17). -/
def F.SLT_RETIRE_PAGES : Field := ⟨0xEF, 15, 0, .rw, 0x0, .psfy⟩
/-- BST_CTRL.TD_EXT (Table 18-12). -/
def F.BST_CTRL_TD_EXT : Field := ⟨0xF0, 1, 1, .rw, 0x0, .y⟩
/-- BST_CTRL.ATTN_EN (Table 18-12). -/
def F.BST_CTRL_ATTN_EN : Field := ⟨0xF0, 0, 0, .rw, 0x0, .y⟩
/-- BST_STATUS.PHASE (Table 18-13). -/
def F.BST_STATUS_PHASE : Field := ⟨0xF1, 15, 12, .ro, 0x0, .none⟩
/-- BST_STATUS.EE_OK (Table 18-13). -/
def F.BST_STATUS_EE_OK : Field := ⟨0xF1, 11, 11, .ro, 0x0, .psfyd⟩
/-- BST_STATUS.SOURCE (Table 18-13). -/
def F.BST_STATUS_SOURCE : Field := ⟨0xF1, 10, 9, .ro, 0x0, .psfyd⟩
/-- BST_STATUS.DONE (Table 18-13). -/
def F.BST_STATUS_DONE : Field := ⟨0xF1, 8, 8, .w1c, 0x0, .none⟩
/-- BST_STATUS.DETAIL (Table 18-13). -/
def F.BST_STATUS_DETAIL : Field := ⟨0xF1, 7, 4, .ro, 0x0, .psfyd⟩
/-- BST_STATUS.RESULT (Table 18-13). -/
def F.BST_STATUS_RESULT : Field := ⟨0xF1, 1, 0, .ro, 0x0, .psfyd⟩
/-- BST_PART.PART (Table 18-14). -/
def F.BST_PART_PART : Field := ⟨0xF2, 4, 0, .rw, 0x0, .y⟩
/-- BST_REC.DATA (Table 18-15). -/
def F.BST_REC_DATA : Field := ⟨0xF3, 15, 0, .ro, 0x0, .psfyd⟩
/-- FLT_CTRL.EV_WATER (Table 19-13). -/
def F.FLT_CTRL_EV_WATER : Field := ⟨0xF4, 15, 10, .rw, 0x0, .y⟩
/-- FLT_CTRL.CPD_ATTN (Table 19-13). -/
def F.FLT_CTRL_CPD_ATTN : Field := ⟨0xF4, 4, 4, .rw, 0x0, .y⟩
/-- FLT_CTRL.NEW_ATTN (Table 19-13). -/
def F.FLT_CTRL_NEW_ATTN : Field := ⟨0xF4, 3, 3, .rw, 0x1, .y⟩
/-- FLT_CTRL.EV_ATTN (Table 19-13). -/
def F.FLT_CTRL_EV_ATTN : Field := ⟨0xF4, 2, 2, .rw, 0x0, .y⟩
/-- FLT_CTRL.AGT_ATTN (Table 19-13). -/
def F.FLT_CTRL_AGT_ATTN : Field := ⟨0xF4, 1, 1, .rw, 0x0, .y⟩
/-- FLT_CTRL.STREAM_ATTN (Table 19-13). -/
def F.FLT_CTRL_STREAM_ATTN : Field := ⟨0xF4, 0, 0, .rw, 0x0, .y⟩
/-- FLT_STATUS.SEQ (Table 19-14). -/
def F.FLT_STATUS_SEQ : Field := ⟨0xF5, 15, 8, .ro, 0x0, .psfyd⟩
/-- FLT_STATUS.NEW (Table 19-14). -/
def F.FLT_STATUS_NEW : Field := ⟨0xF5, 7, 7, .w1c, 0x0, .psfyd⟩
/-- FLT_STATUS.OVW (Table 19-14). -/
def F.FLT_STATUS_OVW : Field := ⟨0xF5, 6, 6, .w1c, 0x0, .psfyd⟩
/-- FLT_STATUS.INJ_RESET (Table 19-14). -/
def F.FLT_STATUS_INJ_RESET : Field := ⟨0xF5, 5, 5, .w1c, 0x0, .psfyd⟩
/-- FLT_STATUS.COUNT (Table 19-14). -/
def F.FLT_STATUS_COUNT : Field := ⟨0xF5, 3, 0, .ro, 0x0, .psfyd⟩
/-- FLT_PART.SLOT (Table 19-15). -/
def F.FLT_PART_SLOT : Field := ⟨0xF6, 5, 3, .rw, 0x0, .y⟩
/-- FLT_PART.WORD (Table 19-15). -/
def F.FLT_PART_WORD : Field := ⟨0xF6, 2, 0, .rw, 0x0, .y⟩
/-- FLT_DATA.DATA (Table 19-15). -/
def F.FLT_DATA_DATA : Field := ⟨0xF7, 15, 0, .ro, 0x0, .psfyd⟩
/-- FLT_ATTN.GROUPS (Table 19-16). -/
def F.FLT_ATTN_GROUPS : Field := ⟨0xF8, 15, 0, .ro, 0x0, .none⟩
/-- FLT_EV_STAT.LEVEL (Table 19-17). -/
def F.FLT_EV_STAT_LEVEL : Field := ⟨0xF9, 14, 8, .ro, 0x0, .none⟩
/-- FLT_EV_STAT.UNCARRIED (Table 19-17). -/
def F.FLT_EV_STAT_UNCARRIED : Field := ⟨0xF9, 6, 0, .ro, 0x0, .none⟩
/-- FLT_EV_LOST.COUNT (Table 19-17). -/
def F.FLT_EV_LOST_COUNT : Field := ⟨0xFA, 15, 0, .rc, 0x0, .none⟩
/-- FLT_LOG_WR.WRAPPED (Table 19-18). -/
def F.FLT_LOG_WR_WRAPPED : Field := ⟨0xFB, 15, 15, .w1c, 0x0, .psfy⟩
/-- FLT_LOG_WR.WR (Table 19-18). -/
def F.FLT_LOG_WR_WR : Field := ⟨0xFB, 8, 0, .ro, 0x0, .psfy⟩
/-- INJ_SEL.DET (Table 19-19). -/
def F.INJ_SEL_DET : Field := ⟨0xFC, 5, 0, .rw, 0x0, .y⟩
/-- INJ_ARG.ARG (Table 19-19). -/
def F.INJ_ARG_ARG : Field := ⟨0xFD, 15, 0, .rw, 0x0, .y⟩
/-- INJ_FIRE.KEY (Table 19-20). -/
def F.INJ_FIRE_KEY : Field := ⟨0xFE, 15, 0, .wo, 0x0, .none⟩
/-- INJ_STATUS.REFUSED (Table 19-21). -/
def F.INJ_STATUS_REFUSED : Field := ⟨0xFF, 15, 15, .w1c, 0x0, .none⟩
/-- INJ_STATUS.PENDING (Table 19-21). -/
def F.INJ_STATUS_PENDING : Field := ⟨0xFF, 14, 14, .ro, 0x0, .none⟩
/-- INJ_STATUS.CANCEL (Table 19-21). -/
def F.INJ_STATUS_CANCEL : Field := ⟨0xFF, 13, 13, .wo, 0x0, .none⟩
/-- INJ_STATUS.LAST (Table 19-21). -/
def F.INJ_STATUS_LAST : Field := ⟨0xFF, 5, 0, .ro, 0x0, .none⟩

/-- The fields of the registers at 0x00 to 0x0F. -/
def fieldsRow0 : Nat → List Field
  | 0x0 => [F.SYS_CHIP_ID_CODE]
  | 0x1 => [F.SYS_REV_VARIANT, F.SYS_REV_MAJOR, F.SYS_REV_MINOR]
  | 0x8 => [F.LEG_COL_FIRST_S]
  | 0x9 => [F.LEG_COL_LAST_E]
  | _ => []

/-- The fields of the registers at 0x10 to 0x1F. -/
def fieldsRow1 : Nat → List Field
  | 0x6 => [F.LEG_STROBE_DLY_DLY]
  | 0x7 => [F.LEG_STROBE_WIDTH_WIDTH]
  | 0x8 => [F.LEG_LVDS_CFG_CFG]
  | 0x9 => [F.LEG_TRIG_POL_POL]
  | 0xA => [F.LEG_ENC_DIV_DIV]
  | _ => []

/-- The fields of the registers at 0x60 to 0x6F. -/
def fieldsRow6 : Nat → List Field
  | 0x0 => [F.SYS_UNITS_SLATE, F.SYS_UNITS_AUX_ILV, F.SYS_UNITS_AUX, F.SYS_UNITS_ENGINES, F.SYS_UNITS_QUIRES]
  | 0x1 => [F.SYS_STRAPS_SPIMODE, F.SYS_STRAPS_CFGSEL]
  | 0x2 => [F.SYS_STATUS_CONFIG_VALID, F.SYS_STATUS_STORES_VALID, F.SYS_STATUS_SAFE_WHY, F.SYS_STATUS_STATE]
  | 0x3 => [F.SYS_RESET_CAUSE_FROM_DORMANT, F.SYS_RESET_CAUSE_FAULT_WDOG, F.SYS_RESET_CAUSE_LOCKOUT, F.SYS_RESET_CAUSE_FAILS, F.SYS_RESET_CAUSE_FAIL_STEP, F.SYS_RESET_CAUSE_WAKE_FAIL, F.SYS_RESET_CAUSE_CLASS]
  | 0x4 => [F.SYS_STORE_LOST_TRACE, F.SYS_STORE_LOST_ADCSEQ, F.SYS_STORE_LOST_LOG, F.SYS_STORE_LOST_LUT, F.SYS_STORE_LOST_AGATE, F.SYS_STORE_LOST_DEFECT, F.SYS_STORE_LOST_CAL, F.SYS_STORE_LOST_WAVE]
  | 0x5 => [F.SYS_SOFT_RESET_KEY]
  | 0x6 => [F.PWR_CTRL_REQ]
  | 0x7 => [F.PWR_STATUS_CP_DROOP, F.PWR_STATUS_CP2_OK, F.PWR_STATUS_CP1_OK, F.PWR_STATUS_HOLD, F.PWR_STATUS_WARN_LATCH, F.PWR_STATUS_WARN]
  | 0x8 => [F.PWR_WARN_ATTN_EN, F.PWR_WARN_LEVEL]
  | 0x9 => [F.PWR_DIP_POLICY_POLICY]
  | 0xA => [F.PWR_WAKE_TMO_PLL_TMO, F.PWR_WAKE_TMO_STEP_TMO]
  | 0xB => [F.CLK_REFDIV_FREQ]
  | 0xC => [F.CLK_STATUS_TIME_GAP, F.CLK_STATUS_RELOCKING, F.CLK_STATUS_BOOT, F.CLK_STATUS_REF_PRESENT, F.CLK_STATUS_LOCKED, F.CLK_STATUS_LOST, F.CLK_STATUS_CAUSE]
  | 0xD => [F.CLK_CTRL_ATTN_EN]
  | 0xE => [F.CLK_TRIG_LOST_COUNT]
  | 0xF => [F.CLK_TIME_HI_TIME]
  | _ => []

/-- The fields of the registers at 0x70 to 0x7F. -/
def fieldsRow7 : Nat → List Field
  | 0x0 => [F.CLK_TIME_MID_TIME]
  | 0x1 => [F.CLK_TIME_LO_TIME]
  | 0x2 => [F.CP_MODE_LEGACY_EN, F.CP_MODE_SPI]
  | 0x3 => [F.CP_CTRL_ERR_ATTN, F.CP_CTRL_RDY_ATTN]
  | 0x4 => [F.CP_STATUS_LAST_SEQ, F.CP_STATUS_SF_REFUSED, F.CP_STATUS_ERR, F.CP_STATUS_RESP_PREP, F.CP_STATUS_RESP_PEND]
  | 0x5 => [F.CP_ERR_CRC_ERRS, F.CP_ERR_FRAME_ERRS]
  | 0x6 => [F.CP_REFUSED_COUNT]
  | 0x7 => [F.BND_STATUS_STAGED, F.BND_STATUS_SYNC, F.BND_STATUS_TIMEOUT_LATCH, F.BND_STATUS_APPLIED, F.BND_STATUS_BANK_ADCSEQ, F.BND_STATUS_BANK_LUT, F.BND_STATUS_BANK_WAVE, F.BND_STATUS_STATE]
  | 0x8 => [F.BND_GEN_GEN]
  | 0x9 => [F.BND_TXN_TMO_TMO]
  | 0xA => [F.BND_CTRL_APPLY_ATTN, F.BND_CTRL_TMO_ATTN]
  | 0xB => [F.BND_TARGET_HI_TARGET]
  | 0xC => [F.BND_TARGET_MID_TARGET]
  | 0xD => [F.BND_TARGET_LO_TARGET]
  | 0xE => [F.BND_WDOG_EN, F.BND_WDOG_PERIOD]
  | 0xF => [F.BND_WDOG_KICK_KEY]
  | _ => []

/-- The fields of the registers at 0x80 to 0x8F. -/
def fieldsRow8 : Nat → List Field
  | 0x0 => [F.QR_SEL_QUIRE]
  | 0x1 => [F.QR_ENABLE_EN]
  | 0x2 => [F.QR_COL_START_START]
  | 0x3 => [F.QR_COL_COUNT_COUNT]
  | 0x4 => [F.QR_ROW_START_START]
  | 0x5 => [F.QR_ROW_COUNT_COUNT]
  | 0x6 => [F.QR_MODE_TEST_ROWS, F.QR_MODE_BLK_COL_OUT, F.QR_MODE_BLK_ROW_OUT, F.QR_MODE_COL_FLIP, F.QR_MODE_ROW_FLIP, F.QR_MODE_ROW_SUB, F.QR_MODE_COL_SUB, F.QR_MODE_AVG, F.QR_MODE_VBIN, F.QR_MODE_HBIN]
  | 0x7 => [F.QR_STATUS_CLAMPED, F.QR_STATUS_OUT_PIX]
  | 0x8 => [F.EXP_CTRL_NEEDS_REF, F.EXP_CTRL_NO_SLATE, F.EXP_CTRL_MODE_CLAMP, F.EXP_CTRL_OVERRUN, F.EXP_CTRL_PRIMING, F.EXP_CTRL_BUSY, F.EXP_CTRL_RUN]
  | 0x9 => [F.EXP_MODE_ABS, F.EXP_MODE_COMBINE, F.EXP_MODE_OVERRUN, F.EXP_MODE_PUNIT, F.EXP_MODE_TDI_DIR, F.EXP_MODE_RATIO, F.EXP_MODE_NEXP, F.EXP_MODE_SCAN, F.EXP_MODE_TRIG]
  | 0xA => [F.EXP_TIME_HI_TIME]
  | 0xB => [F.EXP_TIME_LO_TIME]
  | 0xC => [F.EXP_PERIOD_PERIOD]
  | 0xD => [F.EXP_SCHED_STAGES, F.EXP_SCHED_EVENT]
  | 0xE => [F.EXP_TRIG_HELD_COUNT]
  | 0xF => [F.EXP_DROPPED_COUNT]
  | _ => []

/-- The fields of the registers at 0x90 to 0x9F. -/
def fieldsRow9 : Nat → List Field
  | 0x0 => [F.CNV_MODE_LUT, F.CNV_MODE_COMPAND, F.CNV_MODE_GAIN, F.CNV_MODE_BITS]
  | 0x1 => [F.CNV_CORR_ROWCORR, F.CNV_CORR_BLK, F.CNV_CORR_DEFECT, F.CNV_CORR_FF, F.CNV_CORR_GAIN, F.CNV_CORR_OFS]
  | 0x2 => [F.CNV_BLK_CTRL_CLIP, F.CNV_BLK_CTRL_PED]
  | 0x3 => [F.CNV_HDR_BLEND, F.CNV_HDR_RATIO]
  | 0x4 => [F.CNV_PAIR_PERIOD]
  | 0x5 => [F.CNV_FF_ROWS_M1]
  | 0x6 => [F.CNV_STATUS_WAVE_ROM, F.CNV_STATUS_WAVE_BAD, F.CNV_STATUS_BLK_STEP, F.CNV_STATUS_PAIR_CLAMP, F.CNV_STATUS_BLK_VALID]
  | 0x7 => [F.CNV_DEF_STATUS_DEF_LOAD, F.CNV_DEF_STATUS_DEF_BUSY, F.CNV_DEF_STATUS_DEFECT_DUP, F.CNV_DEF_STATUS_IGNORED]
  | 0x8 => [F.LN_MODE_LEGACY_HDR, F.LN_MODE_PACK]
  | 0x9 => [F.LN_RATE_RATE]
  | 0xA => [F.LN_ANNEX_PAIRS, F.LN_ANNEX_EV_EN, F.LN_ANNEX_AUX_EN, F.LN_ANNEX_STATUS_ALL, F.LN_ANNEX_STATUS_EN, F.LN_ANNEX_LANE]
  | 0xB => [F.LN_ANNEX_EVERY_LINES]
  | 0xC => [F.LN_BUF_PAGES]
  | 0xD => [F.LN_STATUS_SPILLING, F.LN_STATUS_RATE_HELD, F.LN_STATUS_ANNEX_SKIP, F.LN_STATUS_SPILLED, F.LN_STATUS_OVF]
  | 0xE => [F.LN_DROPPED_COUNT]
  | _ => []

/-- The fields of the registers at 0xA0 to 0xAF. -/
def fieldsRowA : Nat → List Field
  | 0x0 => [F.SPN_SEL_KPART, F.SPN_SEL_CAP, F.SPN_SEL_CNT, F.SPN_SEL_CMP]
  | 0x1 => [F.SPN_GO_HALT, F.SPN_GO_GO]
  | 0x2 => [F.SPN_C_CFG_PLOCK, F.SPN_C_CFG_ONESHOT, F.SPN_C_CFG_EDGE, F.SPN_C_CFG_SEL, F.SPN_C_CFG_SRC]
  | 0x3 => [F.SPN_C_STAT_ARM, F.SPN_C_STAT_SPENT, F.SPN_C_STAT_RUN]
  | 0x4 => [F.SPN_C_HI_VALUE]
  | 0x5 => [F.SPN_C_MID_VALUE]
  | 0x6 => [F.SPN_C_LO_VALUE]
  | 0x7 => [F.SPN_C_DIV_HI_INT]
  | 0x8 => [F.SPN_C_DIV_LO_FRAC]
  | 0x9 => [F.SPN_M_CFG_EN, F.SPN_M_CFG_MODE, F.SPN_M_CFG_AUTO, F.SPN_M_CFG_STOP, F.SPN_M_CFG_LINE, F.SPN_M_CFG_CNT]
  | 0xA => [F.SPN_M_HI_CMP]
  | 0xB => [F.SPN_M_MID_CMP]
  | 0xC => [F.SPN_M_LO_CMP]
  | 0xD => [F.SPN_M_INTERVAL_INTERVAL]
  | 0xE => [F.SPN_M_STAT_ADD_LOST, F.SPN_M_STAT_MATCH, F.SPN_M_STAT_PENDING]
  | _ => []

/-- The fields of the registers at 0xB0 to 0xBF. -/
def fieldsRowB : Nat → List Field
  | 0x0 => [F.POS_CFG_DECODE, F.POS_CFG_DIR, F.POS_CFG_BW, F.POS_CFG_ZMODE, F.POS_CFG_ZG_EN, F.POS_CFG_ZGATE, F.POS_CFG_LOSS_UNREF, F.POS_CFG_FILT]
  | 0x1 => [F.POS_LOSS_FACTOR, F.POS_LOSS_RET_EDGES, F.POS_LOSS_RELOCK, F.POS_LOSS_STILL, F.POS_LOSS_LOST_ATTN, F.POS_LOSS_HOLD_ATTN, F.POS_LOSS_ZMISS_ATTN]
  | 0x2 => [F.POS_HOLD_LINES_LINES]
  | 0x3 => [F.POS_Z_SPAN_SPAN]
  | 0x4 => [F.POS_STATUS_ZMISS, F.POS_STATUS_QERR, F.POS_STATUS_RELOCKED, F.POS_STATUS_LOST_LATCH, F.POS_STATUS_HOLD_LATCH, F.POS_STATUS_STILL, F.POS_STATUS_BACK, F.POS_STATUS_EST, F.POS_STATUS_REF, F.POS_STATUS_STATE]
  | 0x5 => [F.POS_SKIPPED_COUNT]
  | 0x6 => [F.POS_PART_PART]
  | 0x8 => [F.AUX_SEL_PART, F.AUX_SEL_CONV, F.AUX_SEL_INJ, F.AUX_SEL_SLOT]
  | 0x9 => [F.AUX_CTRL_EN0, F.AUX_CTRL_EN1, F.AUX_CTRL_LP0, F.AUX_CTRL_LP1, F.AUX_CTRL_REG_EN, F.AUX_CTRL_REG_LEN_M1, F.AUX_CTRL_INJ_EN, F.AUX_CTRL_OW_ATTN, F.AUX_CTRL_OVF_ATTN, F.AUX_CTRL_QW_ATTN]
  | 0xA => [F.AUX_ROUND_UNIT, F.AUX_ROUND_PERIOD]
  | 0xB => [F.AUX_OVF_POLICY_POLICY, F.AUX_OVF_POLICY_WATER]
  | 0xC => [F.AUX_OW_THRESH_IPULL, F.AUX_OW_THRESH_THRESH]
  | 0xD => [F.AUX_DAC_EN, F.AUX_DAC_CHAN, F.AUX_DAC_CODE]
  | 0xE => [F.AUX_FLASH_STOP, F.AUX_FLASH_FSHIFT, F.AUX_FLASH_FINT]
  | 0xF => [F.AUX_FLASH_DARK_DARK]
  | _ => []

/-- The fields of the registers at 0xC0 to 0xCF. -/
def fieldsRowC : Nat → List Field
  | 0x0 => [F.AUX_STATUS_ROUND_NOW, F.AUX_STATUS_FL_LONG, F.AUX_STATUS_RFLUSH, F.AUX_STATUS_ROUND_LATE, F.AUX_STATUS_QOVF, F.AUX_STATUS_QWATER, F.AUX_STATUS_ROUND_BUSY, F.AUX_STATUS_INJ_WAIT, F.AUX_STATUS_INJ_BUSY]
  | 0x1 => [F.AUX_OW_STAT_OPEN, F.AUX_OW_STAT_OPEN_LATCH]
  | 0x2 => [F.AUX_Q_HI_ENTRY]
  | 0x3 => [F.AUX_Q_LO_ENTRY]
  | 0x4 => [F.AUX_Q_LEVEL_LEVEL]
  | 0x5 => [F.AUX_OVF_COUNT_COUNT]
  | 0x6 => [F.AUX_INJ_DROPPED_COUNT]
  | 0x8 => [F.TMP_SEL_BAND]
  | 0x9 => [F.TMP_CFG_CHAN, F.TMP_CFG_HOST, F.TMP_CFG_START, F.TMP_CFG_HYST, F.TMP_CFG_STALE, F.TMP_CFG_LIM_STOP, F.TMP_CFG_ATTN_EN]
  | 0xA => [F.TMP_GAIN_GAIN]
  | 0xB => [F.TMP_OFS_OFS]
  | 0xC => [F.TMP_BAND_THR, F.TMP_BAND_WAVE, F.TMP_BAND_LMARGIN]
  | 0xD => [F.TMP_STATUS_OVER, F.TMP_STATUS_UNDER, F.TMP_STATUS_SENSOR, F.TMP_STATUS_STALE_LATCH, F.TMP_STATUS_CHANGE, F.TMP_STATUS_THR_CLAMP, F.TMP_STATUS_LIMIT, F.TMP_STATUS_STALE, F.TMP_STATUS_VALID, F.TMP_STATUS_BAND]
  | 0xE => [F.TMP_BLK_FILT, F.TMP_BLK_LG_OFS, F.TMP_BLK_HG_OFS]
  | 0xF => [F.TMP_TEMP_T16]
  | _ => []

/-- The fields of the registers at 0xD0 to 0xDF. -/
def fieldsRowD : Nat → List Field
  | 0x0 => [F.AGT_SEL_ENGINE]
  | 0x1 => [F.AGT_CFG_TRACE, F.AGT_CFG_HALT_Z, F.AGT_CFG_SRPIN]
  | 0x2 => [F.AGT_DIV_DIV_M1]
  | 0x3 => [F.AGT_WRAP_TOP_TOP]
  | 0x4 => [F.AGT_WRAP_BOT_BOT]
  | 0x5 => [F.AGT_CORE_FLAGS, F.AGT_CORE_HALT_WHY, F.AGT_CORE_PC]
  | 0x6 => [F.AGT_STATUS_FIFO_UNDER, F.AGT_STATUS_FIFO_OVER, F.AGT_STATUS_PIN_CONFLICT, F.AGT_STATUS_LOCK_BROKEN, F.AGT_STATUS_WAIT_TMO, F.AGT_STATUS_RUN, F.AGT_STATUS_WAITING, F.AGT_STATUS_INJ_PEND, F.AGT_STATUS_IPTR, F.AGT_STATUS_LEVEL]
  | 0x7 => [F.AGT_SR_SR]
  | 0x8 => [F.AGT_FIFO_DATA]
  | 0x9 => [F.AGT_INJECT_PART]
  | 0xA => [F.AGT_GO_STEP, F.AGT_GO_HALT, F.AGT_GO_START]
  | 0xB => [F.AGT_FORCE_HALT_FORCE]
  | 0xC => [F.AGT_PINPERM_A_AG3, F.AGT_PINPERM_A_AG2, F.AGT_PINPERM_A_AG1, F.AGT_PINPERM_A_AG0]
  | 0xD => [F.AGT_PINPERM_B_AG7, F.AGT_PINPERM_B_AG6, F.AGT_PINPERM_B_AG5, F.AGT_PINPERM_B_AG4]
  | 0xE => [F.AGT_BIST_PINS_Z]
  | 0xF => [F.AGT_TRACE_WRAPPED, F.AGT_TRACE_FREEZE, F.AGT_TRACE_WR]
  | _ => []

/-- The fields of the registers at 0xE0 to 0xEF. -/
def fieldsRowE : Nat → List Field
  | 0x0 => [F.PB_TGT_EN, F.PB_TGT_ADDR]
  | 0x1 => [F.PB_CFG_SPEED, F.PB_CFG_RETRY, F.PB_CFG_BACKOFF, F.PB_CFG_ATTN_EN]
  | 0x2 => [F.PB_EE_ADDR, F.PB_EE_AW, F.PB_EE_PAGE, F.PB_EE_BLK, F.PB_EE_RECOFS]
  | 0x3 => [F.PB_XADDR_PTR, F.PB_XADDR_TADDR]
  | 0x4 => [F.PB_DATA_DATA]
  | 0x5 => [F.PB_XFER_OP, F.PB_XFER_WLEN, F.PB_XFER_RLEN]
  | 0x6 => [F.PB_STATUS_BUSY, F.PB_STATUS_DONE, F.PB_STATUS_REFUSED, F.PB_STATUS_OWN, F.PB_STATUS_INHIBIT, F.PB_STATUS_STUCK, F.PB_STATUS_TGT_STATUS, F.PB_STATUS_TGT_REF, F.PB_STATUS_ERR]
  | 0x7 => [F.PB_ERR_ARB_LOSSES, F.PB_ERR_NACKS]
  | 0x8 => [F.MEM_SEL_BAND, F.MEM_SEL_STORE, F.MEM_SEL_RGRP]
  | 0x9 => [F.MEM_SCRUB_RATE_PASS]
  | 0xA => [F.MEM_CTRL_SCRUB_EN, F.MEM_CTRL_ERASE_EN, F.MEM_CTRL_REPEAT_ATTN, F.MEM_CTRL_MACRO_ATTN, F.MEM_CTRL_LATE_ATTN, F.MEM_CTRL_CORR_ATTN]
  | 0xB => [F.MEM_STATUS_MACRO, F.MEM_STATUS_REPEAT, F.MEM_STATUS_CORR, F.MEM_STATUS_SCRUB_LATE, F.MEM_STATUS_FLIP_ARMED, F.MEM_STATUS_SCRUBBING, F.MEM_STATUS_PASSES]
  | 0xD => [F.MEM_FLIP_MASK_MASK, F.MEM_FLIP_MASK_POS]
  | 0xE => [F.MEM_RAW_EN, F.MEM_RAW_STORE]
  | 0xF => [F.SLT_RETIRE_PAGES]
  | _ => []

/-- The fields of the registers at 0xF0 to 0xFF. -/
def fieldsRowF : Nat → List Field
  | 0x0 => [F.BST_CTRL_TD_EXT, F.BST_CTRL_ATTN_EN]
  | 0x1 => [F.BST_STATUS_PHASE, F.BST_STATUS_EE_OK, F.BST_STATUS_SOURCE, F.BST_STATUS_DONE, F.BST_STATUS_DETAIL, F.BST_STATUS_RESULT]
  | 0x2 => [F.BST_PART_PART]
  | 0x3 => [F.BST_REC_DATA]
  | 0x4 => [F.FLT_CTRL_EV_WATER, F.FLT_CTRL_CPD_ATTN, F.FLT_CTRL_NEW_ATTN, F.FLT_CTRL_EV_ATTN, F.FLT_CTRL_AGT_ATTN, F.FLT_CTRL_STREAM_ATTN]
  | 0x5 => [F.FLT_STATUS_SEQ, F.FLT_STATUS_NEW, F.FLT_STATUS_OVW, F.FLT_STATUS_INJ_RESET, F.FLT_STATUS_COUNT]
  | 0x6 => [F.FLT_PART_SLOT, F.FLT_PART_WORD]
  | 0x7 => [F.FLT_DATA_DATA]
  | 0x8 => [F.FLT_ATTN_GROUPS]
  | 0x9 => [F.FLT_EV_STAT_LEVEL, F.FLT_EV_STAT_UNCARRIED]
  | 0xA => [F.FLT_EV_LOST_COUNT]
  | 0xB => [F.FLT_LOG_WR_WRAPPED, F.FLT_LOG_WR_WR]
  | 0xC => [F.INJ_SEL_DET]
  | 0xD => [F.INJ_ARG_ARG]
  | 0xE => [F.INJ_FIRE_KEY]
  | 0xF => [F.INJ_STATUS_REFUSED, F.INJ_STATUS_PENDING, F.INJ_STATUS_CANCEL, F.INJ_STATUS_LAST]
  | _ => []

/-- The fields of the register at an address; none where the address is unassigned or has no field of its own. -/
def fieldsAt (a : Nat) : List Field :=
  match a / 16 with
  | 0x0 => fieldsRow0 (a % 16)
  | 0x1 => fieldsRow1 (a % 16)
  | 0x6 => fieldsRow6 (a % 16)
  | 0x7 => fieldsRow7 (a % 16)
  | 0x8 => fieldsRow8 (a % 16)
  | 0x9 => fieldsRow9 (a % 16)
  | 0xA => fieldsRowA (a % 16)
  | 0xB => fieldsRowB (a % 16)
  | 0xC => fieldsRowC (a % 16)
  | 0xD => fieldsRowD (a % 16)
  | 0xE => fieldsRowE (a % 16)
  | 0xF => fieldsRowF (a % 16)
  | _ => []

/-- The address ranges of the transactional registers (the rows of Kind T in Table 21-2, and the own-value legacy
registers of R666). -/
def transRanges : List (Nat × Nat) :=
  [(0x08, 0x09), (0x16, 0x1A), (0x81, 0x86), (0x89, 0x8D), (0x90, 0x95), (0x98, 0x9C), (0xA2, 0xA2), (0xA7, 0xA9), (0xAD, 0xAD), (0xB0, 0xB3), (0xB9, 0xBF), (0xC9, 0xCC), (0xCE, 0xCE), (0xD1, 0xD4), (0xDC, 0xDE), (0xE0, 0xE2), (0xF0, 0xF0)]

/-- Whether the register at an address is transactional (R221, Table 21-2). -/
def isTrans (a : Nat) : Bool := transRanges.any fun r => r.1 ≤ a && a ≤ r.2

end Sys2Proof.Machine
end

