-- ==== Sys2Proof/Machine/State.lean ====
section
/-! DEFINITION.
The state of the block: every register, FIFO, buffer, counter, mode and pin the spec gives it, as plain data, and the
queue of commands that wait.  Fields that the register tables call live are computed from the typed state of their
unit; every other register field is stored in `regs`, keyed by address and instance.
-/
namespace Sys2Proof.Machine

/-! ### Power, wake and resets (chapter 03) -/

/-- The power states of Table 03-3, with Waking and Testing as SYS_STATUS.STATE codes them (Table 03-11). -/
inductive PState where
  | off | dormant | standby | armed | streaming | safe | waking | testing
  deriving DecidableEq, Repr

/-- Why the device is Safe (SYS_STATUS.SAFE_WHY, Table 03-11). -/
inductive SafeWhy where
  | notSafe | wakeFailed | recordFailed | lockout
  deriving DecidableEq, Repr

/-- The reset classes of Table 03-8. -/
inductive ResetClass where
  | por | bor | pin | soft | fault
  deriving DecidableEq, Repr

/-- What a running wake sequence follows (Table 03-4). -/
inductive WakeKind where
  | reset (c : ResetClass) | dormant | standby
  deriving DecidableEq, Repr

/-- The rails of Table 03-2 that have lands: `true` = on. -/
structure Rails where
  vcore : Bool
  vref : Bool
  vana : Bool
  vpixh : Bool
  vneg : Bool
  vlane : Bool
  deriving DecidableEq, Repr

/-- The power unit (chapter 03): the live power state, the wake sequencer and the supply monitors. -/
structure Power where
  /-- SYS_STATUS.STATE -/
  state : PState
  /-- SYS_STATUS.SAFE_WHY -/
  safeWhy : SafeWhy
  /-- The state left, while `state` is waking or testing (R684) -/
  from_ : PState
  /-- The supply condition that holds the device in reset, if any: a POR or a BOR not yet released (R111, R112) -/
  inReset : Option ResetClass
  /-- What the wake sequence in progress, or the last one, follows -/
  kind : WakeKind
  /-- The state the wake sequence leads to: `true` = Armed, `false` = Standby -/
  toArmed : Bool
  /-- Wake step in progress, 1 to 8; 9 = finish stage; 0 = no wake sequence -/
  step : Nat
  /-- The step runs; `false` = the sequence waits before it (R95) -/
  stepRunning : Bool
  /-- The wait for VDD above the warning level plus 20 mV before step 1 (R92) -/
  supplyWait : Bool
  /-- PWR_STATUS.WARN: the supply warning is asserted (R103, R104) -/
  warn : Bool
  /-- The supply itself holds the warning, not only an injection (R103, Table 19-6) -/
  warnReal : Bool
  /-- PWR_STATUS.HOLD: exposure starts are held (R107) -/
  hold : Bool
  /-- The 10 µs count that ends the hold runs (R107) -/
  holdCount : Bool
  /-- RESET_N is low (R113) -/
  resetLow : Bool
  /-- TEST is high: the device stays in reset (R55) -/
  testHigh : Bool
  /-- The rails that are on -/
  rails : Rails
  /-- VPIXH is in regulation (PWR_STATUS.CP1_OK, R109) -/
  cp1Ok : Bool
  /-- VNEG is in regulation (PWR_STATUS.CP2_OK, R109) -/
  cp2Ok : Bool
  /-- The tick in which VPIXH, VNEG left regulation while Armed or Streaming: nothing tells when they are back (R109) -/
  droop1 : Option Nat
  droop2 : Option Nat
  /-- The port is mute after a failure at step 1 (R98) -/
  mute : Bool
  deriving DecidableEq, Repr

/-! ### Clocks (chapter 04) -/

/-- The PLL and Spine time (chapter 04). -/
structure Clock where
  /-- CLK_STATUS.BOOT: the boot ratio is in force (R137) -/
  boot : Bool
  /-- CLK_STATUS.LOCKED -/
  locked : Bool
  /-- CLK_STATUS.REF_PRESENT (R151) -/
  refPresent : Bool
  /-- CLK_STATUS.RELOCKING (R138, R151) -/
  relocking : Bool
  /-- The running relock, or the one that will follow the return of REFCLK, targets the full ratio (R138, R151, R155) -/
  toFull : Bool
  /-- CLK_REFDIV was written after the relock and before LOST was acknowledged: a relock is still to come (R155) -/
  owed : Bool
  /-- CLK_TIME (R142) -/
  time : BitVec 48
  /-- CLK_TIME has started: the device reached Armed since the last clear (R142) -/
  started : Bool
  /-- CLK_TIME and the counters of SCLK, SCLK/16 and REFCLK hold (R139, R150) -/
  held : Bool
  /-- Ticks since reset, held by nothing: the model's own clock for durations -/
  now : Nat
  deriving DecidableEq, Repr

/-! ### Control port (chapter 05) -/

/-- Where a word of a store lies: store ID, bank, word number. -/
structure WordAddr where
  store : Nat
  bank : Bool
  word : Nat
  deriving DecidableEq, Repr

/-- A command packet without its CRC, which is the CRC-16 of the rest. -/
structure Packet where
  opcode : Nat
  flags : Byte
  addr : BitVec 32
  len : Nat
  payload : List Byte
  deriving DecidableEq, Repr

/-- A REG_RD or REG_WR burst under way, one register per tick (R180): the packet, the registers done and what they
answered, and for REG_WR the registers whose write a hardware update discards. -/
structure Burst where
  packet : Packet
  done : Nat
  status : Nat
  data : List Byte
  lost : BitVec 32
  deriving DecidableEq, Repr

/-- A stored response: Table 05-6 without PORT and CRC, which are made afresh at each delivery. -/
structure Response where
  opcode : Nat
  flags : Nat
  status : Nat
  data : List Byte
  /-- PORT.REPEAT of its deliveries (R175) -/
  repeated : Bool
  /-- SEQ of the most recently refused packet, if one was refused while it was held (R172) -/
  refused : Option Nat
  deriving DecidableEq, Repr

/-- The response buffer (Table 05-1, R171). DESIGN CHOICE (log entry 15). -/
inductive RespState where
  | empty
  /-- In preparation; the flag says that a bulk command is being prepared (R188) -/
  | prep (r : Response) (bulk : Bool)
  /-- Pending -/
  | pend (r : Response)
  deriving DecidableEq, Repr

/-- The control port (chapter 05). -/
structure Port where
  resp : RespState
  /-- The burst of registers that is executing (R180, R188) -/
  burst : Option Burst
  /-- The last packet executed and its response, if it stored one (R175) -/
  kept : Option (List Byte × Option Response)
  /-- A slot is open: SCS_N is low (R161) -/
  inSlot : Bool
  /-- A response was in preparation when the slot began (R172) -/
  prepAtBegin : Bool
  /-- A response was pending when the slot began (R172) -/
  pendAtBegin : Bool
  /-- What SDO carries in the slot: the bytes of the delivery, after which it carries `sdoFill` (R171) -/
  sdo : List Byte
  /-- The byte SDO carries beyond `sdo`: 0xFE while in preparation, else 0xFF (R171) -/
  sdoFill : Byte
  /-- RESP_READY is pending (R190), and whether it was when the slot began: a slot without an SCK edge changes nothing
  (R161) -/
  ready : Bool
  readyBefore : Bool
  /-- The words of a BULK_WR in progress, as they stood before it: raw bytes and valid bit (R124) -/
  undo : List (WordAddr × List Byte × Bool)
  /-- SPI mode 3 is in force (R193) -/
  mode3 : Bool
  /-- The port runs on SCLK (Table 04-4, R163) -/
  onSclk : Bool
  deriving DecidableEq, Repr

/-! ### Bindery (chapter 06) -/

/-- Transaction states (Table 06-5). -/
inductive TxnState where
  | idle | open_ | pending | timedOut
  deriving DecidableEq, Repr

/-- Apply points (Table 06-7). -/
inductive ApplyPoint where
  | immediate | nextLine | nextFrame | atPosition
  deriving DecidableEq, Repr

/-- A staging slot: register address, selected instance, value (Table 06-1, R206). -/
structure Staged where
  addr : Nat
  inst : Nat
  value : Word
  deriving DecidableEq, Repr

/-- State of a bank sync (R218). -/
inductive SyncState where
  | none | pending | running
  deriving DecidableEq, Repr

/-- The Bindery (chapter 06). -/
structure Bindery where
  txn : TxnState
  staged : List Staged
  /-- Banked stores whose standby bank the transaction wrote: WAVE, LUT, ADCSEQ -/
  wroteWave : Bool
  wroteLut : Bool
  wroteAdc : Bool
  point : ApplyPoint
  /-- The side of the AT_POSITION target on which the position lay at commit: `true` = below it -/
  below : Bool
  syncWave : SyncState
  syncLut : SyncState
  syncAdc : SyncState
  deriving DecidableEq, Repr

/-! ### Exposure, conversion and lanes (chapters 07 to 10) -/

/-- An entry of the compiled defect table (R323): a pixel of a quire, or with `row = none` a whole column. -/
structure Defect where
  quire : Nat
  col : Nat
  row : Option Nat
  /-- The store word that held the entry was corrected when it was read (R336) -/
  ecc : Bool
  deriving DecidableEq, Repr

/-- A compile of the DEFECT store in progress (R323). -/
structure Compile where
  /-- The entry read next -/
  next : Nat
  /-- The END entry, or the end of the store, was reached -/
  ended : Bool
  /-- Entries accepted, the newest first -/
  accepted : List Defect
  deriving DecidableEq, Repr

/-- A frame context (R222, R330). -/
structure Context where
  /-- The live QR_, EXP_, CNV_ and LN_ registers, 0x80 to 0x9F -/
  regs : Cells Word
  /-- Active banks of WAVE and LUT: `true` = bank 1 -/
  bankWave : Bool
  bankLut : Bool
  /-- BND_GEN -/
  gen : Nat
  /-- Temperature band in force -/
  band : Nat
  /-- TMP_BLK of that band -/
  blk : Word
  /-- The waveform set the band names, and whether the ROM set runs instead (R329) -/
  waveSet : Nat
  rom : Bool
  /-- The compiled defect table; empty while a compile runs (R323) -/
  defects : List Defect
  deriving DecidableEq, Repr

/-- What belongs to one frame (R283, Table 10-6). -/
structure Frame where
  number : Nat
  ctx : Context
  /-- Position in the event tick of the first exposure: 40-bit integer and 8-bit fraction -/
  pos : Nat
  est : Bool
  dup : Bool
  posRef : Bool
  /-- STR: the exposure was stretched -/
  str : Bool
  /-- SW: the exposure interval overlapped the warning -/
  sw : Bool
  /-- FLASH and FL_VALID once latched (R351) -/
  flash : Option (Option Nat)
  /-- Slate pages the frame uses, in order (R294) -/
  pages : List Nat
  deriving DecidableEq, Repr

/-- An exposure in progress (Table 08-1). -/
structure Exposing where
  frame : Frame
  /-- Sub-exposure -/
  k : Nat
  /-- Start tick -/
  start : Nat
  /-- Transfer tick it is scheduled for; `none` in LEGACY mode until the end event (R278) -/
  until_ : Option Nat
  deriving DecidableEq, Repr

/-- A frame in readout. -/
structure Reading where
  frame : Frame
  k : Nat
  /-- Row pairs converted so far -/
  pair : Nat
  /-- Free tick: the end of its last pair (R244) -/
  free : Nat
  /-- Nonzero CAL words of the pair in conversion, read when it started (R333), by byte offset -/
  cal : Cells Nat
  /-- Where CAL words were corrected (R336): bit 2 × quire + bank, 24 + bank for the left edge, 26 + bank for the
  right -/
  calCorr : BitVec 28
  deriving DecidableEq, Repr

/-- A TDI output line in flight (R293): what its first contributing stage gave, what its stages added, and the latest
stage: its context, row field, and black columns. -/
structure TdiLine where
  /-- Trigger number of its first stage -/
  index : Nat
  pos : Nat
  est : Bool
  dup : Bool
  posRef : Bool
  sw : Bool
  str : Bool
  /-- A stage was missed (R295) -/
  missed : Bool
  /-- A corrected error touched one of its stages (R302, R336) -/
  ecc : Bool
  /-- The line's Slate pages, one per enabled quire, once a stage has been added -/
  pages : List Nat
  /-- With one stage, which uses no Slate: the values by quire -/
  values : List (List Int)
  ctx : Context
  row : Nat
  left : List Int
  right : List Int
  deriving DecidableEq, Repr

/-- The exposure control of chapter 08. -/
structure Exposure where
  /-- Number the next frame takes (24 bits) -/
  nextNumber : Nat
  /-- The most recent frame number assigned since streaming started (R464) -/
  lastNumber : Option Nat
  /-- The most recent frame number assigned (R356) -/
  latest : Option Nat
  exposing : Option Exposing
  reading : Option Reading
  /-- A multi-exposure frame between sub-exposures: the frame and the next k -/
  between : Option (Frame × Nat)
  /-- Quires whose next line folio carries GAP (R286): bit q -/
  gap : BitVec 12
  /-- TDI: triggers numbered so far, the first one of this run or restart, lines in flight (oldest first), the context
  in use; a frame's number is its trigger's while it is in exposure or readout -/
  tdiCount : Nat
  tdiFirst : Nat
  tdiLines : List TdiLine
  tdiCtx : Option Context
  /-- The first line after priming carries GAP (R295) -/
  tdiGap : Bool
  /-- Line counter of the black-pair cycle in line-scan and TDI (R291) -/
  blackPair : Nat
  /-- Lines since the last STATUS folio (R359) -/
  statusLines : Nat
  /-- Slate pages that a corrected error touched in the frame's sub-exposures before its last one (R302, R336) -/
  eccPages : List Nat
  /-- Ticks until the free-run timer expires, if it runs (R276) -/
  timer : Option Nat
  /-- The free-run timer has expired in this tick -/
  fired : Bool
  /-- The tick in which the last trigger reached the quires: a line carries one event per tick (R279) -/
  trigTick : Option Nat
  /-- Streaming stops once BUSY clears (R273) -/
  stopping : Bool
  deriving DecidableEq, Repr

/-- A black estimate or row reference, in 1/16 of a native LSB (R315, R319). -/
structure Black where
  value : Int
  valid : Bool
  /-- Sum and number of the values of the measurement in progress, and their sum before they are limited -/
  sum : Int
  count : Nat
  raw : Int
  deriving DecidableEq, Repr

/-- The conversion and correction state of chapter 09. -/
structure Conversion where
  /-- Black estimates, key 4 × quire + 2 × gain + bank -/
  black : Cells Black
  /-- Row references M, key 2 × gain + bank -/
  rowRef : Cells Black
  /-- BITS and GAIN of the previous context (R317) -/
  lastModes : Option (Nat × Nat)
  /-- A context of another mode has been taken: the estimates are invalid from its readout on (R317, R332) -/
  stale : Bool
  defects : List Defect
  compile : Option Compile
  /-- Valid waveform sets of the active bank, bit s (R328) -/
  waveValid : BitVec 8
  /-- The most recent context runs the ROM set (CNV_STATUS.WAVE_ROM) -/
  rom : Bool
  deriving DecidableEq, Repr

/-- A folio (Tables 10-5 and 10-8), without SOF, CRC and EOF. -/
structure Folio where
  lane : Nat
  annex : Bool
  legacy : Bool
  frame : Nat
  /-- ROW of a line folio; KIND and COUNT of an annex folio -/
  row : Nat
  pos : Nat
  flags : Nat
  gen : Nat
  /-- FLASH of a line folio; ANNEX_SEQ of an annex folio -/
  last : Nat
  payload : List Byte
  deriving DecidableEq, Repr

/-- How a folio ended on its lane: with EOF, with /V/ while the lane runs on (R374), or cut without either (R368). -/
inductive FolioEnd where
  | eof | void | cut
  deriving DecidableEq, Repr

/-- One lane (chapter 10). -/
structure Lane where
  /-- Folios waiting, the one in transmission first -/
  fifo : List Folio
  /-- Spilled folios with their Slate pages, oldest first -/
  spill : List (Nat × Folio)
  /-- A line folio was dropped since the last one accepted: the next carries OVF -/
  ovf : Bool
  /-- STATE of the last marker sent (R347), if one was sent since the lane started -/
  marker : Option Nat
  /-- Lane driver bias in force (R489) -/
  bias : Nat
  /-- The bytes sent of the last folio (R365), and how it ended -/
  handed : Option (List Byte × FolioEnd)
  /-- The folio in front waited when the lane sent its last marker: it follows at once (R361) -/
  tight : Bool
  /-- Running disparity is positive (R342) -/
  rd : Bool
  /-- The code groups of the latest folio or run of idles with its marker, bit a first (R342, R346) -/
  wire : List (BitVec 10)
  deriving DecidableEq, Repr

/-- The lanes (chapter 10). -/
structure Lanes where
  lanes : Cells Lane
  /-- Lanes are biased: idle symbols run (wake step 8) -/
  running : Bool
  annexSeq : Nat
  deriving DecidableEq, Repr

/-! ### Memories (chapter 17) -/

/-- Who holds a Slate page (Table 17-4). -/
inductive PageUse where
  | free | frame | spill
  deriving DecidableEq, Repr

/-- The memories and their integrity units (chapter 17). -/
structure Memory where
  /-- The cells of every store as its raw image (R587): byte addresses of `cellAddr` -/
  cells : List Host.Cell
  /-- Valid bits by word (R564) -/
  valid : Cells Bool
  /-- Corrected words waiting to be written back: place and corrected raw word (R573) -/
  writebacks : List (WordAddr × List Byte)
  /-- Corrected counts by store ID (MEM_INFO) -/
  corrected : Cells Nat
  /-- Store of the armed flip (R586) -/
  flip : Option Nat
  /-- Scrubber: place in the walk where the next visit looks -/
  scrubPos : Nat
  /-- Interval in force, in tk, and the pass time that it was set for (R579) -/
  interval : Nat
  paced : Nat
  /-- Words corrected in the previous and in this pass (R581), CORR records of this pass (R580) -/
  lastHits : List WordAddr
  hits : List WordAddr
  records : Nat
  /-- Macro and macro row of this pass's Slate corrections (R582) -/
  macroRows : List (Nat × Nat)
  /-- Macros declared failed -/
  declared : List Nat
  /-- First failed macro, and the erasure in force (R582) -/
  failed : Option Nat
  erased : Option Nat
  /-- Ticks of this pass so far, pauses left out (R579) -/
  elapsed : Nat
  /-- Use of each Slate page -/
  pages : Cells PageUse
  /-- Stores with an uncorrectable error whose FAULT reset is due in the next tick (R574): DEDUCED (log entry 6) -/
  failing : List Nat
  deriving DecidableEq, Repr

/-! ### Event log, fault log and injections (chapter 19) -/

/-- An event-log entry (Table 19-2). -/
structure Event where
  code : Nat
  inj : Bool
  unit : Nat
  data : Nat
  time : Nat
  /-- An annex folio has carried it (R357) -/
  carried : Bool
  deriving DecidableEq, Repr

/-- A fault-log entry (Table 19-4) with its copied mark (R623). -/
structure FaultEntry where
  kind : Nat
  store : Nat
  inj : Bool
  reader : Nat
  bank : Bool
  offset : Nat
  syndrome : Nat
  time : Nat
  seq : Nat
  copied : Bool
  deriving DecidableEq, Repr

/-- Event log, fault log and injection unit (chapter 19). -/
structure Faults where
  /-- The event log, oldest first -/
  events : List Event
  /-- The fault-log head by slot -/
  head : Cells (Option FaultEntry)
  /-- The pending injection: DET and ARG (R631) -/
  pending : Option (Nat × Nat)
  /-- Injected conditions with a duration that are in force (DET 0x00, 0x01, 0x02) -/
  active : List Nat
  /-- Entries written now follow from an injection (R629) -/
  mark : Bool
  deriving DecidableEq, Repr
/-! ### Spine (chapter 11) -/

/-- Run states of a counter (Table 11-4). -/
inductive RunState where
  | idle | running | spent
  deriving DecidableEq, Repr

/-- A Spine counter. -/
structure Counter where
  value : BitVec 48
  /-- Remainder in 1/65,536 of a count of input (R380, R381) -/
  rem : Nat
  run : RunState
  /-- Holding registers of SPN_C_HI and SPN_C_MID (R389) -/
  holdHi : Word
  holdMid : Word
  /-- The divisor the prescaler uses, 16.16 (R391) -/
  div : Nat
  deriving DecidableEq, Repr

/-- A compare channel. -/
structure Compare where
  value : BitVec 48
  holdHi : Word
  holdMid : Word
  /-- A WINDOW channel has not matched for its current value (R395) -/
  pending : Bool
  /-- Counter and compare value were equal when last compared (R394) -/
  equal : Bool
  deriving DecidableEq, Repr

/-- A capture pair. -/
structure Capture where
  rise : BitVec 48
  fall : BitVec 48
  width : Nat
  seq : Nat
  opened : Bool
  ovr : Bool
  done : Bool
  /-- SPN_K_CFG (part 0x9 of Table 11-19) -/
  cfg : Word
  /-- RISE, OPEN and OVR as they stood before a pulse start of this tick: an end of the tick comes first (R404) -/
  undo : Option (BitVec 48 × Bool × Bool)
  deriving DecidableEq, Repr

/-- The Spine: C0 to C7, M0 to M15, K0 to K3. -/
structure Spine where
  counters : Cells Counter
  compares : Cells Compare
  captures : Cells Capture
  /-- Counters that stepped or became SPENT in this tick, counters that became SPENT in it, and channels that auto-added
  in it (R390, R397, R407) -/
  stepped : BitVec 8
  spentNow : BitVec 8
  added : BitVec 16
  deriving DecidableEq, Repr

/-! ### Position (chapter 12) -/

/-- Position states (Table 12-2). -/
inductive PosState where
  | acquire | track | holdover | lost | relock
  deriving DecidableEq, Repr

/-- The position unit. -/
structure Position where
  state : PosState
  /-- C, in ec -/
  c : BitVec 40
  /-- P, 40-bit integer and 8-bit fraction -/
  p : BitVec 48
  /-- v, in ec per tk -/
  v : Rat
  /-- v just after the last decoded edge: its period is the T of the loss window (R425) -/
  vEdge : Rat
  /-- POS_CFG before a change of this tick: an edge of the tick is decoded with it (Table 12-4) -/
  was : Option Word
  /-- Anchor: counted position and tick from which P advances (R419, R425, R430) -/
  anchor : BitVec 40
  anchorTick : Nat
  /-- What P's course lies above the anchor at the anchor tick, in ec: 0 after an edge; a slew and a preset with a
  fraction change it (R423, R430) -/
  frac : Rat
  /-- The loss was injected: entries that follow from it are marked (R629) -/
  injLoss : Bool
  /-- POS_STATUS.REF -/
  ref : Bool
  /-- POS_STATUS.BACK: the last counted edge was backward -/
  back : Bool
  /-- Ticks of the consecutive edges counted in one direction, newest first, at most 16 -/
  run : List Nat
  /-- Tick of the last decoded edge, if any was counted since the last clear -/
  lastEdge : Option Nat
  /-- Accepted levels of ENC_A, ENC_B, ENC_Z, and a pulse of ENC_Z that has not taken effect (R421) -/
  a : Bool
  b : Bool
  z : Bool
  zOpen : Bool
  /-- C just after the previous accepted index pulse (R422) -/
  zPrev : Option (BitVec 40)
  /-- Z_DELTA -/
  zDelta : Int
  /-- Z_VALUE, parts 0xB to 0xD (class B) -/
  zValue : BitVec 48
  /-- Trigger events delivered since the loss declaration, and P after its step (R426) -/
  holdLines : Nat
  holdFrom : BitVec 48
  /-- DUP_PEND -/
  dupPend : Nat
  /-- Holding values of parts 0x0 and 0x1 (R423) -/
  holdHi : Word
  holdMid : Word
  deriving DecidableEq, Repr

/-! ### Aux converters (chapter 13) -/

/-- A slot descriptor (Table 13-3). -/
structure Slot where
  chan : Nat
  /-- 0 = converter 0, 1 = converter 1, 2 = interleaved, 3 = disabled -/
  conv : Nat
  gain : Nat
  ar : Bool
  ow : Bool
  flash : Bool
  collide : Bool
  shift : Nat
  /-- N -/
  len : Nat
  trig : Nat
  delay : Nat
  owSettle : Nat
  deriving DecidableEq, Repr

/-- What a run is doing. -/
inductive RunPhase where
  /-- The reference settles (R467) -/
  | settling
  /-- Pull-up conversion, then pull-down conversion with v_up (R465) -/
  | owUp
  | owDown (vUp : Nat)
  /-- Converting its block -/
  | block
  deriving DecidableEq, Repr

/-- A run of a slot (Table 13-1). -/
structure Run where
  slot : Slot
  inj : Bool
  index : Nat
  phase : RunPhase
  /-- Tick in which it started -/
  start : Nat
  /-- Range of the conversion in progress on converter 0, or on the only converter, and on converter 1 -/
  range : Nat
  range1 : Nat
  /-- Range selected by autorange, in force from the next boundary -/
  select : Nat
  changes : Nat
  /-- Samples of the block so far, their sum, whether one was 0 or 16,383, and the sum of the flash terms -/
  count : Nat
  sum : Int
  sat : Bool
  terms : Int
  /-- First code of a channel-8 sample (R441) -/
  first : Option Nat
  /-- Range of the last sample counted -/
  lastRange : Nat
  /-- The stop event has come: the converters whose last counted conversion has still to end (R462) -/
  stop : Option (BitVec 2)
  /-- Frame the flash measurement belongs to (R464) -/
  frame : Option Nat
  /-- An apply has changed the slot's descriptor since the run began: the range it ends on is not kept (R460) -/
  changed : Bool
  deriving DecidableEq, Repr

/-- An injected request after its trigger. -/
inductive Request where
  | idle
  /-- The delay counts -/
  | counting (slot : Slot) (frame : Option Nat)
  /-- The request waits for its converters -/
  | waiting (slot : Slot) (frame : Option Nat)
  deriving DecidableEq, Repr

/-- What the unit keeps of a slot. -/
structure SlotData where
  last : Nat
  results : Nat
  /-- Range its next run starts at under AR, once a run has ended (R460) -/
  range : Option Nat
  /-- Accepted triggers -/
  triggers : Nat
  request : Request
  deriving DecidableEq, Repr

/-- A regular round (R444, R445): the copied descriptors and the slot that comes next. -/
structure Round where
  slots : List Slot
  next : Nat
  deriving DecidableEq, Repr

/-- The aux converters. -/
structure Aux where
  round : Option Round
  /-- The regular run, and the injected runs -/
  regular : Option Run
  injected : List Run
  /-- One further round starts when the running one completes (R446) -/
  late : Bool
  /-- Round number mod 8 -/
  roundNo : Nat
  /-- By slot: R-slot r at r, I-slot i at 16 + i -/
  slots : Cells SlotData
  /-- Reference settled, by converter -/
  settled : BitVec 2
  /-- The result queue, oldest first -/
  queue : List (BitVec 32)
  /-- Holding register of AUX_Q_LO (R454) -/
  hold : Word
  /-- Energies of flash measurements by frame (R464) -/
  flash : List (Nat × Nat)
  /-- Sum and N of the latest result on channel 9 (R469) -/
  vdd : Option (Int × Nat)
  /-- Lines whose event of this tick the I-slots have had (R447) -/
  taken : BitVec 64
  deriving DecidableEq, Repr

/-! ### Temperature (chapter 14) -/

/-- The band temperature. -/
structure Temperature where
  /-- T16 of the band temperature; `none` reads 0x8000 -/
  temp : Option Int
  valid : Bool
  /-- The band in force; `none` reads TMP_CFG.START (R486) -/
  band : Option Nat
  limit : Bool
  stale : Bool
  /-- Ticks of the stale timer (R494) -/
  timer : Nat
  deriving DecidableEq, Repr

/-! ### Agate engines (chapter 15) -/

/-- Run states of an engine: halted, running, running with a halt pending, and the one slot of a STEP (R501). -/
inductive EngineRun where
  | halted | running | halting | stepping
  deriving DecidableEq, Repr

/-- Why an engine halted last (AGT_CORE.HALT_WHY, Table 15-13). -/
inductive HaltWhy where
  | reset | host | limit | force | step | test
  deriving DecidableEq, Repr

/-- An Agate engine. -/
structure Engine where
  run : EngineRun
  why : HaltWhy
  pc : BitVec 5
  flags : Byte
  sr : Word
  /-- The FIFO, oldest first -/
  fifo : List Word
  /-- Lands it drives, and the values it drives (R510) -/
  drives : Byte
  values : Byte
  /-- The last slot was a wait cycle; wait cycles at this row (R507) -/
  waiting : Bool
  waited : Nat
  /-- Rows executed since the halt request (R517) -/
  since : Nat
  /-- The halt was asked for in this tick: it is tested from the next cycle tick (Table 15-9) -/
  asking : Bool
  /-- A row has changed the flags, the shift register in this tick: a host write is discarded (Table 15-9) -/
  flagged : Bool
  shifted : Bool
  /-- DIV_M1 in force in the engine's present cycle (R503) -/
  div : Nat
  /-- Parts held of an injected row, first part first, and the pending row (R520) -/
  parts : List Word
  injected : Option (BitVec 64)
  deriving DecidableEq, Repr

/-- The engines and what they share. -/
structure Agate where
  engines : Cells Engine
  /-- Crossbar lines that rows of this tick raise: they carry their events in the next tick (R509) -/
  raised : BitVec 64
  /-- By line: one more than the tick of its latest event before this tick (R506); 0 = none -/
  lastEvent : Cells Nat
  /-- Levels of AG0 to AG7 from outside, as last given -/
  pins : Byte
  /-- Lands that have both levels within this tick (R384, R508) -/
  blur : Byte
  /-- Lands driven in this tick, and their values (R509, R514) -/
  own : Byte × Byte
  /-- Levels of the lands sampled in the last four ticks, newest first; 0 where the input buffer was off (R384, R508,
  R516) -/
  samples : List Byte
  deriving DecidableEq, Repr

/-! ### Peripheral bus (chapter 16) -/

/-- Kinds of controller transfer (R537). -/
inductive BusOp where
  | write | read | writeRead
  deriving DecidableEq, Repr

/-- What a controller transfer is for: the host, or the device's own record (Table 16-1): the invalidation, the page
that starts at a record offset, the readback. -/
inductive BusJob where
  | host | invalidate | page (offset : Nat) | readback
  deriving DecidableEq, Repr

/-- A controller transfer. -/
structure Transfer where
  job : BusJob
  op : BusOp
  /-- 7-bit address -/
  addr : Nat
  /-- Bytes written -/
  out : List Byte
  /-- Bytes read -/
  rlen : Nat
  /-- Its START has been sent -/
  sent : Bool
  /-- Attempts lost (R540) -/
  losses : Nat
  /-- The backoff runs, or bus free is awaited before it (R540) -/
  backoff : Bool
  /-- Acknowledge polling after a write to the EEPROM block (R556) -/
  polling : Bool
  /-- An abort was written (R543) -/
  aborting : Bool
  deriving DecidableEq, Repr

/-- The target side (Table 16-4): idle, being written (the flag: a low byte was not acknowledged), being read. -/
inductive TargetState where
  | idle | written (refused : Bool) | readOut
  deriving DecidableEq, Repr

/-- The peripheral bus. -/
structure PBus where
  xfer : Option Transfer
  /-- An own transfer that waits for a host transfer to end (R554) -/
  next : Option Transfer
  /-- The 32-byte buffer -/
  buffer : Cells Byte
  /-- The target's register pointer, 0 to 0x100 -/
  pointer : Nat
  target : TargetState
  deriving DecidableEq, Repr

/-! ### Self-test (chapter 18) -/

/-- The kinds of test run (Table 18-2). -/
inductive TestKind where
  | shutdown | bstRun | startUp
  deriving DecidableEq, Repr

/-- A test run, with what it has found (Table 18-8). -/
structure TestRun where
  kind : TestKind
  step : Nat
  /-- Wake step of the bring-up from Standby in step 0 (R598); 0 = none -/
  wake : Nat
  firstFail : Option Nat
  /-- Reason code of a NOT_RUN (Table 18-4) -/
  notRun : Option Nat
  vddMv : Nat
  temp : Option Int
  analogFail : Byte
  lbistRun : Word
  lbistFail : Word
  firstSig : BitVec 32
  colFail : Nat
  colFirst : Nat
  laneFail : Nat
  auxErr : Nat
  vref : Nat
  vpixh : Nat
  vneg : Nat
  micros : Nat
  /-- An injected failure has acted in the run: its entries are marked (R629) -/
  inj : Bool
  /-- ATTN_N was low when step 1 began: the level that partition 2 holds (R602) -/
  attn : Bool
  deriving DecidableEq, Repr

/-- The start-up read of the record (R553). -/
inductive StartRead where
  | notRead | missing | got (r : List Byte)
  deriving DecidableEq, Repr

/-- The self-test. -/
structure SelfTest where
  /-- The class-A copy of the record: 64 bytes, or empty while there is none -/
  record : List Byte
  start : StartRead
  run : Option TestRun
  deriving DecidableEq, Repr
/-! ### The whole state -/

/-- What a past tick leaves to consumers that act later (R146, R283, R402): the lines that carried events in it, and the
position, EST and REF as they stood at its end. -/
structure Past where
  lines : BitVec 64
  /-- The free-run timer expired in it (R276) -/
  timer : Bool
  p : BitVec 48
  est : Bool
  ref : Bool
  deriving DecidableEq, Repr

/-- The state of the block. -/
structure State where
  /-- The member (Table 00-1): fuses -/
  part : Part
  /-- What the die's fuses hold beside the Colophon of its member: by byte offset, the difference (R34) -/
  fuses : Cells Byte
  /-- Commands that wait, first in first out: the model's own, DESIGN CHOICE (log entry 1) -/
  pending : List Instr
  /-- Stored register fields: key 256 × address + instance; a register not listed reads 0 -/
  regs : Cells Word
  pwr : Power
  clk : Clock
  port : Port
  bnd : Bindery
  exp : Exposure
  cnv : Conversion
  lanes : Lanes
  spn : Spine
  pos : Position
  aux : Aux
  tmp : Temperature
  agt : Agate
  pb : PBus
  mem : Memory
  bst : SelfTest
  flt : Faults
  /-- Crossbar lines that have carried an event since the last tick of SCLK: bit n = line n -/
  lines : BitVec 64
  /-- The last three ticks, newest first -/
  past : List Past
  /-- W1C bits that hardware has set since the last tick, by register instance: a write of this tick leaves them set
  (R633) -/
  fresh : Cells Word
  /-- The model's own counter of free values taken, no state of the spec's: DESIGN CHOICE (log entry 12) -/
  free : Nat
  deriving DecidableEq, Repr

/-- What stops the machine with a fault.  No command of this block does: the spec gives every command of its table an
effect or an answer, in every state.  The constructor names the one fault that the interface could need. -/
inductive Fault where
  /-- Raised by nothing (safe): the spec gives no command that halts the block. -/
  | halted
  deriving DecidableEq, Repr

/-- What a command is refused with. -/
inductive Refusal where
  /-- The command of this mnemonic has no meaning in the model; raised by `exec` only (safe). -/
  | notModelled (mnemonic : String)
  deriving DecidableEq, Repr

/-! ### Reset -/

/-- Instances of the register at an address (R199, Tables 06-3, 17-10): 1 where it is no window register. -/
def instancesAt (a : Nat) : Nat :=
  if a = R.QR_COL_START ∨ a = R.QR_COL_COUNT ∨ a = R.QR_STATUS then 12
  else if 0xA2 ≤ a ∧ a ≤ 0xA8 then 8
  else if 0xA9 ≤ a ∧ a ≤ 0xAE then 16
  else if a = R.TMP_BAND ∨ a = R.TMP_BLK ∨ a = R.MEM_SCRUB_RATE then 6
  else if 0xD1 ≤ a ∧ a ≤ 0xD9 then 4
  else if a = R.SLT_RETIRE then 128
  else 1

/-- The key of a register instance in `State.regs`. DESIGN CHOICE (log entry 41). -/
def regKey (a i : Nat) : Nat := a * 256 + i

/-- Every register instance that can hold a value, the keys rising. -/
def allRegs : List (Nat × Nat) :=
  (List.range 256).flatMap fun a =>
    if fieldsAt a = [] then [] else (List.range (instancesAt a)).map fun i => (a, i)

/-- Band thresholds and pass times per band after reset (Tables 14-10 and 17-11). -/
def bandThr : Nat → Nat
  | 0 => 0x80 | 1 => 0x00 | 2 => 0x19 | 3 => 0x2D | 4 => 0x41 | _ => 0x55

/-- Scrubber pass times per band after reset, in units of 10 ms (Table 17-11). -/
def bandPass : Nat → Nat
  | 0 => 0x1770 | 1 => 0x1770 | 2 => 0x0BB8 | 3 => 0x03E8 | 4 => 0x0190 | _ => 0x0064

/-- The value after POR of a register instance (R11): the fields' Reset values, and the values that depend on the
member, on the straps `cfgsel` and `spi`, or on the instance. DEDUCED (log entry 7). -/
def resetWord (p : Part) (cfgsel : Nat) (spi : Bool) (a i : Nat) : Nat :=
  if a = R.SYS_STRAPS then 4 * bit spi + cfgsel
  else if a = R.QR_ENABLE then 2 ^ p.quires - 1
  else if a = R.LEG_COL_LAST then 512 * p.quires - 1
  else if a = R.TMP_BAND then 256 * bandThr i + 16 * i
  else if a = R.MEM_SCRUB_RATE then bandPass i
  else
    (fieldsAt a).foldl (fun n f => n + f.rst * 2 ^ f.lo) 0
      + (if a = R.CP_MODE then bit spi else 0)
      + (if a = R.PB_TGT then cfgsel else 0)
      + (if a = R.SPN_M_CFG then i * 2 ^ F.SPN_M_CFG_LINE.lo else 0)

/-- The registers rebuilt instance by instance by `f`, in the canonical form. -/
def buildRegs (f : Nat → Nat → Nat) : Cells Word :=
  allRegs.filterMap fun ai =>
    let w := BitVec.ofNat 16 (f ai.1 ai.2)
    if w = 0 then none else some (regKey ai.1 ai.2, w)

/-- The identity of the events that R14 and Table 03-10 distinguish. -/
inductive Retention where
  | reset (c : ResetClass) | standby | dormant
  deriving DecidableEq, Repr

/-- Whether a Kept through string survives an event (R14, R15, R122). -/
def Kept.survives : Kept → Retention → Bool
  | .psfyd, .reset .por => false
  | .psfyd, _ => true
  | .psfy, .reset .por => false
  | .psfy, .reset .bor => false
  | .psfy, .dormant => false
  | .psfy, _ => true
  | .psy, .reset .pin => true
  | .psy, .reset .soft => true
  | .psy, .standby => true
  | .psy, _ => false
  | .sy, .reset .soft => true
  | .sy, .standby => true
  | .sy, _ => false
  | .y, .standby => true
  | .y, _ => false
  | .none, _ => false

/-- The bits of a register that survive an event, as a mask. -/
def keptMask (r : Retention) (a : Nat) : Nat :=
  (fieldsAt a).foldl
    (fun m f => if f.kept.survives r then m + (2 ^ (f.hi + 1) - 2 ^ f.lo) else m) 0
/-- A counter after reset: IDLE at 0, the prescaler at 1.0 (R386, Table 11-16). DESIGN CHOICE (log entry 8). -/
def Counter.init : Counter := { value := 0, rem := 0, run := .idle, holdHi := 0, holdMid := 0, div := 0x10000 }

/-- A compare channel after reset. DESIGN CHOICE (log entry 8). -/
def Compare.init : Compare := { value := 0, holdHi := 0, holdMid := 0, pending := false, equal := false }

/-- A capture pair after reset. DESIGN CHOICE (log entry 8). -/
def Capture.init : Capture :=
  { rise := 0, fall := 0, width := 0, seq := 0, opened := false, ovr := false, done := false, cfg := 0, undo := none }

/-- The Spine after reset (R410). -/
def Spine.init : Spine := { counters := [], compares := [], captures := [], stepped := 0, spentNow := 0, added := 0 }

/-- The position unit after reset (R436). DESIGN CHOICE (log entry 8). -/
def Position.init : Position :=
  { state := .acquire, c := 0, p := 0, v := 0, vEdge := 0, was := none, anchor := 0, anchorTick := 0, frac := 0,
    injLoss := false, ref := false, back := false, run := [], lastEdge := none, a := false, b := false,
    z := false, zOpen := false, zPrev := none, zDelta := 0, zValue := 0, holdLines := 0, holdFrom := 0, dupPend := 0, holdHi := 0, holdMid := 0 }

/-- A slot that has not run. -/
def SlotData.init : SlotData := { last := 0, results := 0, range := none, triggers := 0, request := .idle }

/-- The aux converters after reset (R471). DESIGN CHOICE (log entry 8). -/
def Aux.init : Aux :=
  { round := none, regular := none, injected := [], late := false, roundNo := 0, slots := [], settled := 0, queue := [],
    hold := 0xFFFF, flash := [], vdd := none, taken := 0 }

/-- The temperature unit after reset (R486). -/
def Temperature.init : Temperature :=
  { temp := none, valid := false, band := none, limit := false, stale := false, timer := 0 }

/-- An engine after reset (R526). -/
def Engine.init : Engine :=
  { run := .halted, why := .reset, pc := 0, flags := 0, sr := 0, fifo := [], drives := 0, values := 0, waiting := false,
    waited := 0, since := 0, asking := false, flagged := false, shifted := false, div := 0, parts := [], injected := none }

/-- The engines after reset. -/
def Agate.init : Agate := { engines := [], raised := 0, lastEvent := [], pins := 0, blur := 0, own := (0, 0), samples := [] }

/-- The peripheral bus after reset. -/
def PBus.init : PBus := { xfer := none, next := none, buffer := [], pointer := 0, target := .idle }

/-- No record, no run. -/
def SelfTest.init : SelfTest := { record := [], start := .notRead, run := none }


/-- The registers after POR (R11), with the straps sampled as `cfgsel` and `spi`. -/
def resetRegs (p : Part) (cfgsel : Nat) (spi : Bool) : Cells Word :=
  buildRegs (resetWord p cfgsel spi)

/-- Nothing compiled, no estimate valid, no set checked. -/
def Conversion.init : Conversion :=
  { black := [], rowRef := [], lastModes := none, stale := false, defects := [], compile := none, waveValid := 0, rom := false }

/-- No frame anywhere. -/
def Exposure.init : Exposure :=
  { nextNumber := 0, lastNumber := none, latest := none, exposing := none, reading := none, between := none,
    gap := 0, tdiCount := 0, tdiFirst := 0, tdiLines := [], tdiCtx := none, tdiGap := false, blackPair := 0,
    statusLines := 0, eccPages := [], timer := none, fired := false, trigTick := none, stopping := false }

/-- An empty lane. -/
def Lane.init : Lane :=
  { fifo := [], spill := [], ovf := false, marker := none, bias := 0, handed := none, tight := false, rd := false, wire := [] }

/-- No estimate. -/
def Black.init : Black := { value := 0, valid := false, sum := 0, count := 0, raw := 0 }

/-- The response buffer empty, no slot open. -/
def Port.init (mode3 onSclk : Bool) : Port :=
  { resp := .empty, burst := none, kept := none, inSlot := false, prepAtBegin := false, pendAtBegin := false, sdo := [],
    sdoFill := 0xFF, ready := false, readyBefore := false, undo := [], mode3 := mode3, onSclk := onSclk }

/-- No transaction, no bank sync. -/
def Bindery.init : Bindery :=
  { txn := .idle, staged := [], wroteWave := false, wroteLut := false, wroteAdc := false, point := .immediate,
    below := false, syncWave := .none, syncLut := .none, syncAdc := .none }

/-- Every rail on, and every rail off. -/
def Rails.on : Rails := ⟨true, true, true, true, true, true⟩
/-- Every rail off. -/
def Rails.off : Rails := ⟨false, false, false, false, false, false⟩

/-- The memories with nothing written. DESIGN CHOICE (log entry 9). -/
def Memory.init : Memory :=
  { cells := [], valid := [], writebacks := [], corrected := [], flip := none, scrubPos := 0,
    interval := 0, paced := 0, lastHits := [], hits := [], records := 0, macroRows := [], declared := [], failed := none,
    erased := none, elapsed := 0, pages := [], failing := [] }

/-- The machine right after POR: every register field at its Reset value (R11), which for SYS_STATUS.STATE is Armed
and for CLK_STATUS is boot ratio, not locked; every queue, buffer and store empty.  The straps are read as 0. DEDUCED
(log entry 7); DESIGN CHOICE (log entries 8 and 10). -/
def State.reset : State :=
  { part := .nl2612
    fuses := []
    pending := []
    regs := resetRegs .nl2612 0 false
    pwr := { state := .armed, safeWhy := .notSafe, from_ := .armed, inReset := none, kind := .reset .por,
             toArmed := true, step := 0, stepRunning := false, supplyWait := false, warn := false,
             warnReal := false, hold := false, holdCount := false, resetLow := false, testHigh := false,
             rails := Rails.on, cp1Ok := false, cp2Ok := false, droop1 := none, droop2 := none, mute := false }
    clk := { boot := true, locked := false, refPresent := false, relocking := false, toFull := false,
             owed := false, time := 0, started := true,
             held := false, now := 0 }
    port := Port.init false true
    bnd := Bindery.init
    exp := Exposure.init
    cnv := Conversion.init
    lanes := { lanes := [], running := true, annexSeq := 0 }
    spn := Spine.init
    pos := Position.init
    aux := Aux.init
    tmp := Temperature.init
    agt := Agate.init
    pb := PBus.init
    mem := Memory.init
    bst := SelfTest.init
    flt := { events := [], head := [], pending := none, active := [], mark := false }
    lines := 0
    past := []
    fresh := []
    free := 0 }

end Sys2Proof.Machine
end

