-- ==== Sys2Proof/Machine/Ops.lean ====
section
/-! DEFINITION.
The named operations every unit shares: reading and writing register fields, counting, raising crossbar lines,
taking free values, and the passing of a tick.
-/
namespace Sys2Proof.Machine

/-- `n / d` rounded to the nearest integer, ties up (R308, R439). -/
def roundDiv (n : Int) (d : Nat) : Int := (2 * n + d) / (2 * d)

/-! ### Register fields -/

/-- A field read out of a register word. -/
def Field.of (f : Field) (w : Word) : Nat := bits w.toNat f.hi f.lo

/-- A register word with a field replaced. -/
def Field.into (f : Field) (w : Word) (v : Nat) : Word :=
  BitVec.ofNat 16 (w.toNat - f.of w * 2 ^ f.lo + v % 2 ^ (f.hi + 1 - f.lo) * 2 ^ f.lo)

/-- The stored value of a register instance. -/
def State.reg (s : State) (a : Nat) (i : Nat := 0) : Word := Cells.get 0 s.regs (regKey a i)

/-- The state with a register instance storing `w`. -/
def State.setReg (s : State) (a : Nat) (w : Word) (i : Nat := 0) : State :=
  { s with regs := Cells.set 0 s.regs (regKey a i) w }

/-- A stored field as a number. -/
def State.fld (s : State) (f : Field) (i : Nat := 0) : Nat := f.of (s.reg f.addr i)

/-- A stored one-bit field. -/
def State.flag (s : State) (f : Field) (i : Nat := 0) : Bool := s.fld f i == 1

/-- The state with a field storing `v`. -/
def State.setFld (s : State) (f : Field) (v : Nat) (i : Nat := 0) : State :=
  s.setReg f.addr (f.into (s.reg f.addr i) v) i

/-- The bits of a register that hardware has set in this tick (R633). -/
def State.freshBits (s : State) (a : Nat) (i : Nat := 0) : Word := Cells.get 0 s.fresh (regKey a i)

/-- The state with the bits `w` of a register set by hardware in this tick (R633). -/
def State.markFresh (s : State) (a : Nat) (w : Word) (i : Nat := 0) : State :=
  { s with fresh := Cells.set 0 s.fresh (regKey a i) (s.freshBits a i ||| w) }

/-- The state with a one-bit field storing `b`; a W1C flag that hardware sets stays set in this tick (R633). -/
def State.setFlag (s : State) (f : Field) (b : Bool) (i : Nat := 0) : State :=
  let t := s.setFld f (bit b) i
  if b && f.acc == .w1c then t.markFresh f.addr (f.into 0 0xFFFF) i else t

/-- The state with a counter field one higher, saturating at its largest value. -/
def State.count (s : State) (f : Field) (i : Nat := 0) : State :=
  s.setFld f (satSucc (2 ^ (f.hi + 1 - f.lo) - 1) (s.fld f i)) i

/-- `n` counts of a counter field. -/
def State.countBy (s : State) (f : Field) : Nat → State
  | 0 => s
  | n + 1 => State.countBy (s.count f) f n

/-! ### Crossbar lines -/

/-- The state with crossbar line `n` carrying an event in this tick. -/
def State.raiseLine (s : State) (n : Nat) : State := { s with lines := s.lines ||| (1#64 <<< n) }

/-- Lines that can carry events: neither reserved nor those of an absent engine (R37, R401, Table 11-7). -/
def State.lineExists (s : State) (l : Nat) : Bool :=
  l < 36 || (40 ≤ l && l < 40 + 2 * s.part.engines) || (48 ≤ l && l < 60)

/-- Whether line `n` has carried an event since the last tick. -/
def State.lineHigh (s : State) (n : Nat) : Bool := s.lines.getLsbD n

/-! ### Free values -/

/-- The state with the free-value counter advanced: the value taken is the one at the counter before. DESIGN CHOICE
(log entry 12). -/
def State.spent (s : State) : State := { s with free := s.free + 1 }

/-! ### Power states -/

/-- The states in which class B and the units are powered and run: Standby, Armed, Streaming. -/
def State.up (s : State) : Bool :=
  s.pwr.state == .standby || s.pwr.state == .armed || s.pwr.state == .streaming

/-- Armed or Streaming: analogue, Slate and lanes are powered (Table 03-3). -/
def State.analog (s : State) : Bool := s.pwr.state == .armed || s.pwr.state == .streaming

/-- CLK_STATUS.LOST: the stream gate is closed (R150). -/
def State.gated (s : State) : Bool := s.flag F.CLK_STATUS_LOST

/-- The velocity estimator is frozen: from a loss of REFCLK until the relock completes (R150, R151). -/
def State.frozen (s : State) : Bool := s.gated && !s.clk.locked

/-- PWR_STATUS.CP1_OK, or CP2_OK of the second pump: live, and open from the tick after a droop on, of which the spec
gives no end (R109). DESIGN CHOICE (log entry 12). -/
def State.pumpOk (s : State) (second : Bool) : Bool :=
  (if second then s.pwr.cp2Ok else s.pwr.cp1Ok)
    || !s.flt.active.contains (if second then 2 else 1) &&
      (if second then s.pwr.droop2 else s.pwr.droop1).any fun t =>
        decide (t < s.clk.now) && Config.pumpBack second s.clk.now

/-- A number of low bits of CLK_TIME. -/
def State.timeBits (s : State) (w : Nat) : Nat := s.clk.time.toNat % 2 ^ w

end Sys2Proof.Machine
end

