-- ==== Sys2Proof/Machine/Flags.lean ====
section
/-! DEFINITION.
Flags and what they report: the event log (R618, R619), the stream-loss flags, and the attention causes of Table 19-5.
-/
namespace Sys2Proof.Machine

/-! ### The event log -/

/-- UNIT of an event that concerns no instance (Table 19-2). -/
def noUnit : Nat := 0x7F

/-- The device raises an event: one entry, or a count of FLT_EV_LOST where the log holds 64 (R618, R619). -/
def State.raise (s : State) (code unit data : Nat) : State :=
  if s.flt.events.length < 64 then
    { s with flt := { s.flt with
        events := s.flt.events ++
          [{ code := code, inj := s.flt.mark, unit := unit, data := data % 2 ^ 16, time := s.timeBits 32,
             carried := false }] } }
  else s.count F.FLT_EV_LOST_COUNT

/-- The eight bytes of an event-log entry (Table 19-2). -/
def Event.bytes (e : Event) : List Byte :=
  bytesBE 1 e.code ++ bytesBE 1 (128 * bit e.inj + e.unit % 128) ++ bytesBE 2 e.data ++ bytesBE 4 e.time

/-- A flag that raises an event when it goes from 0 to 1 (Table 19-3). -/
def State.setAndRaise (s : State) (f : Field) (code unit data : Nat) : State :=
  let t := s.setFlag f true
  if s.flag f then t else t.raise code unit data

/-- The STREAM_LOSS flags: set, and raised when they go from 0 to 1 (Table 19-3). -/
def State.streamLoss (s : State) (f : Field) (unit data : Nat) : State := s.setAndRaise f 0x60 unit data

/-- `f` with the entries it writes marked INJ = 1 (R629). -/
def State.injected (s : State) (f : State → State) : State :=
  let t := f { s with flt := { s.flt with mark := true } }
  { t with flt := { t.flt with mark := s.flt.mark } }

/-! ### Pending injections (R631) -/

/-- The argument of the pending injection `det`, if that one is pending. -/
def State.injArg (s : State) (det : Nat) : Option Nat :=
  match s.flt.pending with
  | some (d, a) => if d = det then some a else none
  | none => none

/-- The pending injection has acted, or is cancelled. -/
def State.injDone (s : State) : State := { s with flt := { s.flt with pending := none } }

/-- The state is `st`: a change cancels what is pending (R631). -/
def State.changesTo (s : State) (st : PState) : State :=
  let t := if s.pwr.state = st then s else s.injDone
  { t with pwr := { t.pwr with state := st } }

/-- `f`, with the entries it writes marked when `b` (R629). -/
def State.injectedIf (s : State) (b : Bool) (f : State → State) : State := if b then s.injected f else f s

/-! ### Live flags -/

/-- A pass of the scrubber can make progress (R578, R579): enabled, rate not 0, in a state that runs it. -/
def State.scrubRuns (s : State) (band : Nat) : Bool :=
  s.flag F.MEM_CTRL_SCRUB_EN && s.fld F.MEM_SCRUB_RATE_PASS band != 0 && s.up

/-- Some bank sync is pending or running (BND_STATUS.SYNC). -/
def State.syncing (s : State) : Bool :=
  s.bnd.syncWave != .none || s.bnd.syncLut != .none || s.bnd.syncAdc != .none

/-- Event-log entries not yet carried by an annex folio (FLT_EV_STAT.UNCARRIED). -/
def State.uncarried (s : State) : Nat := (s.flt.events.filter fun e => !e.carried).length

end Sys2Proof.Machine
end

