-- ==== Sys2Proof/Machine/Operands.lean ====
section
/-! DEFINITION.
The operand forms of the control port (chapter 05): bits, bytes, checksums, packets and their checks 1 to 5, and the
coding of responses; and the CRC-32 of folios.
-/
namespace Sys2Proof.Machine

/-! ### Checksums -/

/-- One bit of the CRC-16 of ITU-T V.41 (R167). -/
def crc16Bit (c : Word) (b : Bool) : Word :=
  if c.getLsbD 15 != b then (c <<< 1) ^^^ 0x1021 else c <<< 1

/-- A byte of it, most significant bit first. -/
def crc16Byte (c : Word) (b : Byte) : Word :=
  (List.range 8).foldl (fun c i => crc16Bit c (b.getLsbD (7 - i))) c

/-- The CRC-16 of a packet, a response or a record (R167). -/
def crc16 (bs : List Byte) : Word := bs.foldl crc16Byte 0

/-- A byte of the CRC-32 of IEEE 802.3, reflected. -/
def crc32Byte (c : BitVec 32) (b : Byte) : BitVec 32 :=
  (List.range 8).foldl (fun c _ => if c.getLsbD 0 then (c >>> 1) ^^^ 0xEDB88320 else c >>> 1) (c ^^^ b.setWidth 32)

/-- The CRC-32 of a folio (R353). -/
def crc32 (bs : List Byte) : BitVec 32 := bs.foldl crc32Byte 0xFFFFFFFF ^^^ 0xFFFFFFFF

/-! ### Bits and bytes (R160) -/

/-- The byte of eight bits, most significant first. -/
def byteOf (b : List Bool) : Byte := BitVec.ofNat 8 (b.foldl (fun n x => 2 * n + bit x) 0)

/-- The whole bytes of a bit string, at most `n` of them. -/
def wholeBytes : Nat → List Bool → List Byte
  | 0, _ => []
  | n + 1, b => if b.length < 8 then [] else byteOf (b.take 8) :: wholeBytes n (b.drop 8)

/-! ### Packets (R165 to R168) -/

/-- Opcodes that carry a payload (Table 05-5). -/
def hasPayload (op : Nat) : Bool := op == 0x82 || op == 0x83 || op == 0x85 || op == 0x87 || op == 0x8B

/-- Assigned opcodes. -/
def knownOpcode (op : Nat) : Bool := 0x80 ≤ op && op ≤ 0x8C

/-- Opcodes that allow INSPECT (R184). -/
def allowsInspect (op : Nat) : Bool := op == 0x80 || op == 0x81 || op == 0x84 || op == 0x89

/-- INSPECT of a FLAGS byte. -/
def Packet.inspect (p : Packet) : Bool := p.flags.getLsbD 7
/-- SEQ of a FLAGS byte. -/
def Packet.seq (p : Packet) : Nat := p.flags.toNat % 16
/-- Whether a response is wanted: RESP, treated as 1 for the reading commands (R174). -/
def Packet.wantsResponse (p : Packet) : Bool :=
  p.flags.getLsbD 6 || p.opcode == 0x81 || p.opcode == 0x84 || p.opcode == 0x89

/-- The packet's bytes, CRC left out. -/
def Packet.body (p : Packet) : List Byte :=
  [BitVec.ofNat 8 p.opcode, p.flags] ++ bytesBE 4 p.addr.toNat ++ bytesBE 2 p.len ++ p.payload

/-- The packet's bytes with its CRC. -/
def Packet.bytes (p : Packet) : List Byte := p.body ++ bytesBE 2 (crc16 p.body).toNat

/-- The packet that whole bytes begin with, if they reach its payload's end. -/
def Packet.ofBytes (b : List Byte) : Packet :=
  let op := (b.getD 0 0).toNat
  let len := natBE ((b.drop 6).take 2)
  { opcode := op, flags := b.getD 1 0, addr := BitVec.ofNat 32 (natBE ((b.drop 2).take 4)), len := len
    payload := if hasPayload op then (b.drop 8).take len else [] }

/-- Whether the LENGTH is in the opcode's accepted set (Table 05-5). -/
def Packet.lengthOk (p : Packet) : Bool :=
  match p.opcode with
  | 0x81 => 2 ≤ p.len && p.len ≤ 64 && p.len % 2 == 0
  | 0x82 => 2 ≤ p.len && p.len ≤ 64 && p.len % 2 == 0
  | 0x83 => p.len == 4
  | 0x84 => 1 ≤ p.len && p.len ≤ 1024
  | 0x85 => 1 ≤ p.len && p.len ≤ 1024
  | 0x87 => if p.addr.toNat % 4 = 3 then p.len == 6 else p.len == 0
  | 0x89 => 1 ≤ p.len && p.len ≤ 1024
  | 0x8B => p.len == 0 || p.len == 2
  | _ => p.len == 0

/-! ### Status codes (Table 05-8) -/

/-- OK. -/
def Status.ok : Nat := 0x00
/-- BUSY. -/
def Status.busy : Nat := 0x01
/-- CRC. -/
def Status.crc : Nat := 0x02
/-- SHORT. -/
def Status.short : Nat := 0x03
/-- LENGTH. -/
def Status.length : Nat := 0x04
/-- OPCODE. -/
def Status.opcode : Nat := 0x05
/-- FLAGS. -/
def Status.flags : Nat := 0x06
/-- SAFE. -/
def Status.safe : Nat := 0x07
/-- LOCKOUT. -/
def Status.lockout : Nat := 0x08
/-- STATE. -/
def Status.state : Nat := 0x09
/-- RANGE. -/
def Status.range : Nat := 0x0A
/-- NO_UNIT. -/
def Status.noUnit : Nat := 0x0B
/-- READ_ONLY. -/
def Status.readOnly : Nat := 0x0C
/-- LOST_WRITE. -/
def Status.lostWrite : Nat := 0x0D

/-- Checks 4 and 5 of R178 on a packet whose CRC is right: the failing status, if any. -/
def Packet.check (p : Packet) : Option Nat :=
  if !knownOpcode p.opcode then some Status.opcode
  else if bits p.flags.toNat 5 4 ≠ 0 || (p.inspect && !allowsInspect p.opcode) then some Status.flags
  else if !p.lengthOk then some Status.length
  else none

/-! ### Responses (R170) -/

/-- The longest payload accepted for a CRC search (check 2 of R178). -/
def maxPayload : Nat := 1024

/-- A response without its PORT byte. -/
def Response.of (p : Packet) (status : Nat) (data : List Byte) : Response :=
  { opcode := p.opcode, flags := p.flags.toNat, status := status, data := data, repeated := false, refused := none }

/-- The bytes of a delivery with PORT byte `port`. -/
def Response.bytes (r : Response) (port : Nat) : List Byte :=
  let b := [BitVec.ofNat 8 r.opcode, BitVec.ofNat 8 r.flags, BitVec.ofNat 8 r.status, BitVec.ofNat 8 port]
    ++ bytesBE 2 r.data.length ++ r.data
  b ++ bytesBE 2 (crc16 b).toNat

end Sys2Proof.Machine
end

