-- ==== Sys2Proof/Machine/Memory.lean ====
section
/-! DEFINITION.
The stores and the Slate (chapter 17): codes, cells, valid bits, reads that check, writes that encode, the fault log
they report to, and the layout of Table 21-3.  Cells are held as the raw image of R587.
-/
namespace Sys2Proof.Machine

/-! ### Stores (Table 21-3) -/

/-- Store IDs. -/
def Store.wave : Nat := 1
/-- Store ID of CAL. -/
def Store.cal : Nat := 2
/-- Store ID of DEFECT. -/
def Store.defect : Nat := 3
/-- Store ID of AGATE. -/
def Store.agate : Nat := 4
/-- Store ID of LUT. -/
def Store.lut : Nat := 5
/-- Store ID of the Slate. -/
def Store.slate : Nat := 6
/-- Store ID of LOG. -/
def Store.log : Nat := 7
/-- Store ID of ADCSEQ. -/
def Store.adcseq : Nat := 8
/-- Store ID of the Colophon. -/
def Store.colophon : Nat := 9
/-- Store ID of TRACE. -/
def Store.trace : Nat := 10

/-- Size of a store in bytes, per bank where it is banked (Table 21-3); 0 for an unassigned ID. -/
def storeSize (p : Part) : Nat → Nat
  | 1 => 16384 | 2 => 98560 | 3 => 32768 | 4 => 1024 | 5 => 8192 | 6 => 2048 * p.pages | 7 => 8192 | 8 => 256
  | 9 => 256 | 10 => 4096 | _ => 0

/-- Whether a store is banked: WAVE, LUT, ADCSEQ (Table 06-1). -/
def banked (id : Nat) : Bool := id == 1 || id == 5 || id == 8

/-- Whether a store is byte-parity coded (Table 17-2). -/
def parityCoded (id : Nat) : Bool := banked id || id == 4 || id == 10

/-- Bytes of a store word (Table 17-2). -/
def wordSize (id : Nat) : Nat := if id = Store.slate then 16 else 4

/-- Bytes of a raw word (Table 17-2). -/
def rawSize (id : Nat) : Nat := if id = Store.slate then 18 else 5

/-- Whether the store exists on the member: assigned, and present (R26). -/
def storePresent (p : Part) (id : Nat) : Bool :=
  1 ≤ id && id ≤ 10 && (id != Store.slate || p.full)

/-- Whether a byte of a present store belongs to an absent unit's region (R25, R26): CAL regions of absent quires,
AGATE regions of absent engines. -/
def absentByte (p : Part) (id off : Nat) : Bool :=
  (id == Store.cal && off < 0x18000 && p.quires ≤ off / 0x2000) || (id == Store.agate && p.engines ≤ off / 0x100)

/-- Whether a byte range touches an absent region; both kinds of region are whole multiples of 256 bytes. -/
def absentRange (p : Part) (id off len : Nat) : Bool :=
  (List.range (len / 256 + 1)).any (fun k => 256 * k < len && absentByte p id (off + 256 * k))
    || (len != 0 && absentByte p id (off + len - 1))

/-- The base key of a store's bank in `Memory.cells` and `Memory.valid`. -/
def bankBase (id : Nat) (bank : Bool) : Nat := (id * 2 + bit bank) * 2 ^ 23

/-- The cell address of a raw byte (R587). -/
def cellAddr (id : Nat) (bank : Bool) (raw : Nat) : Nat := bankBase id bank + raw

/-- The key of a word's valid bit. -/
def WordAddr.key (w : WordAddr) : Nat := bankBase w.store w.bank + w.word

/-- The cell address of a word's first raw byte. -/
def WordAddr.cell (w : WordAddr) : Nat := cellAddr w.store w.bank (w.word * rawSize w.store)

/-- The byte offset of a word in its store (Table 17-5). -/
def WordAddr.offset (w : WordAddr) : Nat := w.word * wordSize w.store

/-- What a cell that nothing has written reads as (the model's choice; such cells lie in invalid words). DESIGN
CHOICE (log entry 9). -/
def cellDefault : Byte := 0

/-! ### Codes -/

/-- Multiplication by α in GF(2⁸) with polynomial x⁸ + x⁴ + x³ + x² + 1 (R563). -/
def gfDouble (a : Byte) : Byte := if a.getLsbD 7 then (a <<< 1) ^^^ 0x1D else a <<< 1

/-- a · α^n. -/
def gfScale (a : Byte) : Nat → Byte
  | 0 => a
  | n + 1 => gfDouble (gfScale a n)

/-- Product in GF(2⁸): the sum of a · α^i over the bits i of b. -/
def gfMul (a b : Byte) : Byte :=
  (List.range 8).foldl (fun r i => if b.getLsbD i then r ^^^ gfScale a i else r) 0

/-- XOR of all bytes. -/
def xorAll (bs : List Byte) : Byte := bs.foldl (· ^^^ ·) 0

/-- S1 of a symbol list: c0 + c1·α + c2·α² + … (R563), by Horner's rule. -/
def slateS1 : List Byte → Byte
  | [] => 0
  | c :: cs => c ^^^ gfDouble (slateS1 cs)

/-- 1 / (α¹⁶ + α¹⁷), by which the check symbols solve S0 = S1 = 0. -/
def slateSolve : Byte := 249

/-- The check symbols c16, c17 of 16 data bytes (R563). -/
def slateCheck (d : List Byte) : List Byte :=
  let c17 := gfMul slateSolve (slateS1 d ^^^ gfScale (xorAll d) 16)
  [xorAll d ^^^ c17, c17]

/-- The SEC-DED columns of d0 to d31: the 7-bit values with exactly three bits set, rising (R567). -/
def secColumns : List Nat :=
  [7, 11, 13, 14, 19, 21, 22, 25, 26, 28, 35, 37, 38, 41, 42, 44,
   49, 50, 52, 56, 67, 69, 70, 73, 74, 76, 81, 82, 84, 88, 97, 98]

/-- The XOR of the columns of the data bits that are 1; `d` is the 32-bit value with d31 first (R567). -/
def secSyndrome (d : Nat) (cols : List Nat) (i : Nat) : Nat :=
  match cols with
  | [] => 0
  | c :: cs => (if d / 2 ^ i % 2 = 1 then c else 0) ^^^ secSyndrome d cs (i + 1)

/-- The check byte of 4 data bytes: c6 to c0 (R567, R587). -/
def secCheck (d : List Byte) : Byte := BitVec.ofNat 8 (secSyndrome (natBE d) secColumns 0)

/-- The parity bit of a byte: the XOR of its bits (R568). -/
def parity (b : Byte) : Nat := ((List.range 8).filter fun i => b.getLsbD i).length % 2

/-- The parity byte of 4 data bytes: bit 3 for byte 0 (R568, R587). -/
def parityCheck (d : List Byte) : Byte := BitVec.ofNat 8 (d.foldl (fun n b => 2 * n + parity b) 0)

/-- A raw word: the data bytes with their check bits (R563, R567, R568). -/
def encodeWord (id : Nat) (d : List Byte) : List Byte :=
  if id = Store.slate then d ++ slateCheck d
  else if parityCoded id then d ++ [parityCheck d]
  else d ++ [secCheck d]

/-- What a decoder finds in a raw word. -/
inductive Decoded where
  | clean (d : List Byte)
  /-- Corrected data, syndrome for the record, and the symbol (Slate) corrected -/
  | corrected (d : List Byte) (syn : Nat) (sym : Nat)
  | bad (syn : Nat)
  deriving DecidableEq, Repr

/-- The symbol number 0 to 17 whose power of α times S0 is S1, if any (Table 17-3). -/
def slateLocate (s0 s1 : Byte) : Option Nat := (List.range 18).find? fun j => gfScale s0 j = s1

/-- The list with `f` applied to entry `i`. -/
def listModify {α : Type} (f : α → α) : Nat → List α → List α
  | _, [] => []
  | 0, x :: xs => f x :: xs
  | i + 1, x :: xs => x :: listModify f i xs

/-- The Slate decoder (R563, Table 17-3), with the erasure in force. -/
def slateDecode (erased : Option Nat) (c : List Byte) : Decoded :=
  let s0 := xorAll c
  let s1 := slateS1 c
  let syn := s0.toNat * 256 + s1.toNat
  if s0 = 0 ∧ s1 = 0 then .clean (c.take 16)
  else match erased with
    | some m =>
      if s0 ≠ 0 ∧ s1 = gfScale s0 m then .corrected ((listModify (· ^^^ s0) m c).take 16) syn m else .bad syn
    | none =>
      if s0 = 0 ∨ s1 = 0 then .bad syn
      else match slateLocate s0 s1 with
        | some j => .corrected ((listModify (· ^^^ s0) j c).take 16) syn j
        | none => .bad syn

/-- The SEC-DED decoder (R567): data byte 0 holds d31 to d24. -/
def secDecode (c : List Byte) : Decoded :=
  let d := natBE (c.take 4)
  let syn := secSyndrome d secColumns 0 ^^^ ((c.getD 4 0).toNat % 128)
  if syn = 0 then .clean (c.take 4)
  else match secColumns.idxOf? syn with
    | some i => .corrected (bytesBE 4 (d ^^^ 2 ^ i)) syn 0
    | none => if (List.range 7).any (fun k => 2 ^ k = syn) then .corrected (c.take 4) syn 0 else .bad syn

/-- The parity decoder (R568): bit n of the syndrome says that byte n failed (Table 17-5). -/
def parityDecode (c : List Byte) : Decoded :=
  let p := (c.getD 4 0).toNat
  let syn := ((List.range 4).filter fun n => parity (c.getD n 0) ≠ p / 2 ^ (3 - n) % 2).foldl (fun a n => a + 2 ^ n) 0
  if syn = 0 then .clean (c.take 4) else .bad syn

/-- The decoder of a store. -/
def decodeWord (id : Nat) (erased : Option Nat) (c : List Byte) : Decoded :=
  if id = Store.slate then slateDecode erased c
  else if parityCoded id then parityDecode c
  else secDecode c

/-! ### Words -/

/-- The raw bytes of a word as the cells stand. -/
def Memory.raw (m : Memory) (w : WordAddr) : List Byte := Cells.getRange cellDefault m.cells w.cell (rawSize w.store)

/-- Whether a word is valid (R564). -/
def Memory.isValid (m : Memory) (w : WordAddr) : Bool := Cells.get false m.valid w.key

/-- The memory with raw bytes stored in a word, its valid bit set, and a write-back waiting for it cancelled (R573). -/
def Memory.putRaw (m : Memory) (w : WordAddr) (raw : List Byte) : Memory :=
  { m with
    cells := Cells.setRange cellDefault m.cells w.cell raw
    valid := Cells.set false m.valid w.key true
    writebacks := m.writebacks.filter fun e => e.1 ≠ w }

/-- A word put back as it stood: raw bytes and valid bit. -/
def Memory.restore (m : Memory) (e : WordAddr × List Byte × Bool) : Memory :=
  { m with
    cells := Cells.setRange cellDefault m.cells e.1.cell (List.ofFn fun i : Fin (rawSize e.1.store) => e.2.1.getD i 0)
    valid := Cells.set false m.valid e.1.key e.2.2 }

/-- The flip mask applied to a raw word at position `pos` (Table 17-8). -/
def flipRaw (id pos : Nat) (mask : Byte) (raw : List Byte) : List Byte :=
  if id ≠ Store.slate ∧ pos = 4 then
    listModify (· ^^^ (if parityCoded id then mask &&& 0x0F else mask &&& 0x7F)) 4 raw
  else listModify (· ^^^ mask) pos raw

/-- A word written with its code, the armed flip of its store acting on it once (R566, R586). -/
def State.writeWord (s : State) (w : WordAddr) (d : List Byte) : State :=
  let raw := encodeWord w.store d
  if s.mem.flip = some w.store then
    let raw' := flipRaw w.store (s.fld F.MEM_FLIP_MASK_POS) (BitVec.ofNat 8 (s.fld F.MEM_FLIP_MASK_MASK)) raw
    { s with mem := { s.mem.putRaw w raw' with flip := none } }
  else { s with mem := s.mem.putRaw w raw }

/-! ### The fault log (R622, R623) -/

/-- The sixteen bytes of a fault-log entry (Table 19-4): CHECK is the XOR of the others. -/
def FaultEntry.bytes (e : FaultEntry) : List Byte :=
  let b := bytesBE 1 e.kind ++ bytesBE 1 e.store ++ bytesBE 1 (128 * bit e.inj + 16 * e.reader + 8 * bit e.bank)
    ++ bytesBE 3 e.offset ++ bytesBE 2 e.syndrome ++ bytesBE 6 e.time ++ bytesBE 1 e.seq
  b ++ [xorAll b]

/-- An entry appended to the LOG store at FLT_LOG_WR, which advances (R623). -/
def State.appendLog (s : State) (e : FaultEntry) : State :=
  let n := s.fld F.FLT_LOG_WR_WR
  let b := e.bytes
  let t := (List.range 4).foldl
    (fun t k => t.writeWord ⟨Store.log, false, 4 * n + k⟩ ((b.drop (4 * k)).take 4)) s
  let t := t.setFld F.FLT_LOG_WR_WR ((n + 1) % 512)
  if n = 511 then t.setFlag F.FLT_LOG_WR_WRAPPED true else t

/-- SEQ of the next fault-log entry: 0 for the first after a POR, then one more modulo 256 (R622). -/
def State.nextSeq (s : State) : Nat :=
  if s.fld F.FLT_STATUS_COUNT = 0 then 0 else (s.fld F.FLT_STATUS_SEQ + 1) % 256

/-- A fault-log entry written in the detecting tick: to the head, to the LOG store while VCORE is on, with its event
FAULT_LOGGED (R622, R623, Table 19-3). -/
def State.logFault (s : State) (kind store reader : Nat) (bank : Bool) (offset syn : Nat) : State :=
  let seq := s.nextSeq
  let e : FaultEntry :=
    { kind := kind, store := store, inj := s.flt.mark, reader := reader, bank := bank, offset := offset,
      syndrome := syn, time := s.clk.time.toNat, seq := seq, copied := s.pwr.rails.vcore }
  let lost := match Cells.get none s.flt.head (seq % 8) with
    | some old => !old.copied
    | none => false
  let s := { s with flt := { s.flt with head := Cells.set none s.flt.head (seq % 8) (some e) } }
  let s := s.setFld F.FLT_STATUS_SEQ seq
  let s := s.setFld F.FLT_STATUS_COUNT (satSucc 8 (s.fld F.FLT_STATUS_COUNT))
  let s := s.setFlag F.FLT_STATUS_NEW true
  let s := if lost then s.setFlag F.FLT_STATUS_OVW true else s
  let s := if s.pwr.rails.vcore then s.appendLog e else s
  s.raise 0x4A store (256 * kind + seq)

/-- READER codes of Table 19-4. -/
inductive Reader where
  | pixelPath | lane | scrubber | hostRead | hostNarrow | bankSync | engine | internal
  deriving DecidableEq, Repr

/-- The READER field value (Table 19-4). -/
def Reader.code : Reader → Nat
  | .pixelPath => 0 | .lane => 1 | .scrubber => 2 | .hostRead => 3 | .hostNarrow => 4 | .bankSync => 5
  | .engine => 6 | .internal => 7

/-- Kind codes of Table 19-4. -/
def kindCorr : Nat := 1
/-- UNCORR. -/
def kindUncorr : Nat := 2
/-- REPEAT. -/
def kindRepeat : Nat := 3
/-- MACRO. -/
def kindMacro : Nat := 4
/-- WATCHDOG. -/
def kindWatchdog : Nat := 5

/-! ### Checked reads (R572 to R574) -/

/-- What a checked read gives: the data, whether it was corrected, and the symbol and syndrome of the correction. -/
structure ReadOut where
  data : List Byte
  corrected : Bool
  syn : Nat
  sym : Nat
  deriving DecidableEq, Repr

/-- A read of one word: zeros from an invalid word; corrected data counted and scheduled for write-back unless
`inspect`; `none` where it is uncorrectable, the record written and the store noted in `failing` for the FAULT reset
that ends the command (R564, R572 to R574). DEDUCED (log entry 6). -/
def State.readWord (s : State) (rd : Reader) (inspect : Bool) (w : WordAddr) : Option ReadOut × State :=
  if s.mem.isValid w then
    match decodeWord w.store s.mem.erased (s.mem.raw w) with
    | .clean d => (some ⟨d, false, 0, 0⟩, s)
    | .corrected d syn sym =>
      let r : ReadOut := ⟨d, true, syn, sym⟩
      if inspect then (some r, s)
      else
        let m := { s.mem with
          corrected := Cells.modify 0 s.mem.corrected w.store (satSucc 0xFFFF)
          writebacks := s.mem.writebacks.filter (fun e => e.1 ≠ w) ++ [(w, encodeWord w.store d)] }
        (some r, { s with mem := m }.setFlag F.MEM_STATUS_CORR true)
    | .bad syn =>
      let t := s.logFault kindUncorr w.store rd.code w.bank w.offset syn
      (none, { t with mem := { t.mem with failing := w.store :: t.mem.failing } })
  else (some ⟨List.replicate (wordSize w.store) 0, false, 0, 0⟩, s)

/-- The data of `n` consecutive words, whether any was corrected; stops at the first uncorrectable word. -/
def State.readWords (s : State) (rd : Reader) (inspect : Bool) (id : Nat) (bank : Bool) (k : Nat) :
    Nat → Option (List Byte × Bool) × State
  | 0 => (some ([], false), s)
  | n + 1 =>
    match s.readWord rd inspect ⟨id, bank, k⟩ with
    | (none, t) => (none, t)
    | (some r, t) =>
      match State.readWords t rd inspect id bank (k + 1) n with
      | (none, u) => (none, u)
      | (some (d, c), u) => (some (r.data ++ d, r.corrected || c), u)

/-- The bytes of a range of a store, checked (R572). -/
def State.readBytes (s : State) (rd : Reader) (inspect : Bool) (id : Nat) (bank : Bool) (off len : Nat) :
    Option (List Byte × Bool) × State :=
  let z := wordSize id
  let k := off / z
  match s.readWords rd inspect id bank k (if len = 0 then 0 else (off + len - 1) / z + 1 - k) with
  | (none, t) => (none, t)
  | (some (d, c), t) => (some ((d.drop (off - k * z)).take len, c), t)

/-! ### Writes (R566) -/

/-- `new` laid over `old` from position `at` on. -/
def overlay (old new : List Byte) (at_ : Nat) : List Byte :=
  old.take at_ ++ new.take (old.length - at_) ++ old.drop (at_ + new.length)

/-- A write of some bytes of one word, from byte `at` of the word: whole, narrow with a checked read, or narrow in a
byte-parity store, which writes only the bytes given with their parity (R566). -/
def State.writePart (s : State) (w : WordAddr) (at_ : Nat) (d : List Byte) : State :=
  let z := wordSize w.store
  if at_ = 0 ∧ d.length = z then s.writeWord w d
  else if parityCoded w.store then
    if s.mem.isValid w then
      let raw := s.mem.raw w
      let old := raw.take 4
      let p := (raw.getD 4 0).toNat
      let flags := (List.range 4).map fun n =>
        if at_ ≤ n ∧ n < at_ + d.length then parity (d.getD (n - at_) 0) else p / 2 ^ (3 - n) % 2
      let raw' := overlay old d at_ ++ [BitVec.ofNat 8 (flags.foldl (fun a b => 2 * a + b) 0)]
      if s.mem.flip = some w.store then
        let raw'' :=
          flipRaw w.store (s.fld F.MEM_FLIP_MASK_POS) (BitVec.ofNat 8 (s.fld F.MEM_FLIP_MASK_MASK)) raw'
        { s with mem := { s.mem.putRaw w raw'' with flip := none } }
      else { s with mem := s.mem.putRaw w raw' }
    else s.writeWord w (overlay (List.replicate z 0) d at_)
  else
    match s.readWord .hostNarrow false w with
    | (none, t) => t
    | (some r, t) => t.writeWord w (overlay r.data d at_)

/-- A write of bytes from `off` on, word by word; it stops at a word whose narrow read fails (R566, R576).
`n` bounds the number of words. -/
def State.writeWords (s : State) (id : Nat) (bank : Bool) (off : Nat) (d : List Byte) : Nat → State
  | 0 => s
  | n + 1 =>
    if d = [] then s
    else
      let z := wordSize id
      let at_ := off % z
      let s' := s.writePart ⟨id, bank, off / z⟩ at_ (d.take (z - at_))
      if s'.mem.failing ≠ s.mem.failing then s'
      else State.writeWords s' id bank (off + (z - at_)) (d.drop (z - at_)) n

/-- A write of bytes from `off` on. -/
def State.writeBytes (s : State) (id : Nat) (bank : Bool) (off : Nat) (d : List Byte) : State :=
  s.writeWords id bank off d (d.length / wordSize id + 2)

/-! ### Whole stores -/

/-- Every valid bit of a store's banks cleared in one tick: the store reads as zeros (R564). -/
def Memory.clearStore (m : Memory) (id : Nat) : Memory :=
  { m with
    valid := Cells.drop (fun k => bankBase id false ≤ k && k < bankBase id false + 2 ^ 24) m.valid
    writebacks := m.writebacks.filter fun e => e.1.store ≠ id }

/-- The valid bits of one Slate page cleared (R565): its 128 words. -/
def Memory.clearPage (m : Memory) (p : Nat) : Memory :=
  { m with
    valid := Cells.drop
      (fun k => bankBase Store.slate false + 128 * p ≤ k && k < bankBase Store.slate false + 128 * (p + 1)) m.valid
    writebacks := m.writebacks.filter fun e => !(e.1.store == Store.slate && e.1.word / 128 == p) }

/-- The content and valid bits of one bank copied to the other (R218, R564): the cells as they stand. -/
def Memory.copyBank (m : Memory) (id : Nat) (src : Bool) : Memory :=
  let a := bankBase id src
  let b := bankBase id (!src)
  let inBank (base k : Nat) : Bool := base ≤ k && k < base + 2 ^ 23
  let shift {β : Type} (c : Cells β) : Cells β :=
    let moved := (c.filter fun e => inBank a e.1).map fun e => (e.1 - a + b, e.2)
    c.filter (fun e => e.1 < b) ++ moved ++ c.filter (fun e => b + 2 ^ 23 ≤ e.1)
  { m with
    cells := shift m.cells
    valid := shift m.valid
    writebacks := m.writebacks.filter fun e => !(e.1.store == id && e.1.bank == !src) }

/-- The first valid word of a bank whose code is uncorrectable, if any: what a bank sync, which reads every word
(R572), stops at. -/
def Memory.firstBad (m : Memory) (id : Nat) (bank : Bool) : Option (WordAddr × Nat) :=
  let a := bankBase id bank
  (m.valid.filter fun e => a ≤ e.1 && e.1 < a + 2 ^ 23).findSome? fun e =>
    let w : WordAddr := ⟨id, bank, e.1 - a⟩
    match decodeWord id m.erased (m.raw w) with
    | .bad syn => some (w, syn)
    | _ => none

/-! ### Slate pages (R562, R584) -/

/-- Whether SLT_RETIRE retires a page; bits from SLATE_PAGES upward read 0 (R584). -/
def State.retireBit (s : State) (p : Nat) : Bool :=
  p < s.part.pages && (s.reg R.SLT_RETIRE (p / 16)).getLsbD (p % 16)

/-- Whether a page is out of service: its bit is set, and no frame or spill uses it any more (R584). -/
def State.retired (s : State) (p : Nat) : Bool :=
  s.retireBit p && Cells.get .free s.mem.pages p == .free

/-- MEM_INFO part 0xD: retired pages. -/
def State.retiredCount (s : State) : Nat := ((List.range s.part.pages).filter s.retired).length

/-- The state with a page given to a use, or released: a release clears its valid bits (R565). -/
def State.usePage (s : State) (p : Nat) (u : PageUse) : State :=
  let m := if u = .free then s.mem.clearPage p else s.mem
  { s with mem := { m with pages := Cells.set .free m.pages p u } }

/-- Several pages given to a use, or released. -/
def State.usePages (s : State) (ps : List Nat) (u : PageUse) : State := ps.foldl (fun t p => t.usePage p u) s

/-- The lowest pages of the spill: the LN_BUF.PAGES lowest pages that are not retired (R364, Table 17-4). -/
def State.spillPages (s : State) : List Nat :=
  ((List.range s.part.pages).filter fun p => !s.retired p).take (s.fld F.LN_BUF_PAGES)

/-! ### The canonical form -/

/-- Every list of the memories is canonical: keys strictly rising, no entry at what an unlisted key reads as. DESIGN
CHOICE (log entry 9). -/
def Memory.wf (m : Memory) : Bool :=
  Cells.wf cellDefault m.cells && Cells.wf false m.valid && Cells.wf 0 m.corrected && Cells.wf .free m.pages

end Sys2Proof.Machine
end

