-- ==== Sys2Proof/Machine/Geometry.lean ====
section
/-! DEFINITION.
Frame contexts and geometry (chapters 06 and 07): the fields a context holds, the clamping rule, the readout order of
a frame, and the numbering of rows.
-/
namespace Sys2Proof.Machine

/-! ### Fields of a frame context (R222) -/

/-- A field as the context holds it. -/
def Context.fld (c : Context) (f : Field) (i : Nat := 0) : Nat := f.of (Cells.get 0 c.regs (regKey f.addr i))

/-- A one-bit field as the context holds it. -/
def Context.flag (c : Context) (f : Field) : Bool := c.fld f == 1

/-- The live QR_, EXP_, CNV_ and LN_ registers (R222): addresses 0x80 to 0x9F. -/
def State.contextRegs (s : State) : Cells Word :=
  s.regs.filter fun e => regKey 0x80 0 ≤ e.1 && e.1 < regKey 0xA0 0 &&
    e.1 / 256 ≠ R.QR_SEL && e.1 / 256 ≠ R.QR_STATUS && e.1 / 256 ≠ R.EXP_CTRL && e.1 / 256 ≠ R.EXP_TRIG_HELD &&
    e.1 / 256 ≠ R.EXP_DROPPED && e.1 / 256 ≠ R.CNV_STATUS && e.1 / 256 ≠ R.CNV_DEF_STATUS &&
    e.1 / 256 ≠ R.LN_STATUS && e.1 / 256 ≠ R.LN_DROPPED

/-! ### Converter modes (R304 to R306, Table 09-1) -/

/-- m, the bit count of the converter mode (Table 09-10). -/
def Context.bits (c : Context) : Nat :=
  match c.fld F.CNV_MODE_BITS with
  | 1 => 12 | 2 => 10 | _ => 14

/-- The sampled gains: 0 = HG, 1 = LG (R305). -/
def Context.gains (c : Context) : List Nat :=
  match c.fld F.CNV_MODE_GAIN with
  | 1 => [1] | 2 => [0, 1] | _ => [0]

/-- DUAL mode (R305). -/
def Context.dual (c : Context) : Bool := c.fld F.CNV_MODE_GAIN == 2

/-- The knee: 15/16 of the full code (Table 09-1). -/
def Context.knee (c : Context) : Nat := 15 * 2 ^ (c.bits - 4)

/-- The minimum pair period of the modes (Table 09-2). -/
def minPair (bits : Nat) (dual : Bool) : Nat :=
  (if bits = 14 then 1400 else if bits = 12 then 400 else 110) * (if dual then 2 else 1)

/-- The pair period in force (R306). -/
def Context.pairPeriod (c : Context) : Nat := max (c.fld F.CNV_PAIR_PERIOD) (minPair c.bits c.dual)

/-- PAIR_CLAMP condition: a nonzero PERIOD below the minimum (R306). -/
def Context.pairClamped (c : Context) : Bool :=
  c.fld F.CNV_PAIR_PERIOD != 0 && c.fld F.CNV_PAIR_PERIOD < minPair c.bits c.dual

/-! ### Scan modes (R288 to R293) -/

/-- The scan modes of Table 08-7. -/
inductive Scan where
  | area | line | tdi
  deriving DecidableEq, Repr

/-- SCAN of the context. -/
def Context.scan (c : Context) : Scan :=
  match c.fld F.EXP_MODE_SCAN with
  | 1 => .line | 2 => .tdi | _ => .area

/-- Sub-exposures of a frame: NEXP + 1, one in TDI (R293) and under HDR combination in DUAL mode (R288, R289). -/
def Context.subs (c : Context) : Nat :=
  if c.scan = .tdi then 1
  else if c.flag F.EXP_MODE_COMBINE && c.dual then 1
  else c.fld F.EXP_MODE_NEXP + 1

/-- Binning, subsampling and flips in force: VBIN, ROW_SUB and ROW_FLIP act as 0 in TDI (R293). -/
def Context.vbin (c : Context) : Bool := c.flag F.QR_MODE_VBIN && c.scan != .tdi
/-- ROW_FLIP in force. -/
def Context.rowFlip (c : Context) : Bool := c.flag F.QR_MODE_ROW_FLIP && c.scan != .tdi
/-- The ROW_SUB step in force: every, every 2nd, every 4th pair (R252). -/
def Context.rowStep (c : Context) : Nat := if c.scan = .tdi then 1 else 2 ^ min (c.fld F.QR_MODE_ROW_SUB) 2
/-- Columns per group (R251). -/
def Context.hbin (c : Context) : Nat := 2 ^ min (c.fld F.QR_MODE_HBIN) 2
/-- s_h = HBIN × COL_SUB (R248). -/
def Context.colStep (c : Context) : Nat := c.hbin * (if c.flag F.QR_MODE_COL_SUB then 2 else 1)

/-! ### The clamping rule (Table 07-4) -/

/-- `n` rounded down to a multiple of `k`. -/
def roundDown (n k : Nat) : Nat := n - n % k

/-- Effective column start of a quire. -/
def Context.colStart (c : Context) (q : Nat) : Nat := roundDown (c.fld F.QR_COL_START_START q) c.colStep
/-- Effective column count of a quire. -/
def Context.colCount (c : Context) (q : Nat) : Nat :=
  roundDown (min (c.fld F.QR_COL_COUNT_COUNT q) (512 - c.colStart q)) c.colStep
/-- Effective row start. -/
def Context.rowStart (c : Context) : Nat := roundDown (c.fld F.QR_ROW_START_START) 2
/-- Effective row count. -/
def Context.rowCount (c : Context) : Nat := roundDown (min (c.fld F.QR_ROW_COUNT_COUNT) (2048 - c.rowStart)) 2

/-- Whether the rule changed the geometry of a quire (R248). -/
def Context.clamped (c : Context) (q : Nat) : Bool :=
  c.colStart q != c.fld F.QR_COL_START_START q || c.colCount q != c.fld F.QR_COL_COUNT_COUNT q
    || c.rowStart != c.fld F.QR_ROW_START_START || c.rowCount != c.fld F.QR_ROW_COUNT_COUNT

/-- Whether a quire sends line folios: present, enabled, effective column count not 0 (R248, R249). -/
def Context.sends (c : Context) (p : Part) (q : Nat) : Bool :=
  q < p.quires && (c.fld F.QR_ENABLE_EN).testBit q && c.colCount q != 0

/-- Quires whose QR_ENABLE bit is set and that are present. -/
def Context.enabled (c : Context) (p : Part) : List Nat :=
  (List.range p.quires).filter fun q => (c.fld F.QR_ENABLE_EN).testBit q

/-- Output pixels per line folio of a quire, black columns left out (R251, Table 07-14). -/
def Context.outPix (c : Context) (p : Part) (q : Nat) : Nat :=
  if q < p.quires && (c.fld F.QR_ENABLE_EN).testBit q then c.colCount q / c.colStep else 0

/-! ### Readout order (Table 07-5, R258, R266, R291) -/

/-- A row pair that a readout converts. -/
inductive RowPair where
  /-- Black rows 2n and 2n + 1 -/
  | black (n : Nat)
  /-- Active rows r and r + 1 -/
  | active (r : Nat)
  /-- Test rows 2n and 2n + 1 -/
  | test (n : Nat)
  deriving DecidableEq, Repr

/-- First rows of the active pairs converted, in readout order: those ROW_SUB keeps, ascending, reversed under
ROW_FLIP (R252, R258, R266). -/
def Context.activePairs (c : Context) : List Nat :=
  let kept := ((List.range (c.rowCount / 2)).filter fun k => k % c.rowStep = 0).map fun k => c.rowStart + 2 * k
  if c.rowFlip then kept.reverse else kept

/-- The pairs a readout converts, in order; `blackPair` is the pair that the black cycle of line-scan and TDI has
reached (R257, R291, R293). -/
def Context.pairs (c : Context) (blackPair : Nat) : List RowPair :=
  match c.scan with
  | .area => (List.range 8).map .black ++ c.activePairs.map .active
      ++ (if c.flag F.QR_MODE_TEST_ROWS then (List.range 4).map .test else [])
  | _ => c.activePairs.map .active ++ [.black (blackPair % 8)]

/-- Rows of an active pair in folio order: even first, odd first under ROW_FLIP (R258). -/
def Context.rowOrder (c : Context) : List Nat := if c.rowFlip then [1, 0] else [0, 1]

/-- The row field codes of Table 07-3: `b` is the row within the pair. -/
def RowPair.field : RowPair → Nat → Nat
  | .black n, b => 0x1000 + 2 * n + b
  | .active r, b => r + b
  | .test n, b => 0x2000 + 2 * n + b

/-- Whether the pair's folios are sent (Table 07-5, R288, R291): active rows always; black rows under BLK_ROW_OUT;
test rows always, since they are converted only when sent. -/
def Context.sendsPair (c : Context) : RowPair → Bool
  | .black _ => c.flag F.QR_MODE_BLK_ROW_OUT
  | _ => true

/-! ### TDI (R293) -/

/-- S, the stages in force: EXP_SCHED.STAGES + 1, at most the effective row count. -/
def Context.stages (c : Context) : Nat := min (c.fld F.EXP_SCHED_STAGES + 1) c.rowCount

/-- MODE_CLAMP conditions of a context (R280, R289, R293). -/
def Context.modeClamped (c : Context) : Bool :=
  (c.fld F.EXP_TIME_HI_TIME * 2 ^ 16 + c.fld F.EXP_TIME_LO_TIME < 250)
    || (c.scan != .tdi && c.flag F.EXP_MODE_COMBINE && c.dual && c.fld F.EXP_MODE_NEXP != 0)
    || (c.scan == .tdi && (c.rowCount < c.fld F.EXP_SCHED_STAGES + 1 || c.flag F.QR_MODE_VBIN
        || c.fld F.QR_MODE_ROW_SUB != 0 || c.flag F.QR_MODE_ROW_FLIP || c.fld F.EXP_MODE_NEXP != 0))

/-- Duration of sub-exposure `k` in tk (R280). -/
def Context.duration (c : Context) (k : Nat) : Nat :=
  max 250 ((c.fld F.EXP_TIME_HI_TIME * 2 ^ 16 + c.fld F.EXP_TIME_LO_TIME) / 2 ^ (k * c.fld F.EXP_MODE_RATIO))

/-! ### Slate pages (R294, R313, R314) -/

/-- FFP: the pages of the flat-field reference (R313); 0 with FF = 0. -/
def flatPages (ff : Bool) (rowsM1 : Nat) (p : Part) : Nat := if ff then (rowsM1 + 2) / 2 * p.quires else 0

/-- FFP of a context. -/
def Context.ffPages (c : Context) (p : Part) : Nat := flatPages (c.flag F.CNV_CORR_FF) (c.fld F.CNV_FF_ROWS_M1) p

/-- P: the pages a frame of this context needs for its data (R294); a single-exposure frame, and TDI with one stage,
uses none. -/
def Context.dataPages (c : Context) (p : Part) : Nat :=
  if c.scan = .tdi then (if c.stages ≤ 1 then 0 else c.stages * (c.enabled p).length)
  else if c.subs ≤ 1 then 0
  else 2 * c.activePairs.length * (c.enabled p).length

end Sys2Proof.Machine
end

