-- ==== Sys2Proof/Machine/Streaming.lean ====
section
/-! DEFINITION.
What other units need of the exposure control: the end of trigger acceptance (R273) and the restart of TDI (R295).
-/
namespace Sys2Proof.Machine

/-- The trigger number up to which lines have had their readouts: that of the earliest TDI trigger still in exposure or
readout, else all triggers so far (R293, R301). -/
def Exposure.tdiDone (x : Exposure) : Nat :=
  let tdi (f : Frame) : Option Nat := if f.ctx.scan = .tdi then some f.number else none
  match x.reading.bind fun r => tdi r.frame, x.exposing.bind fun e => tdi e.frame with
  | some n, _ => n
  | none, some n => n
  | none, none => x.tdiCount

/-- A TDI line that passed its last trigger, and waits for a readout in progress or to come: it completes (R273). -/
def Exposure.completes (x : Exposure) (l : TdiLine) : Bool :=
  x.tdiDone < x.tdiCount && l.index + l.ctx.stages ≤ x.tdiCount

/-- The partial TDI lines discarded and their pages released; the number discarded. DEDUCED (log entry 34). -/
def State.dropTdiLines (s : State) : Nat × State :=
  let gone := s.exp.tdiLines.filter fun l => !s.exp.completes l
  let t := gone.foldl (fun t l => t.usePages l.pages .free) s
  (gone.length, { t with exp := { t.exp with
    tdiLines := s.exp.tdiLines.filter s.exp.completes, tdiFirst := s.exp.tdiCount, tdiCtx := none } })

/-- RUN = 0 (R273): triggers stop; partial TDI lines are discarded without being counted. -/
def State.stopRun (s : State) : State :=
  let t := s.dropTdiLines.2
  { t with exp := { t.exp with timer := none, fired := false, stopping := true, tdiGap := false } }.setFlag F.EXP_CTRL_RUN false

/-- A restart of TDI (R295, R490): partial lines are discarded, each counted; the first line after priming carries
GAP. DEDUCED (log entry 34). -/
def State.restartTdi (s : State) : State :=
  if s.exp.tdiCtx.isSome then
    let r := s.dropTdiLines
    let t := r.2.countBy F.EXP_DROPPED_COUNT r.1
    { t with exp := { t.exp with tdiGap := true } }
  else s

end Sys2Proof.Machine
end

