-- ==== Sys2Proof/Machine/Temperature.lean ====
section
/-! DEFINITION.
The temperature unit of chapter 14: conversion, bands, limits, sensor faults and the stale timer.
-/
namespace Sys2Proof.Machine

/-- The state with the temperature unit replaced. -/
def State.setTmp (s : State) (x : Temperature) : State := { s with tmp := x }

/-- The band in force: TMP_CFG.START before the first used result (R486). -/
def State.band (s : State) : Nat := s.tmp.band.getD (s.fld F.TMP_CFG_START)

/-- TMP_TEMP as read (Table 14-12). -/
def State.tempWord (s : State) : Nat := match s.tmp.temp with
  | some t => unsigned 16 t
  | none => 0x8000

/-! ### Conversion (R481, R482) -/

/-- Rounded to the nearest integer, ties up. -/
def roundRat (x : Rat) : Int := (x + 1 / 2).floor

/-- T16 of a die-diode average (R481). -/
def State.diodeT16 (s : State) (a : Rat) : Int :=
  let eta : Rat := 1 + ((signed 16 (s.fld F.TMP_GAIN_GAIN) : Int) : Rat) / 65536
  roundRat (16 * a / (21673 / 1000 * eta) - 43704 / 10) + signed 16 (s.fld F.TMP_OFS_OFS)

/-- T16 of an AIN average taken at range `r` (R482). -/
def State.ainT16 (s : State) (a : Rat) (r : Nat) : Int :=
  signed 16 (s.fld F.TMP_OFS_OFS)
    + roundRat (a / 2 ^ r * ((signed 16 (s.fld F.TMP_GAIN_GAIN) : Int) : Rat) / 4096)

/-! ### Bands (R484, R485) -/

/-- THR of a band, in °C. -/
def State.threshold (s : State) (k : Nat) : Int := signed 8 (s.fld F.TMP_BAND_THR k)

/-- E(k) for k of 1 to 5 (R484). -/
def State.effective (s : State) : Nat → Int
  | 0 => -2048
  | 1 => s.threshold 1
  | k + 2 => max (s.threshold (k + 2)) (State.effective s (k + 1) + 1)

/-- The largest band k of 1 to `top` with T ≥ 16 × (E(k) − h), or 0. -/
def State.bandUpTo (s : State) (t h : Int) : Nat → Nat
  | 0 => 0
  | k + 1 => if 16 * (s.effective (k + 1) - h) ≤ t then k + 1 else State.bandUpTo s t h k

/-- The band after a used result T (R485). -/
def State.nextBand (s : State) (t : Int) : Nat :=
  let b := s.band
  let h : Int := s.fld F.TMP_CFG_HYST
  if !s.tmp.valid then s.bandUpTo t 0 5
  else if b < 5 ∧ 16 * s.effective (b + 1) ≤ t then s.bandUpTo t 0 5
  else if 0 < b ∧ t < 16 * (s.effective b - h) then s.bandUpTo t h (b - 1)
  else b

/-- Some effective threshold differs from its field (R484). -/
def State.thrClamped (s : State) : Bool := (List.range 5).any fun k => s.effective (k + 1) != s.threshold (k + 1)

/-- The band changes to `b'` (R487, R490). -/
def State.changeBand (s : State) (b' : Nat) : State :=
  let b := s.band
  let s := s.setTmp { s.tmp with band := some b' }
  if b' = b then s
  else
    let t := ((s.setFlag F.TMP_STATUS_CHANGE true).raise 0x38 noUnit (256 * b + b')).raiseLine 58
    if t.fld F.TMP_BAND_WAVE b' ≠ t.fld F.TMP_BAND_WAVE b then t.restartTdi else t

/-! ### Used results (R478, R479, R491 to R494) -/

/-- A sensor fault: nothing changes but the flag and its event (R491). -/
def State.sensorFault (s : State) (data : Nat) : State :=
  (s.setFlag F.TMP_STATUS_SENSOR true).raise 0x3B noUnit data

/-- A limit event: LIMIT, the flag, the event, and the stop under LIM_STOP (R492, R493). -/
def State.limitEvent (s : State) (f : Field) (code : Nat) (t : Int) : State :=
  let s := ((s.setTmp { s.tmp with limit := true }).setFlag f true).raise code noUnit (unsigned 16 t)
  if s.flag F.TMP_CFG_LIM_STOP then s.stopRun else s

/-- The limits at a used result (R492). -/
def State.limits (s : State) (t : Int) : State :=
  let h : Int := s.fld F.TMP_CFG_HYST
  if 1680 ≤ t then s.limitEvent F.TMP_STATUS_OVER 0x39 t
  else if t < -640 then s.limitEvent F.TMP_STATUS_UNDER 0x3A t
  else if 16 * (-40 + h) ≤ t ∧ t < 16 * (105 - h) then s.setTmp { s.tmp with limit := false }
  else s

/-- A result or host value T16 from any source (R478, R479, R485, R491, R492): a pending injection 0x11 replaces it. -/
def State.useTemp (s : State) (t0 : Int) : State :=
  let inj := s.injArg 0x11
  let t : Int := match inj with
    | some a => signed 16 a
    | none => t0
  let s := if inj.isSome then s.injDone else s
  s.injectedIf inj.isSome fun s =>
    if t < -960 ∨ 2400 < t then s.sensorFault (unsigned 16 t)
    else
      let b' := s.nextBand t
      let s := if s.thrClamped then s.setFlag F.TMP_STATUS_THR_CLAMP true else s
      let s := s.changeBand b'
      let s := s.setTmp { s.tmp with temp := some t, valid := true, stale := false, timer := 0 }
      s.limits t

/-- An aux result on the source channel (R478, R491): `sum / n` is its average, `r` its range tag. -/
def State.auxTemp (s : State) (chan n : Nat) (sum : Int) (r : Nat) (sat : Bool) : State :=
  if s.flag F.TMP_CFG_HOST ∨ chan ≠ s.fld F.TMP_CFG_CHAN then s
  else if sat then s.sensorFault 0x8000
  else
    let a : Rat := (sum : Rat) / (n : Rat)
    s.useTemp (if chan = 8 then s.diodeT16 a else s.ainT16 a r)

/-! ### The stale timer (R494) -/

/-- The stale period in tk; 0 = off. -/
def State.stalePeriod (s : State) : Nat :=
  match s.fld F.TMP_CFG_STALE with
  | 1 => 25000000 | 2 => 250000000 | 3 => 2500000000 | _ => 0

/-- The stale timer expires: in Armed and Streaming only. -/
def State.staleNow (s : State) : State :=
  if s.analog = false ∨ s.stalePeriod = 0 ∨ s.tmp.stale = true then s
  else ((s.setTmp { s.tmp with stale := true }).setFlag F.TMP_STATUS_STALE_LATCH true).raise 0x3C noUnit 0

/-- The stale timer has reached its period. -/
def State.tempStale (s : State) : State := if s.stalePeriod ≤ s.tmp.timer then s.staleNow else s

/-- One tick of the stale timer: it counts in Armed and Streaming while CLK_TIME does and STALE is not 0. -/
def State.tempTick (s : State) : State :=
  if s.analog && !s.clk.held && s.stalePeriod != 0 then (s.setTmp { s.tmp with timer := s.tmp.timer + 1 }).tempStale
  else s

/-! ### Configuration and registers -/

/-- TMP_CFG, TMP_GAIN or TMP_OFS changed by an apply or a live write (R494, R496). -/
def State.tempConfig (s : State) (a : Nat) (old : Word) : State :=
  let source := a == R.TMP_GAIN || a == R.TMP_OFS ||
    F.TMP_CFG_CHAN.of old != s.fld F.TMP_CFG_CHAN || F.TMP_CFG_HOST.of old != s.fld F.TMP_CFG_HOST
  let t := if source then s.setTmp { s.tmp with valid := false, temp := none } else s
  if a = R.TMP_CFG then t.tempStale else t

/-- The live bits of TMP_STATUS (Table 14-11). -/
def State.tempLive (s : State) : Nat :=
  64 * bit s.tmp.limit + 32 * bit s.tmp.stale + 16 * bit s.tmp.valid + s.band

end Sys2Proof.Machine
end

