-- ==== Sys2Proof/Machine/AuxConv.lean ====
section
/-! DEFINITION.
The aux converters of chapter 13: rounds, injected slots, conversions, averaging, autorange, the result queue, the
flash monitor and the open-wire check.
-/
namespace Sys2Proof.Machine

/-- The state with the aux unit replaced. -/
def State.setAux (s : State) (x : Aux) : State := { s with aux := x }

/-- What the unit keeps of slot `k`: R-slot r at r, I-slot i at 16 + i. -/
def State.slotData (s : State) (k : Nat) : SlotData := Cells.get SlotData.init s.aux.slots k

/-- The state with a slot's data replaced. -/
def State.setSlotData (s : State) (k : Nat) (d : SlotData) : State :=
  s.setAux { s.aux with slots := Cells.set SlotData.init s.aux.slots k d }

/-- The key of a slot. -/
def slotKey (inj : Bool) (i : Nat) : Nat := if inj then 16 + i else i

/-! ### Descriptors (R442 to R444) -/

/-- A descriptor read from its eight bytes (Table 13-3): AR, OW and FLASH act as 0 where the table excludes them. -/
def Slot.ofBytes (inj : Bool) (b : List Byte) : Slot :=
  let n (i : Nat) : Nat := (b.getD i 0).toNat
  let chan := n 0 / 16
  { chan := chan, conv := bits (n 0) 3 2, gain := bits (n 0) 1 0
    ar := n 1 / 128 == 1 && chan < 8, ow := bits (n 1) 6 6 == 1 && chan < 8, flash := inj && bits (n 1) 5 5 == 1
    collide := inj && bits (n 1) 4 4 == 1, shift := min (bits (n 1) 3 0) 8, len := n 2 + 1
    trig := bits (n 3) 5 0, delay := 256 * n 4 + n 5, owSettle := 256 * n 6 + n 7 }

/-- Offset of a slot's descriptor (R442). -/
def slotOffset (inj : Bool) (i : Nat) : Nat := if inj then 0x80 + 8 * i else 8 * i

/-- The active ADCSEQ bank. -/
def State.adcBank (s : State) : Bool := s.flag F.BND_STATUS_BANK_ADCSEQ

/-- A slot's descriptor read from the active bank, checked. -/
def State.readSlot (s : State) (inj : Bool) (i : Nat) : Option Slot × State :=
  match s.readBytes .internal false Store.adcseq s.adcBank (slotOffset inj i) 8 with
  | (some (b, _), t) => (some (Slot.ofBytes inj b), t)
  | (none, t) => (none, t)

/-- The bytes of a store word as the cells stand, zeros where it is invalid. -/
def Memory.plainWord (m : Memory) (w : WordAddr) : List Byte :=
  if m.isValid w then (m.raw w).take (wordSize w.store) else List.replicate (wordSize w.store) 0

/-- A slot's descriptor as a bank of the store stands. -/
def State.peekSlot (s : State) (bank inj : Bool) (i : Nat) : Slot :=
  let k := slotOffset inj i / 4
  Slot.ofBytes inj (s.mem.plainWord ⟨Store.adcseq, bank, k⟩ ++ s.mem.plainWord ⟨Store.adcseq, bank, k + 1⟩)

/-- Whether a slot uses converter `k`. -/
def Slot.uses (x : Slot) (k : Nat) : Bool := x.conv == k || x.conv == 2

/-- Whether converter `k` is present and enabled (R443, R474). -/
def State.convOn (s : State) (k : Nat) : Bool :=
  k < s.part.converters && s.flag (if k = 0 then F.AUX_CTRL_EN0 else F.AUX_CTRL_EN1)

/-- Whether converter `k` is in low-power mode (R467). -/
def State.convLp (s : State) (k : Nat) : Bool := s.flag (if k = 0 then F.AUX_CTRL_LP0 else F.AUX_CTRL_LP1)

/-- Whether the converters of a slot are all enabled (R443). -/
def State.slotOn (s : State) (x : Slot) : Bool :=
  x.conv != 3 && [0, 1].all fun k => !x.uses k || s.convOn k

/-- Whether injected slot `i` is enabled (R443). -/
def State.injOn (s : State) (i : Nat) (x : Slot) : Bool := s.slotOn x && (s.fld F.AUX_CTRL_INJ_EN).testBit i

/-- Two slots need a common converter. -/
def Slot.clash (x y : Slot) : Bool := [0, 1].any fun k => x.uses k && y.uses k

/-- A run in progress on a converter that the slot needs: regular, and injected (R448). -/
def State.regularBusy (s : State) (x : Slot) : Bool := s.aux.regular.any fun r => r.slot.clash x
/-- An injected run on a converter that the slot needs. -/
def State.injectedBusy (s : State) (x : Slot) : Bool := s.aux.injected.any fun r => r.slot.clash x

/-! ### Starting a run (R445, R447, R460, R467) -/

/-- The range at which a run starts (R440, R441, R460). -/
def State.startRange (s : State) (x : Slot) (k : Nat) : Nat :=
  if x.chan = 8 then 3
  else if 7 < x.chan then 0
  else if x.ar then (s.slotData k).range.getD x.gain
  else x.gain

/-- Whether the references of a slot's converters are settled. -/
def State.settledFor (s : State) (x : Slot) : Bool := [0, 1].all fun k => !x.uses k || s.aux.settled.getLsbD k

/-- The phase after settling: the open-wire check, or the block (R465). -/
def Slot.firstPhase (x : Slot) : RunPhase := if x.ow then .owUp else .block

/-- A run of a slot at its start. -/
def State.newRun (s : State) (x : Slot) (inj : Bool) (i : Nat) (frame : Option Nat) : Run :=
  let r := s.startRange x (slotKey inj i)
  { slot := x, inj := inj, index := i, phase := if s.settledFor x then x.firstPhase else .settling
    start := s.clk.now, range := r, range1 := r, select := r, changes := 0, count := 0, sum := 0, sat := false,
    terms := 0, first := none, lastRange := r, stop := none, frame := frame, changed := false }

/-- An injected request dropped: counted, its event raised (R448, R450). -/
def State.dropRequest (s : State) (i : Nat) : State :=
  (s.count F.AUX_INJ_DROPPED_COUNT).raise 0x30 i 0

/-- The request of I-slot `i` replaced. -/
def State.setRequest (s : State) (i : Nat) (r : Request) : State :=
  s.setSlotData (16 + i) { s.slotData (16 + i) with request := r }

/-- An injected run starts. -/
def State.startInjected (s : State) (i : Nat) (x : Slot) (frame : Option Nat) : State :=
  let t := s.setRequest i .idle
  t.setAux { t.aux with injected := t.aux.injected ++ [t.newRun x true i frame] }

/-- Waiting injected slots run in order of number when their converters are free (R448, R449); a slot that has been
disabled gives no run: its request is dropped (R443, R468). DESIGN CHOICE (log entry 37). -/
def State.startWaiting (s : State) : State :=
  (List.range 4).foldl
    (fun t i => match (t.slotData (16 + i)).request with
      | .waiting x f =>
        if !t.injOn i x then (t.setRequest i .idle).dropRequest i
        else if t.regularBusy x || t.injectedBusy x then t
        else t.startInjected i x f
      | _ => t) s

/-! ### Rounds (R444 to R446) -/

/-- The descriptors of the first `n` R-slots, read and checked; stops at a failing word. -/
def State.readRound (s : State) (i : Nat) : Nat → Option (List Slot) × State
  | 0 => (some [], s)
  | n + 1 =>
    match s.readSlot false i with
    | (none, t) => (none, t)
    | (some x, t) =>
      match State.readRound t (i + 1) n with
      | (none, u) => (none, u)
      | (some xs, u) => (some (x :: xs), u)

/-- The first enabled slot at or after the next of a round, if any. -/
def State.nextSlot (s : State) (r : Round) : Option Nat :=
  (List.range r.slots.length).find? fun i => r.next ≤ i && ((r.slots[i]?).any s.slotOn)

/-- A round starts (R444). -/
def State.beginRound (s : State) : State :=
  match s.readRound 0 (s.fld F.AUX_CTRL_REG_LEN_M1 + 1) with
  | (some xs, t) => t.setAux { t.aux with round := some { slots := xs, next := 0 } }
  | (none, t) => t

/-- A round whose slots have all run, or are disabled, is complete (R445): line 57, the round number.  With REG_EN = 0
no further slot starts and a round with slots to run is left (R446). -/
def State.endRound (s : State) : State :=
  match s.aux.round with
  | none => s
  | some r =>
    if s.aux.regular.isSome then s
    else if (s.nextSlot r).isNone then
      (s.setAux { s.aux with round := none, roundNo := (s.aux.roundNo + 1) % 8 }).raiseLine 57
    else if !s.flag F.AUX_CTRL_REG_EN then s.setAux { s.aux with round := none }
    else s

/-- What follows a round's progress: its end, and the one further round that an expiry left behind (R446). -/
def State.roundStep (s : State) : State :=
  let t := s.endRound
  if s.aux.round.isSome && t.aux.round.isNone && t.aux.late then
    ((t.setAux { t.aux with late := false }).beginRound).endRound
  else t

/-- A round is asked for by the timer or the host (R445, R446). -/
def State.askRound (s : State) : State :=
  if s.analog && s.flag F.AUX_CTRL_REG_EN then
    if s.aux.round.isSome then (s.setAux { s.aux with late := true }).setFlag F.AUX_STATUS_ROUND_LATE true
    else s.beginRound.roundStep
  else s

/-- The next regular slot of the round takes its converters once they are free of injected work (R445). -/
def State.startSlot (s : State) : State :=
  if !s.analog || !s.flag F.AUX_CTRL_REG_EN || s.aux.regular.isSome then s
  else match s.aux.round with
    | none => s
    | some r =>
      match s.nextSlot r with
      | none => s.roundStep
      | some i =>
        match r.slots[i]? with
        | none => s
        | some x =>
          let waits := (List.range 4).any fun j => match (s.slotData (16 + j)).request with
            | .waiting y _ => y.clash x
            | _ => false
          if s.injectedBusy x || waits then s
          else s.setAux { s.aux with
            round := some { r with next := i }, regular := some (s.newRun x false i none) }

/-! ### Injected slots (R447 to R450, R470, R472) -/

/-- The low-power references that a run leaves are switched off (R467). -/
def State.unsettle (s : State) (x : Slot) : State :=
  let off (v : BitVec 2) (k : Nat) : BitVec 2 := if x.uses k && s.convLp k then v &&& ~~~(1#2 <<< k) else v
  s.setAux { s.aux with settled := off (off s.aux.settled 0) 1 }

/-- The regular run aborted (R448): it starts again from its beginning. -/
def State.abortRegular (s : State) : State :=
  match s.aux.regular with
  | some r => (s.setAux { s.aux with regular := none }).unsettle r.slot
  | none => s

/-- Whether an event on line `n` is one of I-slot `i`, which is enabled (R443, R447). -/
def State.triggers (s : State) (n i : Nat) : Bool :=
  let x := s.peekSlot s.adcBank true i
  x.trig == n && s.injOn i x

/-- A trigger of I-slot `i`: accepted with a copy of its descriptor, or dropped (R444, R447, R450, R472). -/
def State.injAccept (s : State) (i : Nat) : State :=
  let d := s.slotData (16 + i)
  if s.pwr.state == .testing || d.request != .idle || s.aux.injected.any (fun r => r.index == i) then s.dropRequest i
  else match s.readSlot true i with
    | (none, u) => u
    | (some y, u) =>
      u.setSlotData (16 + i) { d with triggers := (d.triggers + 1) % 8, request := .counting y u.exp.lastNumber }

/-- The quires count the withheld events of the trigger line themselves (R150, R274). -/
def State.quiresCount (s : State) : Bool :=
  s.pwr.state == .streaming && s.flag F.EXP_CTRL_RUN && s.fld F.EXP_MODE_TRIG != 0

/-- The event of this tick on crossbar line `n` reaches the I-slots that name it (R447); the line of EXP_SCHED.EVENT is
withheld while LOST is 1, and counted in CLK_TRIG_LOST (R470). -/
def State.injLine (s : State) (n : Nat) : State :=
  if !(s.analog || s.pwr.state == .testing) || s.aux.taken.getLsbD n || !s.lineExists n then s
  else
    let s := s.setAux { s.aux with taken := s.aux.taken ||| (1#64 <<< n) }
    if s.gated && n == s.fld F.EXP_SCHED_EVENT then
      if !s.quiresCount && (List.range 4).any (s.triggers n) then s.count F.CLK_TRIG_LOST_COUNT else s
    else (List.range 4).foldl (fun t i => if t.triggers n i then t.injAccept i else t) s

/-- The events of a tick reach the I-slots that name their lines (R402, R447). -/
def State.injEvents (s : State) (lines : BitVec 64) : State :=
  (List.range 64).foldl (fun t n => if lines.getLsbD n then t.injLine n else t) s

/-- The delay of I-slot `i` ends (Table 13-4); a pending injection 0x10 for the slot drops the request. -/
def State.injRequest (s : State) (i : Nat) : State :=
  match (s.slotData (16 + i)).request with
  | .counting x f =>
    if s.injArg 0x10 = some i then
      (s.injDone.setRequest i .idle).injected fun t => t.dropRequest i
    else if !s.injOn i x || !s.analog then (s.setRequest i .idle).dropRequest i
    else if s.injectedBusy x then
      if x.collide then s.setRequest i (.waiting x f) else (s.setRequest i .idle).dropRequest i
    else if s.regularBusy x then
      if x.collide then s.abortRegular.startInjected i x f
      else (s.setRequest i .idle).dropRequest i
    else s.startInjected i x f
  | _ => s

/-! ### Codes (R439 to R441, R466) -/

/-- The divider of a channel's scaling and its offset in nV (Table 13-2). DESIGN CHOICE (log entry 37). -/
def chanScale (chan : Nat) : Nat × Int :=
  match chan with
  | 9 => (4, 0) | 10 => (4, 0) | 11 => (2, 2400000000) | 13 => (2, 0) | 15 => (2, 0) | _ => (1, 0)

/-- The code of a conversion of `nv` nanovolts on a channel at range `r` (R439), or of the test DAC's level (R466).
DESIGN CHOICE (log entry 37). -/
def State.convCode (s : State) (chan r : Nat) (nv : Int) : Nat :=
  let dac := chan == 14 || (s.flag F.AUX_DAC_EN && s.fld F.AUX_DAC_CHAN == chan)
  let z : Int :=
    if dac then ((s.fld F.AUX_DAC_CODE * 16 * 2 ^ r : Nat) : Int)
    else
      let sc := chanScale chan
      roundDiv ((nv + sc.2) * 2 ^ r * 16384) (1200000000 * sc.1)
  (clampInt 0 16383 z).toNat

/-! ### Results (R451 to R456, R463) -/

/-- A flash slot in INTEGRATE mode (R462). -/
def State.integrates (s : State) (r : Run) : Bool := r.slot.flash && s.flag F.AUX_FLASH_FINT

/-- VALUE and SAT of a finished run (R451, R463); `long` = ended at the 65,535th sample.  A negative block sum, which
only channel 8 can give, has no stated VALUE: it is the free value `w`. DESIGN CHOICE (log entries 12 and 37). -/
def State.runValue (s : State) (r : Run) (long : Bool) (w : Word) : Nat × Bool :=
  if r.slot.flash then
    let e := (max r.terms 0).toNat / 2 ^ s.fld F.AUX_FLASH_FSHIFT
    (min e 0xFFFF, long || 0xFFFF < e)
  else if r.sum < 0 then (w.toNat, r.sat)
  else
    let v := r.sum.toNat / 2 ^ r.slot.shift
    (min v 0xFFFF, r.sat || 0xFFFF < v)

/-- A queue entry (Table 13-5). -/
def entryWord (r : Run) (round value : Nat) (sat : Bool) : BitVec 32 :=
  BitVec.ofNat 32 (2 ^ 28 * r.slot.chan + 2 ^ 27 * bit r.inj + 2 ^ 26 * bit sat
    + 2 ^ 24 * (if r.slot.chan = 8 then 3 else r.lastRange)
    + 2 ^ 20 * r.index + 2 ^ 19 * bit (r.slot.uses 1) + 2 ^ 16 * round + value)

/-- An entry enters the queue, or overflows it (R456); a pending injection 0x0F makes it find the queue full. -/
def State.enqueue (s : State) (e : BitVec 32) : State :=
  let inj := (s.injArg 0x0F).isSome
  let s := if inj then s.injDone else s
  if inj || 64 ≤ s.aux.queue.length then
    let ovw := s.flag F.AUX_OVF_POLICY_POLICY
    let t := if ovw then s.setAux { s.aux with queue := s.aux.queue.drop 1 ++ [e] } else s
    ((t.count F.AUX_OVF_COUNT_COUNT).setFlag F.AUX_STATUS_QOVF true).injectedIf inj
      fun u => u.raise 0x31 noUnit (bit ovw)
  else s.setAux { s.aux with queue := s.aux.queue ++ [e] }

/-- Whether frame `n` has still to assemble its first line folio (R351, R464). -/
def Exposure.awaitsFlash (x : Exposure) (n : Nat) : Bool :=
  let open_ (f : Frame) : Bool := f.number == n && f.flash.isNone && f.ctx.scan != .tdi
  x.exposing.any (fun e => open_ e.frame) || x.between.any (fun b => open_ b.1) || x.reading.any fun r => open_ r.frame

/-- A run ends with its result (R452): the slot's data, the queue entry, the flash energy unless its frame's first
folio is assembled or never comes (R464), the supply average and the temperature. -/
def State.finishRun (s : State) (r : Run) (long : Bool) : State :=
  let k := slotKey r.inj r.index
  let v := s.runValue r long (Config.freeWord s.free)
  let s := if r.sum < 0 ∧ r.slot.flash = false then s.spent else s
  let d := s.slotData k
  let s := s.setSlotData k
    { d with last := v.1, results := (d.results + 1) % 256, range := if r.slot.ar && !r.changed then some r.select else d.range }
  let s := s.enqueue (entryWord r (if r.inj then d.triggers else s.aux.roundNo) v.1 v.2)
  let s := if long then s.setFlag F.AUX_STATUS_FL_LONG true else s
  let s := if r.slot.chan = 9 ∧ r.count ≠ 0 then s.setAux { s.aux with vdd := some (r.sum, r.count) } else s
  let s := match r.slot.flash, r.frame with
    | true, some f => s.setAux { s.aux with
        flash := (s.aux.flash ++ [(f, v.1)]).filter fun e => s.exp.awaitsFlash e.1 }
    | _, _ => s
  let s := if r.slot.flash || r.count == 0 then s else s.auxTemp r.slot.chan r.count r.sum r.lastRange v.2
  let s := s.unsettle r.slot
  let s :=
    if r.inj then (s.setAux { s.aux with injected := s.aux.injected.filter fun q => q.index != r.index }).raiseLine 56
    else s.setAux { s.aux with
      regular := none, round := s.aux.round.map fun q => { q with next := r.index + 1 } }
  s.startWaiting.roundStep

/-- A run replaced by its next state. -/
def State.putRun (s : State) (r : Run) : State :=
  if r.inj then s.setAux { s.aux with
    injected := s.aux.injected.map fun q => if q.index = r.index then r else q }
  else s.setAux { s.aux with regular := some r }

/-! ### Conversions (R445, R458 to R463, R465) -/

/-- The run that converter `k` converts for. -/
def State.runOn (s : State) (k : Nat) : Option Run :=
  (s.aux.injected ++ s.aux.regular.toList).find? fun r =>
    r.slot.uses k && (match r.phase with
      | .settling => false
      | .block => true
      | _ => k == 0 || r.slot.conv == 1)

/-- The second conversion of an open-wire check decides (R465); a pending injection 0x0E for the land finds it open. -/
def State.wireCheck (s : State) (land vUp vDn : Nat) : State :=
  let inj := s.injArg 0x0E = some land
  let s := if inj then s.injDone else s
  let isOpen := inj || decide (s.fld F.AUX_OW_THRESH_THRESH + vDn < vUp)
  let was := (s.fld F.AUX_OW_STAT_OPEN).testBit land
  let mask := s.fld F.AUX_OW_STAT_OPEN - (if was then 2 ^ land else 0)
  let s := s.setFld F.AUX_OW_STAT_OPEN (mask + if isOpen then 2 ^ land else 0)
  if isOpen && !was then
    ((s.setFld F.AUX_OW_STAT_OPEN_LATCH (s.fld F.AUX_OW_STAT_OPEN_LATCH ||| 2 ^ land)).markFresh R.AUX_OW_STAT
      (1#16 <<< land)).injectedIf inj
      fun u => u.raise 0x32 land 0
  else s

/-- The range that a sample of code `v` at range `r` selects (R458). -/
def targetRange (r v : Nat) : Nat :=
  if 15360 ≤ v ∧ 0 < r then r - 1 else if v < 6144 ∧ r < 3 then r + 1 else r

/-- A sample enters the block: counted if it was taken at the block's range, or if the run rescales (R451, R459,
R463). -/
def Run.addSample (r : Run) (integ : Bool) (dark : Nat) (at_ : Nat) (v : Int) : Run :=
  if integ || at_ == r.range then
    { r with count := r.count + 1, sum := r.sum + v, sat := r.sat || v == 0 || v == 16383
             terms := r.terms + (v * 2 ^ (3 - at_) - dark), lastRange := at_ }
  else r

/-- Autorange decides on a sample (R458, R460). -/
def Run.decide (r : Run) (at_ v : Nat) : Run :=
  let g := targetRange at_ v
  if r.slot.ar && r.changes < 6 && g != r.select && g != at_ then { r with select := g, changes := r.changes + 1 }
  else r

/-- The conversion boundary: the selected range comes into force, a block that averages starts again (R458, R459).
The flag reports a flush. -/
def Run.boundary (r : Run) (k : Nat) (integ : Bool) : Run × Bool :=
  if k = 1 ∧ r.slot.conv = 2 then ({ r with range1 := r.range }, false)
  else if r.select ≠ r.range then
    if integ then ({ r with range := r.select }, false)
    else ({ r with range := r.select, count := 0, sum := 0, sat := false, terms := 0 }, true)
  else (r, false)

/-- A conversion of converter `k` ends with `nv` nanovolts at its input (R439). DESIGN CHOICE (log entry 37). -/
def State.conversionEnd (s : State) (k : Nat) (nv : Int) : State :=
  match s.runOn k with
  | none => s
  | some r =>
    let at_ := if r.slot.conv = 2 ∧ k = 1 then r.range1 else r.range
    let v := s.convCode r.slot.chan at_ nv
    match r.phase with
    | .settling => s
    | .owUp => s.putRun { r with phase := .owDown v }
    | .owDown u => (s.wireCheck r.slot.chan u v).putRun { r with phase := .block }
    | .block =>
      if r.slot.chan = 8 ∧ r.first = none then s.putRun { r with first := some v }
      else
        let integ := s.integrates r
        let x : Int := match r.first with
          | some v0 => (v : Int) - v0
          | none => v
        let r := ({ r with first := none }.addSample integ (s.fld F.AUX_FLASH_DARK_DARK) at_ x).decide at_ v
        let stopped : Option (BitVec 2) := r.stop.map fun m => m &&& ~~~(1#2 <<< k)
        let r := { r with stop := stopped }
        if integ then
          if stopped = some 0 then s.finishRun r false
          else if 65535 ≤ r.count ∧ stopped = none then s.finishRun r true
          else s.putRun (r.boundary k true).1
        else if r.slot.len ≤ r.count then s.finishRun r false
        else
          let b := r.boundary k false
          let t := s.putRun b.1
          if b.2 then t.setFlag F.AUX_STATUS_RFLUSH true else t

/-- The stop event of INTEGRATE flash runs (R462): `going` names the converters with a conversion that started before
the stop takes effect and has not ended; a run with none ends at once. -/
def State.flashStop (s : State) (going : BitVec 2) : State :=
  (s.aux.injected.filter fun r => s.integrates r && r.stop.isNone).foldl
    (fun t r =>
      let m := going &&& ((if r.slot.uses 0 then 1#2 else 0#2) ||| (if r.slot.uses 1 then 2#2 else 0#2))
      if m = 0 ∨ r.phase ≠ .block then t.finishRun r false else t.putRun { r with stop := some m })
    s

/-- The stop events that the lines bring (R462, Table 13-7): `now_`, an event of this tick, ends without samples a run
that started in it; `past`, one of three ticks ago, takes effect on the runs that were in progress then.  A converter
in its block converts without a break; whether the second of a pair has begun its first conversion the state does not
tell. DESIGN CHOICE (log entry 37). -/
def State.stopNow (s : State) : State :=
  (s.aux.injected.filter fun r => s.integrates r && r.start == s.clk.now).foldl (fun t r => t.finishRun r false) s

/-- The stop event of three ticks ago takes effect. -/
def State.stopPast (s : State) : State :=
  (s.aux.injected.filter fun r => s.integrates r && r.stop.isNone && decide (r.start + 3 < s.clk.now)).foldl
    (fun t r =>
      let second := r.slot.conv != 2 || r.count != 0 || Config.freeBool t.free
      let m := (if r.slot.uses 0 then 1#2 else 0#2) ||| (if r.slot.uses 1 && second then 2#2 else 0#2)
      let t := if r.slot.conv = 2 ∧ r.count = 0 then t.spent else t
      if r.phase ≠ .block then t.finishRun r false else t.putRun { r with stop := some m })
    s

/-- The reference of converter `k` has settled (R467): runs that waited for it go on. -/
def State.refSettled (s : State) (k : Nat) : State :=
  if s.analog && s.convOn k then
    let s := s.setAux { s.aux with settled := s.aux.settled ||| (1#2 <<< k) }
    let go (r : Run) : Run := if r.phase = .settling ∧ s.settledFor r.slot then { r with phase := r.slot.firstPhase } else r
    s.setAux { s.aux with regular := s.aux.regular.map go, injected := s.aux.injected.map go }
  else s

/-! ### The queue as registers (R454) -/

/-- A pop of the queue: the value of AUX_Q_HI, the lower half into the holding register. -/
def State.popQueue (s : State) : Nat × State :=
  match s.aux.queue with
  | [] => (0xFFFF, s.setAux { s.aux with hold := 0xFFFF })
  | e :: q => (e.toNat / 2 ^ 16, s.setAux { s.aux with queue := q, hold := BitVec.ofNat 16 e.toNat })

/-- AUX_Q_HI and AUX_Q_LO with INSPECT: the oldest entry's halves. -/
def Aux.oldest (x : Aux) : Nat := match x.queue with
  | [] => 0xFFFFFFFF
  | e :: _ => e.toNat

/-- QWATER (R457). -/
def State.qwater (s : State) : Bool :=
  s.fld F.AUX_OVF_POLICY_WATER != 0 && s.fld F.AUX_OVF_POLICY_WATER ≤ s.aux.queue.length

/-- A request waits or its delay counts. -/
def Request.waits : Request → Bool
  | .idle => false
  | _ => true

/-- The live bits of AUX_STATUS (Table 13-14). -/
def State.auxLive (s : State) : Nat :=
  8 * bit s.qwater + 4 * bit s.aux.round.isSome
    + 2 * bit ((List.range 4).any fun i => (s.slotData (16 + i)).request.waits)
    + bit (s.aux.injected.any fun r => r.phase != .settling)

/-- AUX_DATA by part (Table 13-17): `inj`, `slot` and `conv` are the fields of AUX_SEL. -/
def State.auxPart (s : State) (part : Nat) (inj : Bool) (slot conv : Nat) : Nat :=
  let k := slotKey inj slot
  let d := s.slotData k
  let gone := inj && 3 < slot
  let x := s.peekSlot s.adcBank inj slot
  match part with
  | 0 => if gone then 0 else d.last
  | 1 =>
    if gone then 0
    else 256 * d.results + 16 * s.startRange x k + 8 * bit d.request.waits
      + 4 * bit ((s.aux.injected ++ s.aux.regular.toList).any fun r => r.inj == inj && r.index == slot)
  | 2 =>
    if s.part.converters ≤ conv then 0
    else
      let run := (s.aux.injected ++ s.aux.regular.toList).find? fun r => r.slot.uses conv
      2 ^ 15 * bit (s.aux.settled.getLsbD conv) + 2 ^ 14 * bit (s.convLp conv)
        + (match run with
          | some r => 2 ^ 12 * (if r.slot.conv = 2 ∧ conv = 1 then r.range1 else r.range) + 2 ^ 11 + 2 ^ 10 * bit r.inj
          | none =>
            2 ^ 11 * bit (s.analog && s.convOn conv && !s.convLp conv && !s.aux.settled.getLsbD conv))
  | _ => 0

/-! ### Configuration, banks, clearing -/

/-- AUX_CTRL changed from `old` (R446, R467, R468). -/
def State.auxConfig (s : State) (old : Word) : State :=
  let cleared (f : Field) : Bool := f.of old == 1 && s.fld f == 0
  let became (f : Field) : Bool := f.of old == 0 && s.fld f == 1
  let off : BitVec 2 := (if cleared F.AUX_CTRL_EN0 then 1 else 0) ||| (if cleared F.AUX_CTRL_EN1 then 2 else 0)
  let lp : BitVec 2 := (if became F.AUX_CTRL_LP0 then 1 else 0) ||| (if became F.AUX_CTRL_LP1 then 2 else 0)
  let idleLp : BitVec 2 := (List.range 2).foldl
    (fun m k => if lp.getLsbD k && !(s.aux.injected ++ s.aux.regular.toList).any (fun r => r.slot.uses k)
      then m ||| (1#2 <<< k) else m) 0
  let lost (r : Run) : Bool := [0, 1].any fun k => off.getLsbD k && r.slot.uses k
  let s := ((s.aux.injected ++ s.aux.regular.toList).filter lost).foldl (fun t r => t.unsettle r.slot) s
  let s := s.setAux { s.aux with
    settled := s.aux.settled &&& ~~~(off ||| idleLp)
    injected := s.aux.injected.filter fun r => !lost r
    round := match s.aux.regular with
      | some r => if lost r then s.aux.round.map fun q => { q with next := r.index + 1 } else s.aux.round
      | none => s.aux.round
    regular := s.aux.regular.filter fun r => !lost r }
  let s := if s.flag F.AUX_CTRL_REG_EN then s else s.setAux { s.aux with late := false }
  s.startWaiting.roundStep

/-- An apply swapped the ADCSEQ bank: a slot whose descriptor changed begins its next run at GAIN, whatever a run in
progress ends on (R460). -/
def State.auxSwap (s : State) (oldBank : Bool) : State :=
  (List.range 20).foldl
    (fun t k =>
      let inj := 16 ≤ k
      let i := if inj then k - 16 else k
      if t.peekSlot oldBank inj i = t.peekSlot (!oldBank) inj i then t
      else
        let u := t.setSlotData k { t.slotData k with range := none }
        let mark (r : Run) : Run := if slotKey r.inj r.index = k then { r with changed := true } else r
        u.setAux { u.aux with regular := u.aux.regular.map mark, injected := u.aux.injected.map mark }) s

end Sys2Proof.Machine
end

