-- ==== Sys2Proof/Machine/Agate.lean ====
section
/-! DEFINITION.
The Agate engines of chapter 15: rows, waits, actions, lands, halts, injected rows, FIFOs and the trace.
-/
namespace Sys2Proof.Machine

/-- Engine `e`. -/
def State.engine (s : State) (e : Nat) : Engine := Cells.get Engine.init s.agt.engines e

/-- The state with engine `e` replaced. -/
def State.setEngine (s : State) (e : Nat) (x : Engine) : State :=
  { s with agt := { s.agt with engines := Cells.set Engine.init s.agt.engines e x } }

/-! ### Rows (Table 15-3) -/

/-- Wait sources. -/
inductive WaitSource where
  | none | land | event | fifo
  deriving DecidableEq, Repr

/-- A row's 64 bits. -/
abbrev Row := BitVec 64

/-- Bits of a row. -/
def rowBits (r : Row) (hi lo : Nat) : Nat := bits r.toNat hi lo

/-- LOCK. -/
def rowLock (r : Row) : Bool := r.getLsbD 63

/-- WSRC; LOCAL waits are named after their lands and flags. -/
def rowSource (r : Row) : WaitSource :=
  match rowBits r 62 61 with
  | 1 => .land | 2 => .event | 3 => .fifo | _ => .none

/-- The wait limit in cycles; 0 = none (R507). -/
def rowLimit (r : Row) : Nat := rowBits r 51 48 * 16 ^ rowBits r 53 52

/-- The row at PC, read and checked (R504, R529). -/
def State.readRow (s : State) (e : Nat) : Option Row × State :=
  match s.readBytes .engine false Store.agate false (0x100 * e + 8 * (s.engine e).pc.toNat) 8 with
  | (some (d, _), t) => (some (BitVec.ofNat 64 (natBE d)), t)
  | (none, t) => (none, t)

/-- A row of an engine's region as the cells stand. -/
def State.peekRow (s : State) (e r : Nat) : Row :=
  let k := (0x100 * e + 8 * r) / 4
  BitVec.ofNat 64 (natBE (s.mem.plainWord ⟨Store.agate, false, k⟩ ++ s.mem.plainWord ⟨Store.agate, false, k + 1⟩))

/-! ### Lands (R510, R514 to R516) -/

/-- Whether engine `e` may drive land `n` (Table 15-18). -/
def State.permitted (s : State) (e n : Nat) : Bool :=
  e < s.part.engines &&
    (if n < 4 then (s.reg R.AGT_PINPERM_A).getLsbD (4 * n + e) else (s.reg R.AGT_PINPERM_B).getLsbD (4 * (n - 4) + e))

/-- The permitted engines that drive land `n`, lowest first. -/
def State.drivers (s : State) (n : Nat) : List Nat :=
  (List.range 4).filter fun e => s.permitted e n && (s.engine e).drives.getLsbD n

/-- The level the device gives land `n`, if an engine drives it (R514). DESIGN CHOICE (log entry 43). -/
def State.landOut (s : State) (n : Nat) : Option Bool := match s.drivers n with
  | [] => none
  | e :: _ => some ((s.engine e).values.getLsbD n)

/-- A mask of bits 0 to 7. -/
def maskOf (f : Nat → Bool) : Byte := BitVec.ofNat 8 ((List.range 8).foldl (fun m n => m + if f n then 2 ^ n else 0) 0)

/-- The lands driven and their values. DESIGN CHOICE (log entry 43). -/
def State.landsNow (s : State) : Byte × Byte :=
  (maskOf fun n => (s.landOut n).isSome, maskOf fun n => s.landOut n == some true)

/-- Sticky AGT_STATUS[15:11] bits of an engine set; the bits that went from 0 to 1 raise AGT_FLAG (Table 19-3). -/
def State.sticky (s : State) (e mask : Nat) : State :=
  let old := bits (s.reg R.AGT_STATUS e).toNat 15 11
  let new := mask &&& (31 ^^^ old)
  let s := if mask = 0 then s else s.markFresh R.AGT_STATUS (BitVec.ofNat 16 (mask * 2 ^ 11)) e
  if new = 0 then s
  else (s.setReg R.AGT_STATUS (s.reg R.AGT_STATUS e ||| BitVec.ofNat 16 (new * 2 ^ 11)) e).raise 0x58 e new

/-- Bits of the sticky mask: WAIT_TMO, LOCK_BROKEN, PIN_CONFLICT, FIFO_OVER, FIFO_UNDER. -/
def stickyTmo : Nat := 1
/-- LOCK_BROKEN. -/
def stickyLock : Nat := 2
/-- PIN_CONFLICT. -/
def stickyPin : Nat := 4
/-- FIFO_OVER. -/
def stickyOver : Nat := 8
/-- FIFO_UNDER. -/
def stickyUnder : Nat := 16

/-- The drive states of a tick: every permitted driver of a land but the lowest-numbered sets PIN_CONFLICT (R514).
DEDUCED (log entry 38). -/
def State.conflicts (s : State) : State :=
  (List.range 4).foldl
    (fun t e => if (List.range 8).any (fun n => (t.drivers n).tail.contains e) then t.sticky e stickyPin else t) s

/-- Whether a row names land `n` in a WAIT, CA, CB or SHIFT_IN field (R516). -/
def rowNames (r : Row) (srpin n : Nat) : Bool :=
  (rowSource r == .land && rowBits r 59 54 == n) || rowBits r 15 12 == n || rowBits r 11 8 == n
    || (rowBits r 24 23 == 2 && srpin == n)

/-- Whether some consumer of crossbar line `l` is set up (R516). -/
def State.consumed (s : State) (l : Nat) : Bool :=
  (List.range 8).any (fun n => s.fld F.SPN_C_CFG_SRC n == 8 && s.fld F.SPN_C_CFG_SEL n == l)
    || (List.range 4).any (fun k =>
      let c := Cells.get Capture.init s.spn.captures k
      c.cfg.getLsbD 15 && c.cfg.getLsbD 12 && (bits c.cfg.toNat 5 0 == l || (bits c.cfg.toNat 5 0 + 1) % 64 == l))
    || s.fld F.EXP_SCHED_EVENT == l
    || s.fld F.AUX_FLASH_STOP == l
    || (s.fld F.EXP_MODE_TRIG == 3 && (s.fld F.EXP_SCHED_EVENT + 1) % 64 == l)
    || (List.range 4).any (fun i => (s.peekSlot s.adcBank true i).trig == l && (s.fld F.AUX_CTRL_INJ_EN).testBit i)
    || (List.range s.part.engines).any (fun e => (s.engine e).run != .halted &&
      (List.range 32).any fun r => rowSource (s.peekRow e r) == .event && rowBits (s.peekRow e r) 59 54 == l)

/-- Whether the input buffer of land `n` is on (R516). -/
def State.bufferOn (s : State) (n : Nat) : Bool :=
  (s.landOut n).isSome
    || (List.range s.part.engines).any (fun e => (s.engine e).run != .halted &&
      (List.range 32).any fun r => rowNames (s.peekRow e r) (s.fld F.AGT_CFG_SRPIN e) n)
    || (List.range 8).any (fun c => s.fld F.SPN_C_CFG_SRC c == 7 && s.fld F.SPN_C_CFG_SEL c == n)
    || (List.range 4).any (fun k =>
      let c := Cells.get Capture.init s.spn.captures k
      c.cfg.getLsbD 15 && !c.cfg.getLsbD 12 && bits c.cfg.toNat 5 0 == n)
    || s.consumed (48 + n)

/-- The lands of `b` whose input buffers are on (R516). -/
def State.buffered (s : State) (b : Byte) : Byte :=
  if b = 0 then 0 else maskOf fun n => b.getLsbD n && s.bufferOn n

/-- The levels that this tick samples: what the device drives, else what comes from outside (R508, R516); a land that
has both levels in the tick is sampled at either (R384). DESIGN CHOICE (log entry 12). -/
def State.sample (s : State) : Byte :=
  s.buffered (((s.agt.pins ^^^ (s.agt.blur &&& Config.levelAt s.clk.now)) &&& ~~~s.agt.own.1) ||| (s.agt.own.2 &&& s.agt.own.1))

/-- The synchronised levels of AG0 to AG7: those sampled two ticks before (R508), 0 where the buffer is off (R516). -/
def State.levels (s : State) : Byte := s.buffered (s.agt.samples.getD 1 0)

/-- The lands have the levels `pins` from outside, those of `edges` the other level too within the tick. -/
def State.atPins (s : State) (pins edges : Byte) : State :=
  { s with agt := { s.agt with pins := pins, blur := s.agt.blur ||| edges } }

/-- The levels that the device gives the lands follow its drive states (R509, R515). -/
def State.drive (s : State) : State := { s with agt := { s.agt with own := s.landsNow } }

/-! ### Waiting (R506, R507) -/

/-- Line `l` carried an event in the window of engine `e`'s cycle tick, the ticks of the cycle that it ends (R503). -/
def State.inWindow (s : State) (e l : Nat) : Bool :=
  let t := Cells.get 0 s.agt.lastEvent l
  0 < t && s.clk.now < t + (s.engine e).div + 1

/-- A LOCAL operand: a land 0 to 7, or a flag 8 to 15. -/
def localBit (levels flags : Byte) (k : Nat) : Bool := if k < 8 then levels.getLsbD k else flags.getLsbD (k - 8)

/-- The wait of a row is satisfied (Table 15-4, R505). -/
def State.satisfied (s : State) (e : Nat) (r : Row) (levels : Byte) : Bool :=
  let x := s.engine e
  let w := rowBits r 59 54
  let pol := rowBits r 60 60 == 1
  match rowSource r with
  | .none => rowLimit r == 0
  | .land => w < 16 && (localBit levels x.flags w != pol)
  | .event => s.inWindow e w != pol
  | .fifo => decide (min w 16 ≤ x.fifo.length) != pol

/-! ### Executing (R509 to R513, R520, R522) -/

/-- The row after row `pc` (R512). -/
def State.afterRow (s : State) (e : Nat) (pc : BitVec 5) : BitVec 5 :=
  if pc = BitVec.ofNat 5 (s.fld F.AGT_WRAP_BOT_BOT e) then BitVec.ofNat 5 (s.fld F.AGT_WRAP_TOP_TOP e) else pc + 1

/-- A row that waits for a line of an absent engine is disabled (R30). -/
def State.rowOff (s : State) (r : Row) : Bool :=
  rowSource r == .event && 40 ≤ rowBits r 59 54 && rowBits r 59 54 < 48 && !s.lineExists (rowBits r 59 54)

/-- The row that a slot uses: disabled rows take no time, and the row after them follows (R30). DESIGN CHOICE (log entry
38). -/
def State.rowFrom (s : State) (e : Nat) (pc : BitVec 5) : Nat → BitVec 5
  | 0 => pc
  | n + 1 => if s.rowOff (s.peekRow e pc.toNat) then State.rowFrom s e (s.afterRow e pc) n else pc

/-- The PC past disabled rows. -/
def State.skipRows (s : State) (e : Nat) : State :=
  let x := s.engine e
  let pc := s.rowFrom e x.pc 32
  if pc = x.pc then s else s.setEngine e { x with pc := pc, waiting := false, waited := 0 }

/-- The next row (R512): the choice and the next PC. -/
def State.nextRow (s : State) (e : Nat) (r : Row) (levels : Byte) (tmo : Bool) : Nat × BitVec 5 :=
  let x := s.engine e
  let i := bit (localBit levels x.flags (rowBits r 11 8)) + 2 * bit (localBit levels x.flags (rowBits r 15 12))
  let target := BitVec.ofNat 5 (rowBits r 20 16)
  let bot := BitVec.ofNat 5 (s.fld F.AGT_WRAP_BOT_BOT e)
  if tmo then (1, target)
  else match rowBits r (2 * i + 1) (2 * i) with
    | 0 => (0, s.afterRow e x.pc)
    | 1 => (1, target)
    | 2 => (2, bot)
    | _ => (3, x.pc)

/-- A trace entry written (R522, R523). -/
def State.trace (s : State) (e : Nat) (b : List Byte) : State :=
  if s.flag F.AGT_CFG_TRACE e && !s.flag F.AGT_TRACE_FREEZE then
    let n := s.fld F.AGT_TRACE_WR
    let t := (s.writeBytes Store.trace false (8 * n) b).setFld F.AGT_TRACE_WR ((n + 1) % 512)
    if n = 511 then t.setFlag F.AGT_TRACE_WRAPPED true else t
  else s

/-- The actions of a row on its engine (R509 to R511): OUT, PULL, SR, PUSH, FLAG; the sticky bits they set. DEDUCED
(log entry 38). -/
def Engine.act (x : Engine) (r : Row) (srpin : Nat) (levels : Byte) : Engine × Nat :=
  let oen := BitVec.ofNat 8 (rowBits r 39 32)
  let oval := BitVec.ofNat 8 (rowBits r 47 40)
  let pull := rowBits r 26 25 == 2
  let under := pull && x.fifo.isEmpty
  let sr0 : Word := if pull then x.fifo.headD 0 else x.sr
  let fifo0 := if pull then x.fifo.drop 1 else x.fifo
  let out := rowBits r 24 23 == 1
  let srIn := rowBits r 24 23 == 2
  let pin : Byte := if out then 1#8 <<< srpin else 0
  let drives := ((x.drives ||| oen) &&& ~~~(oval &&& ~~~oen)) ||| pin
  let values0 := (x.values &&& ~~~oen) ||| (oval &&& oen)
  let values := (values0 &&& ~~~pin) ||| (if out && sr0.getLsbD 15 then pin else 0)
  let sr : Word := if out then sr0 <<< 1
    else if srIn then (sr0 <<< 1) ||| (if levels.getLsbD srpin then 1 else 0) else sr0
  let push : Option Word := match rowBits r 26 25 with
    | 1 => some sr
    | 3 => some (BitVec.ofNat 16 (x.flags.toNat * 256 + levels.toNat))
    | _ => none
  let full := push.isSome && 16 ≤ fifo0.length
  let f : Byte := 1#8 <<< rowBits r 31 29
  let flags := match rowBits r 28 27 with
    | 1 => x.flags ||| f
    | 2 => x.flags &&& ~~~f
    | 3 => x.flags ^^^ f
    | _ => x.flags
  ({ x with drives := drives, values := values, sr := sr, flags := flags
            fifo := if full then fifo0 else fifo0 ++ push.toList },
   (if under then stickyUnder else 0) + (if full then stickyOver else 0))

/-- Lands that a row's OUT or SHIFT_OUT acts on. -/
def rowActsOn (r : Row) (srpin n : Nat) : Bool :=
  (rowBits r 39 32 ||| rowBits r 47 40).testBit n || (rowBits r 24 23 == 1 && srpin == n)

/-- Engine `e` executes a row (R509 to R513, R520, R522): `inj` = an injected row, which chooses no next row; `tmo` =
executed by its limit. DEDUCED (log entry 38). -/
def State.executeRow (s : State) (e : Nat) (r : Row) (levels : Byte) (inj tmo : Bool) : State :=
  let x := s.engine e
  let srpin := s.fld F.AGT_CFG_SRPIN e
  let next := if inj then (3, x.pc) else s.nextRow e r levels tmo
  let a := x.act r srpin levels
  let forbidden := (List.range 8).any fun n => rowActsOn r srpin n && !s.permitted e n
  let y := { a.1 with flagged := x.flagged || a.1.flags != x.flags, shifted := x.shifted || a.1.sr != x.sr }
  let s := s.setEngine e
    (if inj then { y with injected := none }
     else { y with pc := next.2, waiting := false, waited := 0, since := y.since + 1 })
  let ev := rowBits r 22 21
  let s := { s with agt := { s.agt with
    raised := s.agt.raised ||| (BitVec.ofNat 64 ev <<< (40 + 2 * e)) } }
  let s := s.sticky e (a.2 + (if forbidden then stickyPin else 0) + (if tmo then stickyTmo else 0))
  s.trace e
    (bytesBE 4 (s.timeBits 32) ++ [BitVec.ofNat 8 (64 * e + 32 * bit inj + x.pc.toNat),
      BitVec.ofNat 8 (128 * bit tmo + 64 * bit (rowLock r && !inj) + next.1), levels, y.flags])

/-! ### Halting (R517 to R519) -/

/-- An engine halts (R519). -/
def State.haltEngine (s : State) (e : Nat) (why : HaltWhy) : State :=
  let x := s.engine e
  s.setEngine e { x with
    run := .halted, why := why, waiting := false, waited := 0, since := 0
    drives := if s.flag F.AGT_CFG_HALT_Z e then 0 else x.drives
    values := if s.flag F.AGT_CFG_HALT_Z e then 0 else x.values }

/-! ### Cycle ticks (R501, R506, R507, R517, R520) -/

/-- The slot of a cycle tick goes to the row at PC: it waits, executes, or executes by its limit. -/
def State.slot (s : State) (e : Nat) (r : Row) (levels : Byte) (expired : Bool) : State :=
  let x := s.engine e
  let spent := expired || decide (rowLimit r ≤ x.waited)
  if s.satisfied e r levels then s.executeRow e r levels false false
  else if rowLimit r ≠ 0 ∧ spent = true then s.executeRow e r levels false (rowSource r != .none)
  else s.setEngine e { x with waiting := true, waited := x.waited + 1 }

/-- A STEP's slot has been used. -/
def State.stepDone (s : State) (e : Nat) : State :=
  if (s.engine e).run = .stepping then s.haltEngine e .step else s

/-- A cycle begins: its divider is the one in force (R503). -/
def State.newCycle (s : State) (e : Nat) : State :=
  s.setEngine e { s.engine e with div := s.fld F.AGT_DIV_DIV_M1 e }

/-- The use of a cycle tick of engine `e` by the row `r` at PC: a pending injection at an unlocked row, a pending halt,
or the row's slot.  Where every row is disabled the engine does nothing. DEDUCED (log entry 38). -/
def State.useCycle (s : State) (e : Nat) (r : Row) (expired : Bool) : State :=
  let levels := s.levels
  let x := s.engine e
  let halting := x.run == .halting && !x.asking
  match x.injected with
  | some j =>
    if !rowLock r || x.run == .stepping then s.executeRow e j levels true false
    else if halting && 32 ≤ x.since then (s.haltEngine e .limit).sticky e stickyLock
    else if s.rowOff r then s
    else s.slot e r levels expired
  | none =>
    if halting && !rowLock r then s.haltEngine e .host
    else if halting && 32 ≤ x.since then (s.haltEngine e .limit).sticky e stickyLock
    else (if s.rowOff r then s else s.slot e r levels expired).stepDone e

/-- A cycle tick of engine `e` (R506): the row at PC is read and has its slot. -/
def State.engineCycle (s : State) (e : Nat) (expired : Bool) : State :=
  if !s.analog || s.part.engines ≤ e || (s.engine e).run == .halted then s
  else
    match (s.skipRows e).readRow e with
    | (none, t) => t
    | (some r, t) => (t.useCycle e r expired).newCycle e

/-- The wait limit of the row at PC expires in this cycle tick (R507): nothing where the row has no limit. -/
def State.waitLimit (s : State) (e : Nat) : State :=
  if rowLimit (s.peekRow e (s.rowFrom e (s.engine e).pc 32).toNat) = 0 then s else s.engineCycle e true

/-- A pending injected row executes (R520): at an unlocked row of a running engine, or in a halted engine, which runs it
in any state whose class-D state is powered. -/
def State.injectedRow (s : State) (e : Nat) : State :=
  if !s.up || s.part.engines ≤ e then s
  else match (s.engine e).injected with
    | none => s
    | some j =>
      if (s.engine e).run = .halted ∨ (s.engine e).run = .stepping then s.executeRow e j s.levels true false
      else match s.readRow e with
        | (none, t) => t
        | (some r, t) => if rowLock r then t else t.executeRow e j t.levels true false

/-! ### The host (R501, R517, R518, R520, R521, R525) -/

/-- An accepted AGT_GO write. -/
def State.agtGo (s : State) (start halt step : Nat) : State :=
  (List.range 4).foldl
    (fun t e =>
      let x := t.engine e
      if halt.testBit e then
        (if x.run = .running then t.setEngine e { x with run := .halting, since := 0, asking := true } else t)
      else if x.run ≠ .halted then t
      else
        let x := { x with waited := 0, since := 0, div := t.fld F.AGT_DIV_DIV_M1 e }
        if start.testBit e then t.setEngine e { x with run := .running }
        else if step.testBit e then t.setEngine e { x with run := .stepping }
        else t)
    s

/-- An accepted AGT_FORCE_HALT write (R518). DEDUCED (log entry 38). -/
def State.forceHalt (s : State) (mask : Nat) : State :=
  (List.range 4).foldl
    (fun t e =>
      if mask.testBit e && (t.engine e).run != .halted then
        let locked := rowLock (t.peekRow e (t.engine e).pc.toNat)
        let u := t.haltEngine e .force
        if locked then u.sticky e stickyLock else u
      else t)
    s

/-- A part of an injected row written (R520). -/
def State.injectPart (s : State) (e : Nat) (w : Word) : State :=
  let x := s.engine e
  match x.parts with
  | [a, b, c] => s.setEngine e { x with parts := [], injected := some (a ++ b ++ c ++ w) }
  | ps => s.setEngine e { x with parts := ps ++ [w] }

/-- The held parts of every engine cleared (R520). -/
def State.clearParts (s : State) : State :=
  { s with agt := { s.agt with
    engines := Cells.mapEntries Engine.init (fun _ x => { x with parts := [] }) s.agt.engines } }

/-- A host push of the FIFO (R521). -/
def State.fifoPush (s : State) (e : Nat) (w : Word) : State :=
  let x := s.engine e
  if 16 ≤ x.fifo.length then s.sticky e stickyOver else s.setEngine e { x with fifo := x.fifo ++ [w] }

/-- A host pop of the FIFO (R521): the value, the state. -/
def State.fifoPop (s : State) (e : Nat) : Nat × State :=
  let x := s.engine e
  match x.fifo with
  | [] => (0, s.sticky e stickyUnder)
  | w :: ws => (w.toNat, s.setEngine e { x with fifo := ws })

/-- HALT_WHY codes. -/
def HaltWhy.code : HaltWhy → Nat
  | .reset => 0 | .host => 1 | .limit => 2 | .force => 3 | .step => 4 | .test => 5

/-- AGT_CORE as read (Table 15-13). -/
def Engine.core (x : Engine) : Nat := 256 * x.flags.toNat + 32 * x.why.code + x.pc.toNat

/-- The live bits of AGT_STATUS (Table 15-14). -/
def Engine.live (x : Engine) : Nat :=
  2 ^ 9 * (match x.run with | .halted => 0 | .running => 1 | .stepping => 1 | .halting => 2)
    + 2 ^ 8 * bit x.waiting + 2 ^ 7 * bit x.injected.isSome + 2 ^ 5 * x.parts.length + x.fifo.length

/-- A write of AGT_CORE (R525). -/
def State.writeCore (s : State) (e : Nat) (w : Word) : State :=
  let x := s.engine e
  let x := { x with flags := BitVec.ofNat 8 (w.toNat / 256) }
  s.setEngine e (if x.run = .halted then { x with pc := BitVec.ofNat 5 w.toNat } else x)

/-! ### Ticks, tests, clearing (R506, R509, R514, R526, R528) -/

/-- The events of a tick that reach the engines: while LOST is 1, not those on the line of EXP_SCHED.EVENT (R150,
R527). -/
def State.delivered (s : State) : BitVec 64 :=
  if s.gated then s.lines &&& ~~~(1#64 <<< s.fld F.EXP_SCHED_EVENT) else s.lines

/-- The end of a tick: its events enter the windows, and its levels are sampled. -/
def State.agtClose (s : State) : State :=
  let ls := s.delivered
  let last := if ls = 0 then s.agt.lastEvent else (List.range 64).foldl
    (fun m l => if ls.getLsbD l then Cells.set 0 m l (s.clk.now + 1) else m) s.agt.lastEvent
  { s with agt := { s.agt with lastEvent := last, blur := 0, samples := s.sample :: s.agt.samples.take 3 } }

/-- The beginning of a tick: the events of the rows of the tick before come in (R509). -/
def State.agtOpen (s : State) : State :=
  { s with
    lines := s.agt.raised
    agt := { s.agt with
      raised := 0
      engines := Cells.mapEntries Engine.init
        (fun _ x => { x with asking := false, flagged := false, shifted := false }) s.agt.engines } }

/-- The drive states of a tick (R509, R514, R515), permissions as its apply left them. -/
def State.agtDrive (s : State) : State := if s.agt.engines.isEmpty then s.drive else s.drive.conflicts

/-- Every engine halts for the self-test (R528): lands hold or go Z as AGT_BIST_PINS says. -/
def State.haltForTest (s : State) : State :=
  let z := BitVec.ofNat 8 (s.fld F.AGT_BIST_PINS_Z)
  (List.range s.part.engines).foldl
    (fun t e =>
      let x := t.engine e
      t.setEngine e { x with run := .halted, why := .test, waiting := false, waited := 0, since := 0
                             drives := x.drives &&& ~~~z, values := x.values &&& ~~~z }) s |>.drive

end Sys2Proof.Machine
end

