-- ==== Sys2Proof/Machine/Attention.lean ====
section
/-! DEFINITION.
The attention causes of Table 19-5 (R190, R625, R626).
-/
namespace Sys2Proof.Machine

/-- A cause: pending, and its enable. -/
def State.cause (s : State) (enable pending : Field) : Bool := s.flag enable && s.flag pending

/-- Any sticky flag of a present engine. -/
def State.anySticky (s : State) : Bool :=
  (List.range s.part.engines).any fun e => bits (s.reg R.AGT_STATUS e).toNat 15 11 != 0

/-- The enabled causes of group 0; `ready` = RESP_READY counts. -/
def State.attnPort (s : State) (ready : Bool) : Bool :=
  (ready && s.flag F.CP_CTRL_RDY_ATTN && s.port.ready) || s.cause F.CP_CTRL_ERR_ATTN F.CP_STATUS_ERR

/-- The groups of Table 19-5 from 0 to 15, as one bit each. -/
def State.attnGroup (s : State) (ready : Bool) (n : Nat) : Bool :=
  match n with
  | 0 => s.attnPort ready
  | 1 => s.cause F.PWR_WARN_ATTN_EN F.PWR_STATUS_WARN_LATCH || s.cause F.FLT_CTRL_CPD_ATTN F.PWR_STATUS_CP_DROOP
  | 2 => s.cause F.CLK_CTRL_ATTN_EN F.CLK_STATUS_LOST
  | 3 => s.cause F.BND_CTRL_APPLY_ATTN F.BND_STATUS_APPLIED || s.cause F.BND_CTRL_TMO_ATTN F.BND_STATUS_TIMEOUT_LATCH
  | 4 => s.cause F.POS_LOSS_LOST_ATTN F.POS_STATUS_LOST_LATCH || s.cause F.POS_LOSS_HOLD_ATTN F.POS_STATUS_HOLD_LATCH
      || s.cause F.POS_LOSS_ZMISS_ATTN F.POS_STATUS_ZMISS
  | 5 => (s.flag F.AUX_CTRL_OW_ATTN && s.fld F.AUX_OW_STAT_OPEN_LATCH != 0)
      || s.cause F.AUX_CTRL_OVF_ATTN F.AUX_STATUS_QOVF || (s.flag F.AUX_CTRL_QW_ATTN && s.qwater)
  | 6 => s.flag F.TMP_CFG_ATTN_EN && (s.flag F.TMP_STATUS_OVER || s.flag F.TMP_STATUS_UNDER
      || s.flag F.TMP_STATUS_SENSOR || s.flag F.TMP_STATUS_STALE_LATCH)
  | 7 => s.cause F.PB_CFG_ATTN_EN F.PB_STATUS_DONE
  | 8 => s.cause F.MEM_CTRL_REPEAT_ATTN F.MEM_STATUS_REPEAT || s.cause F.MEM_CTRL_MACRO_ATTN F.MEM_STATUS_MACRO
      || s.cause F.MEM_CTRL_LATE_ATTN F.MEM_STATUS_SCRUB_LATE || s.cause F.MEM_CTRL_CORR_ATTN F.MEM_STATUS_CORR
  | 9 => s.cause F.BST_CTRL_ATTN_EN F.BST_STATUS_DONE
  | 10 => s.cause F.FLT_CTRL_NEW_ATTN F.FLT_STATUS_NEW
  | 11 => s.flag F.FLT_CTRL_EV_ATTN && decide (max 1 (s.fld F.FLT_CTRL_EV_WATER) ≤ s.flt.events.length)
  | 12 => s.flag F.FLT_CTRL_AGT_ATTN && s.anySticky
  | 13 => s.flag F.FLT_CTRL_STREAM_ATTN && (s.flag F.EXP_CTRL_OVERRUN || s.flag F.EXP_CTRL_NO_SLATE
      || s.flag F.EXP_CTRL_NEEDS_REF || s.flag F.LN_STATUS_OVF || s.flag F.LN_STATUS_ANNEX_SKIP)
  | 15 => s.pwr.state == .safe
  | _ => false

/-- FLT_ATTN (R626). -/
def State.attnGroups (s : State) : Nat :=
  (List.range 16).foldl (fun n k => n + if s.attnGroup true k then 2 ^ k else 0) 0

/-- Some enabled cause is pending; `ready` = RESP_READY counts (R190, Table 05-7). -/
def State.attnPending (s : State) (ready : Bool) : Bool := (List.range 16).any (s.attnGroup ready)

/-- Step 1 of a test run begins (R604): partition 2 will hold the level that ATTN_N has now (R602). -/
def State.beginLbist (s : State) : State :=
  { s with bst := { s.bst with run := s.bst.run.map fun r => { r with step := 1, attn := s.attnPending true } } }

end Sys2Proof.Machine
end

