-- ==== Sys2Proof/Machine/PBus.lean ====
section
/-! DEFINITION.
The peripheral bus of chapter 16 as controller: host transfers, the device's own record transfers, arbitration,
acknowledge polling, recovery; and what the target side keeps.
-/
namespace Sys2Proof.Machine

/-- The state with the bus unit replaced. -/
def State.setPB (s : State) (x : PBus) : State := { s with pb := x }

/-- The LBIST partition under test (R604), if step 1 of a run is in progress. -/
def State.partition (s : State) : Option Nat := match s.bst.run with
  | some r => if r.step = 1 then some (Config.lbistAt s.clk.now) else none
  | none => none

/-- The bus works (R534, R684): in Standby, Armed and Streaming, and in the Waking and Testing that leave one of them,
but for the test of partition 3 (R602). -/
def State.busOn (s : State) : Bool :=
  (s.up || s.pwr.state == .testing || (s.pwr.state == .waking && s.pwr.from_ == .standby)) && s.partition != some 3

/-! ### Outcomes (Table 16-7) -/

/-- ERR codes. -/
inductive BusError where
  | none | nackAddr | nackData | arbLost | arbSr | inhibit | sdaStuck | sclStuck | aborted | verify
  deriving DecidableEq, Repr

/-- The code of an outcome. -/
def BusError.code : BusError → Nat
  | .none => 0 | .nackAddr => 1 | .nackData => 2 | .arbLost => 3 | .arbSr => 4 | .inhibit => 5 | .sdaStuck => 6
  | .sclStuck => 7 | .aborted => 8 | .verify => 9

/-! ### Addresses (R548, R549) -/

/-- A 7-bit address that the specification reserves (R548). -/
def reservedAddr (a : Nat) : Bool := a ≤ 0x07 || 0x78 ≤ a

/-- First address of the EEPROM block. -/
def State.blockBase (s : State) : Nat := roundDown (s.fld F.PB_EE_ADDR) (2 ^ s.fld F.PB_EE_BLK)

/-- Whether a 7-bit address lies in the EEPROM block. -/
def State.inBlock (s : State) (a : Nat) : Bool :=
  s.blockBase ≤ a && a < s.blockBase + 2 ^ s.fld F.PB_EE_BLK

/-- Device address and address bytes of an EEPROM memory address (R549). -/
def State.eeAddress (s : State) (m : Nat) : Nat × List Byte :=
  if s.flag F.PB_EE_AW then (s.blockBase, bytesBE 2 m)
  else (roundDown s.blockBase 8 + bits m 10 8, bytesBE 1 m)

/-- Memory address of the record. -/
def State.recordBase (s : State) : Nat := 0x40 * s.fld F.PB_EE_RECOFS

/-- Page size in bytes (Table 16-10). -/
def State.pageSize (s : State) : Nat := 8 * 2 ^ s.fld F.PB_EE_PAGE

/-! ### Own transfers (R551 to R553, R609) -/

/-- An own transfer of a job: the invalidation, a page of the record, the readback. -/
def State.ownTransfer (s : State) (job : BusJob) : Transfer :=
  let at_ (o : Nat) : Nat × List Byte := s.eeAddress (s.recordBase + o)
  let make (o : Nat) (op : BusOp) (d : List Byte) (rlen : Nat) : Transfer :=
    { job := job, op := op, addr := (at_ o).1, out := (at_ o).2 ++ d, rlen := rlen, sent := false, losses := 0,
      backoff := false, polling := false, aborting := false }
  match job with
  | .invalidate => make 3 .write [0] 0
  | .page o => make o .write ((s.bst.record.drop o).take s.pageSize) 0
  | _ => make 0 .writeRead [] 64

/-- An own transfer starts, or waits for the host transfer that runs (R554). DEDUCED (log entry 39). -/
def State.startOwn (s : State) (job : BusJob) : State :=
  let t := s.ownTransfer job
  if s.pb.xfer.isSome then s.setPB { s.pb with next := some t } else s.setPB { s.pb with xfer := some t }

/-- Whether an own transfer runs or waits. -/
def PBus.own (x : PBus) : Bool := x.next.isSome || x.xfer.any fun t => t.job != .host

/-- What follows the end of an own transfer: the invalidation ends step 0; a page is followed by the next or by the
readback, unless it failed; a readback that matches completes the record (R551, R552, R609). -/
def State.ownEnded (s : State) (job : BusJob) (err : BusError) (data : List Byte) : State :=
  match job with
  | .host => s
  | .invalidate => s.beginLbist
  | .page o =>
    if err ≠ .none then s
    else if o + s.pageSize < 64 then s.startOwn (.page (o + s.pageSize)) else s.startOwn .readback
  | .readback =>
    if err ≠ .none then s
    else if data = s.bst.record then s.setFlag F.BST_STATUS_EE_OK true
    else s.setFld F.PB_STATUS_ERR BusError.verify.code

/-- The transfer ends (R537): ERR, and for a host transfer DONE with its event; a waiting own transfer takes over. -/
def State.endTransfer (s : State) (t : Transfer) (err : BusError) (data : List Byte) : State :=
  let s := (s.setPB { s.pb with xfer := s.pb.next, next := none }).setFld F.PB_STATUS_ERR err.code
  if t.job = .host then (s.setFlag F.PB_STATUS_DONE true).raise 0x40 noUnit err.code
  else s.ownEnded t.job err data

/-! ### START, arbitration (R538 to R541, R550) -/

/-- Whether the inhibit refuses the transfer's START (R550). DEDUCED (log entry 39). -/
def State.inhibited (s : State) (t : Transfer) : Bool := s.pwr.warn && t.op == .write && !t.polling && s.inBlock t.addr

/-- The transfer in progress replaced. -/
def State.putTransfer (s : State) (t : Transfer) : State := s.setPB { s.pb with xfer := some t }

/-- An attempt is lost (R540): counted; the transfer backs off, or ends when it was the last. -/
def State.loseAttempt (s : State) (t : Transfer) : State :=
  let s := s.count F.PB_ERR_ARB_LOSSES
  if s.fld F.PB_CFG_RETRY ≤ t.losses then s.endTransfer t .arbLost []
  else s.putTransfer { t with sent := false, losses := t.losses + 1, backoff := true }

/-- The START of a transfer for which the bus is free (R538, R550); pending injections 0x17 and 0x18 act here. -/
def State.sendStart (s : State) (t : Transfer) : State :=
  if s.inhibited t then s.endTransfer t .inhibit []
  else if t.losses = 0 ∧ t.polling = false ∧ s.injArg 0x18 = some 0 then
    s.injDone.injected fun u => (u.setFlag F.PB_STATUS_STUCK true).endTransfer t .sdaStuck []
  else if t.losses = 0 ∧ t.polling = false ∧ s.injArg 0x17 = some 0 then s.injDone.injected fun u => u.loseAttempt t
  else s.putTransfer { t with sent := true }

/-- The bus is free, so no other controller's transfer goes on: one that waits for it sends its START; a backoff must
end first. -/
def State.busFree (s : State) : State :=
  let u := s.setPB { s.pb with target := .idle }
  match s.pb.xfer with
  | some t => if s.busOn && !t.sent && !t.backoff then u.sendStart t else s
  | none => s

/-- The backoff after bus free ends: the transfer starts again (R540). DEDUCED (log entry 39). -/
def State.backoffEnd (s : State) : State :=
  match s.pb.xfer with
  | some t =>
    if s.busOn && t.backoff then (s.setPB { s.pb with target := .idle }).sendStart { t with backoff := false } else s
  | none => s

/-- Whether an address byte names the device's own target address (R540, R545). -/
def State.namesTarget (s : State) (b : Byte) : Bool := s.flag F.PB_TGT_EN && b.toNat / 2 == s.fld F.PB_TGT_ADDR

/-- Arbitration is lost in a bit of the transfer (R540); `winner` is the winning address byte where it was lost in
one. -/
def State.arbLost (s : State) (winner : Option Byte) : State :=
  match s.pb.xfer with
  | some t =>
    if s.busOn && (t.sent || t.polling) then
      let u := s.loseAttempt t
      match winner with
      | some b =>
        if s.namesTarget b then
          u.setPB { u.pb with target := if b.getLsbD 0 then .readOut else .written false }
        else u
      | none => u
    else s
  | none => s

/-- Arbitration is lost at a STOP or a repeated START (R541). -/
def State.arbSr (s : State) : State :=
  match s.pb.xfer with
  | some t => if s.busOn && (t.sent || t.polling) then (s.count F.PB_ERR_ARB_LOSSES).endTransfer t .arbSr [] else s
  | none => s

/-! ### The end of a transfer (R537, R542, R543, R556) -/

/-- Bytes read into the buffer from byte 0 on. -/
def State.fillBuffer (s : State) (d : List Byte) : State :=
  s.setPB { s.pb with buffer := Cells.setRange 0 s.pb.buffer 0 (d.take 32) }

/-- The bytes that a transfer read go to the buffer, or, of an own transfer, to its comparison. -/
def State.received (s : State) (t : Transfer) (d : List Byte) : State :=
  if t.job = .host then s.fillBuffer (d.take t.rlen) else s

/-- The bus side of the transfer has ended with its STOP. DEDUCED (log entry 39). -/
def State.busDone (s : State) (e : BusEnd) : State :=
  match s.pb.xfer with
  | none => s
  | some t =>
    if !s.busOn || !t.sent || t.polling then s
    else if s.injArg 0x17 = some 1 then s.injDone.injected fun u => u.arbSr
    else match e with
    | .complete d =>
      let s := if t.op = .write then s else s.received t d
      if t.op = .write ∧ s.inBlock t.addr then s.putTransfer { t with sent := false, polling := true }
      else s.endTransfer t .none (d.take t.rlen)
    | .nackAddr => (s.count F.PB_ERR_NACKS).endTransfer t .nackAddr []
    | .nackData => (s.count F.PB_ERR_NACKS).endTransfer t .nackData []
    | .aborted d =>
      if t.aborting then ((if t.op = .write then s else s.received t d)).endTransfer t .aborted [] else s

/-- The polling after a write to the EEPROM block ends: acknowledged, or 25 ms have passed (R556). -/
def State.pollEnd (s : State) (acknowledged : Bool) : State :=
  match s.pb.xfer with
  | some t =>
    if s.busOn && t.polling then s.endTransfer t (if acknowledged then .none else .nackAddr) [] else s
  | none => s

/-! ### Recovery (R555, R557) -/

/-- A recovery ends: SDA high, or still low after nine pulses. -/
def State.recovered (s : State) (freed : Bool) : State :=
  if !s.busOn || freed then s
  else
    let u := s.setFlag F.PB_STATUS_STUCK true
    match s.pb.xfer with
    | some t => if t.sent then u else u.endTransfer t .sdaStuck []
    | none => u

/-- SCL was held low for 25 ms: the transfer ends, whether its START has been sent or waits for the bus. -/
def State.sclStuck (s : State) : State :=
  match s.pb.xfer with
  | some t => if s.busOn then s.endTransfer t .sclStuck [] else s
  | none => s

/-! ### Host requests (R537, R543, R550) -/

/-- Whether the start of a host transfer is refused. -/
def State.startRefused (s : State) (op : BusOp) (wlen rlen : Nat) : Bool :=
  s.pb.xfer.isSome || s.pb.next.isSome || 32 < wlen || 32 < rlen || (op != .read && wlen == 0)
    || (op != .write && rlen == 0) || reservedAddr (s.fld F.PB_XADDR_TADDR)

/-- The host transfer that a write of PB_XFER names. -/
def State.hostTransfer (s : State) (op : BusOp) (wlen rlen : Nat) : Transfer :=
  { job := .host, op := op, addr := s.fld F.PB_XADDR_TADDR
    out := if op = .read then [] else Cells.getRange 0 s.pb.buffer 0 wlen
    rlen := if op = .write then 0 else rlen
    sent := false, losses := 0, backoff := false, polling := false, aborting := false }

/-- A write of PB_XFER with an OP that starts a transfer. -/
def State.startHost (s : State) (op : BusOp) (wlen rlen : Nat) : State :=
  if s.startRefused op wlen rlen then s.setFlag F.PB_STATUS_REFUSED true
  else
    let t := s.hostTransfer op wlen rlen
    let u := ((s.setFld F.PB_XFER_WLEN wlen).setFld F.PB_XFER_RLEN rlen).putTransfer t
    if u.inhibited t then u.endTransfer t .inhibit [] else u

/-- A write of PB_XFER with OP = 0b00: a running host transfer is aborted, at once where no byte is in progress.
DEDUCED (log entry 39). -/
def State.abortHost (s : State) : State :=
  match s.pb.xfer with
  | some t =>
    if t.job ≠ .host then s
    else if t.sent then s.putTransfer { t with aborting := true }
    else s.endTransfer t .aborted []
  | none => s

/-- A write of PB_XFER. -/
def State.writeXfer (s : State) (w : Word) : State :=
  let wlen := F.PB_XFER_WLEN.of w
  let rlen := F.PB_XFER_RLEN.of w
  match F.PB_XFER_OP.of w with
  | 1 => s.startHost .write wlen rlen
  | 2 => s.startHost .read wlen rlen
  | 3 => s.startHost .writeRead wlen rlen
  | _ => ((s.setFld F.PB_XFER_WLEN wlen).setFld F.PB_XFER_RLEN rlen).abortHost

/-- PB_DATA as read: bytes PTR and PTR + 1, high byte first. -/
def State.bufferWord (s : State) : Nat :=
  let p := s.fld F.PB_XADDR_PTR
  (Cells.get 0 s.pb.buffer p).toNat * 256 + (Cells.get 0 s.pb.buffer ((p + 1) % 32)).toNat

/-- PTR advances by 2, modulo 32. -/
def State.bufferNext (s : State) : State := s.setFld F.PB_XADDR_PTR ((s.fld F.PB_XADDR_PTR + 2) % 32)

/-- A write of PB_DATA. -/
def State.bufferWrite (s : State) (w : Word) : State :=
  let p := s.fld F.PB_XADDR_PTR
  let b := Cells.set 0 s.pb.buffer p (BitVec.ofNat 8 (w.toNat / 256))
  (s.setPB { s.pb with buffer := Cells.set 0 b ((p + 1) % 32) (BitVec.ofNat 8 w.toNat) }).bufferNext

/-- The live bits of PB_STATUS (Table 16-13). -/
def State.busLive (s : State) : Nat :=
  2 ^ 15 * bit s.pb.xfer.isSome + 2 ^ 12 * bit (s.pb.xfer.any fun t => t.job != .host) + 2 ^ 11 * bit s.pwr.warn

/-! ### The target side (R545) -/

/-- The device answers as target: EN at the START, and on to the end of the transfer (R545, R548); never beside a
transfer of its own that has its START (R544, R560). -/
def State.targetOn (s : State) : Bool :=
  s.busOn && (s.flag F.PB_TGT_EN || s.pb.target != .idle) && !s.pb.xfer.any Transfer.sent

/-- Byte 1 of a target write sets the pointer. -/
def State.targetPointer (s : State) (b : Byte) : State :=
  if s.targetOn then s.setPB { s.pb with pointer := b.toNat, target := .written false } else s

/-- A STOP or a repeated START ends the target transfer. -/
def State.targetStop (s : State) : State := s.setPB { s.pb with target := .idle }

/-- The pointer advances by 1, to past the end at most. -/
def PBus.advance (x : PBus) : PBus := { x with pointer := if x.pointer < 0x100 then x.pointer + 1 else x.pointer }

/-! ### Clearing (R545, R558) -/

/-- A reset, or entry to Dormant or Safe: the transfer is abandoned, the buffer cleared; `keepPointer` on the moves
that keep it. -/
def PBus.clear (x : PBus) (keepPointer : Bool) : PBus :=
  { PBus.init with pointer := if keepPointer then x.pointer else 0 }

end Sys2Proof.Machine
end

