-- ==== Sys2Proof/Machine/Spine.lean ====
section
/-! DEFINITION.
The Spine of chapter 11: counters with their prescalers, compare channels, capture pairs, and how they follow the
position.
-/
namespace Sys2Proof.Machine

/-! ### Access -/

/-- Counter `n`. -/
def State.counter (s : State) (n : Nat) : Counter := Cells.get Counter.init s.spn.counters n

/-- The state with counter `n` replaced. -/
def State.setCounter (s : State) (n : Nat) (c : Counter) : State :=
  { s with spn := { s.spn with counters := Cells.set Counter.init s.spn.counters n c } }

/-- Compare channel `m`. -/
def State.compare (s : State) (m : Nat) : Compare := Cells.get Compare.init s.spn.compares m

/-- The state with channel `m` replaced. -/
def State.setCompare (s : State) (m : Nat) (c : Compare) : State :=
  { s with spn := { s.spn with compares := Cells.set Compare.init s.spn.compares m c } }

/-- Capture pair `k`. -/
def State.capture (s : State) (k : Nat) : Capture := Cells.get Capture.init s.spn.captures k

/-- The state with pair `k` replaced. -/
def State.setCapture (s : State) (k : Nat) (c : Capture) : State :=
  { s with spn := { s.spn with captures := Cells.set Capture.init s.spn.captures k c } }

/-! ### Sources (Table 11-3) -/

/-- Counter sources; codes 0x9 to 0xF are never stored. -/
inductive Source where
  | off | sclk | sclk16 | refclk | encX1 | encX2 | encX4 | ag | event
  deriving DecidableEq, Repr

/-- The source a counter selects. -/
def State.source (s : State) (n : Nat) : Source :=
  match s.fld F.SPN_C_CFG_SRC n with
  | 1 => .sclk | 2 => .sclk16 | 3 => .refclk | 4 => .encX1 | 5 => .encX2 | 6 => .encX4 | 7 => .ag | 8 => .event
  | _ => .off

/-- Weight of an encoder source, in quarters of a count per ec; 0 for the others. -/
def Source.weight : Source → Nat
  | .encX1 => 1 | .encX2 => 2 | .encX4 => 4 | _ => 0

/-- Sources that hold while CLK_TIME holds (R139, R150, R408). -/
def Source.clocked : Source → Bool
  | .sclk => true | .sclk16 => true | .refclk => true | _ => false

/-- Whether a counter is position-locked: PLOCK with an encoder source (R382). -/
def State.locked (s : State) (n : Nat) : Bool := s.flag F.SPN_C_CFG_PLOCK n && (s.source n).weight != 0

/-- The divisor of the registers, 16.16. -/
def State.divisorReg (s : State) (n : Nat) : Nat := s.fld F.SPN_C_DIV_HI_INT n * 2 ^ 16 + s.fld F.SPN_C_DIV_LO_FRAC n

/-! ### Stepping -/

/-- Input of `units`, in 1/65,536 of a count of input, accumulated: remainder in [0, D), and the counts stepped
(R380, R381).  One input of at most D either way gives at most one step. -/
def Counter.feed (c : Counter) (units : Int) : Counter × Int :=
  let total : Int := c.rem + units
  let steps := total / (c.div : Int)
  ({ c with rem := (total % (c.div : Int)).toNat, value := c.value + BitVec.ofInt 48 steps }, steps)

/-- Value and remainder of a position-locked counter (R382): floor(w × P / D) and w × P − D × value.
`p` counts 1/256 ec, `w` quarters, and the result is in 1/65,536 of a count. -/
def Counter.lockTo (c : Counter) (w : Nat) (p : BitVec 48) : Counter :=
  let x := 64 * w * p.toNat
  { c with value := BitVec.ofNat 48 (x / c.div), rem := x % c.div }

/-- The signed distance from one 48-bit value to another, the shorter way round. -/
def delta48 (a b : BitVec 48) : Int := (b - a).toInt

/-! ### Compare channels (R393 to R400) -/

/-- Whether a channel matches now (R394, R395). -/
def State.matches_ (s : State) (m : Nat) : Bool :=
  let c := s.compare m
  let v := (s.counter (s.fld F.SPN_M_CFG_CNT m)).value
  s.flag F.SPN_M_CFG_EN m &&
    (if s.flag F.SPN_M_CFG_MODE m then c.pending && (v - c.value).toNat < 2 ^ 47
     else v == c.value && !c.equal)

/-- Counter `n` stepped, or became SPENT, in this tick (R390). -/
def State.markStep (s : State) (n : Nat) (spent : Bool) : State :=
  { s with spn := { s.spn with
    stepped := s.spn.stepped ||| (1#8 <<< n), spentNow := if spent then s.spn.spentNow ||| (1#8 <<< n) else s.spn.spentNow } }

/-- Channel `m` auto-added in this tick (R397). -/
def State.markAdded (s : State) (m : Nat) : State :=
  { s with spn := { s.spn with added := s.spn.added ||| (1#16 <<< m) } }

/-- A counter reaches its terminal count: a running one-shot becomes SPENT and line 16 + n carries an event (R388). -/
def State.spend (s : State) (n : Nat) : State :=
  let c := s.counter n
  if s.flag F.SPN_C_CFG_ONESHOT n && c.run == .running then
    ((s.setCounter n { c with run := .spent }).markStep n true).raiseLine (16 + n)
  else s

/-- What a match of channel `m` does: MATCH, the event on its line, the auto-add, the terminal count (R393, R397,
R388). -/
def State.doMatch (s : State) (m : Nat) : State :=
  let c := s.compare m
  let auto := s.flag F.SPN_M_CFG_AUTO m
  let n := s.fld F.SPN_M_CFG_CNT m
  let t := s.setFlag F.SPN_M_STAT_MATCH true m
  let t := t.raiseLine (s.fld F.SPN_M_CFG_LINE m)
  let t := if auto then
      (t.setCompare m { c with
        value := c.value + BitVec.ofNat 48 (s.fld F.SPN_M_INTERVAL_INTERVAL m), pending := true, equal := true }).markAdded m
    else t.setCompare m { c with pending := false, equal := true }
  if s.flag F.SPN_M_CFG_STOP m then t.spend n else t

/-- Channel `m` compared once (R393): a match acts; without one, DIRECT remembers whether it was equal (R394). -/
def State.compareOne (s : State) (m : Nat) : State :=
  if s.matches_ m then s.doMatch m
  else if s.flag F.SPN_M_CFG_EN m then
    let c := s.compare m
    s.setCompare m { c with equal := (s.counter (s.fld F.SPN_M_CFG_CNT m)).value == c.value }
  else s

/-- Every channel compared once: the compares of one tick (R393, R400). -/
def State.compareAll (s : State) : State := (List.range 16).foldl State.compareOne s

/-- The smallest value of the grid `c + k × interval` greater than `v`, and k (R399), the signed distances taken the
shorter way round. -/
def gridAbove (c v : BitVec 48) (interval : Nat) : BitVec 48 × Int :=
  let k := delta48 c v / (interval : Int) + 1
  (c + BitVec.ofInt 48 (k * (interval : Int)), k)

/-- A change of counter `n` by more than one count in a tick: every enabled WINDOW channel with auto-add bound to it is
realigned without matching; the intervals that each moved, by channel (R399). -/
def State.realign (s : State) (n : Nat) : List (Nat × Int) × State :=
  (List.range 16).foldl
    (fun acc m =>
      let t := acc.2
      if t.flag F.SPN_M_CFG_EN m && t.flag F.SPN_M_CFG_MODE m && t.flag F.SPN_M_CFG_AUTO m
          && t.fld F.SPN_M_CFG_CNT m == n then
        let c := t.compare m
        let g := gridAbove c.value (t.counter n).value (t.fld F.SPN_M_INTERVAL_INTERVAL m)
        (acc.1 ++ [(m, g.2)], t.setCompare m { c with value := g.1, pending := true, equal := false })
      else acc)
    ([], s)

/-- How the position changed: motion of the web, or a shift of the origin (R383). -/
inductive Move where
  | motion | origin
  deriving DecidableEq, Repr

/-- Counter `n` with a new value and remainder: a change of the value is a step (R390), one of more than a count
realigns its channels; the channels moved, with their intervals (R399). -/
def State.stepTo (s : State) (n : Nat) (c : Counter) : List (Nat × Int) × State :=
  let d := delta48 (s.counter n).value c.value
  let t := s.setCounter n c
  let t := if d = 0 then t else t.markStep n false
  if 1 < d.natAbs && (s.source n).weight != 0 then t.realign n else ([], t)

/-- Counter `n` after accumulating an input (R380, R381). -/
def State.feedOne (s : State) (n : Nat) (units : Int) : List (Nat × Int) × State :=
  let c := s.counter n
  if c.run = .running then s.stepTo n (c.feed units).1 else ([], s)

/-- A running position-locked counter takes the value of P (R382). -/
def State.lockOne (s : State) (n : Nat) : List (Nat × Int) × State :=
  let c := s.counter n
  if c.run = .running ∧ s.locked n = true then s.stepTo n (c.lockTo (s.source n).weight s.pos.p) else ([], s)

/-- Counter `n` follows a change of P (R381 to R383): a running locked counter takes the value of the new P; another
running encoder counter takes the signed change as input, unless only the origin moved. -/
def State.followOne (s : State) (kind : Move) (old : BitVec 48) (n : Nat) : List (Nat × Int) × State :=
  let w := (s.source n).weight
  if s.locked n then s.lockOne n
  else if w ≠ 0 ∧ kind = .motion then s.feedOne n (64 * (w : Int) * delta48 old s.pos.p)
  else ([], s)

/-- `f` for every counter in turn: the channels realigned, sorted by their numbers with their intervals, and the
state. -/
def State.eachCounter (s : State) (f : State → Nat → List (Nat × Int) × State) : List (Nat × Int) × State :=
  let r := (List.range 8).foldl
    (fun acc n => let o := f acc.2 n; (acc.1 ++ o.1, o.2)) (([] : List (Nat × Int)), s)
  ((List.range 16).flatMap fun m => r.1.filter fun e => e.1 == m, r.2)

/-- Every counter follows a change of P: the channels realigned with their intervals. -/
def State.followAll (s : State) (kind : Move) (old : BitVec 48) : List (Nat × Int) × State :=
  s.eachCounter fun t n => t.followOne kind old n

/-- Whether COUNTER_STEP brings the pulses of a counter: REFCLK edges come from outside, and hold with the other clocks
(R408); every other source is the tick's own. DESIGN CHOICE (log entry 27). -/
def State.outside (s : State) (n : Nat) : Bool := s.source n == .refclk && !s.clk.held

/-- A pulse of REFCLK enters the prescaler of counter `n` (R380). DESIGN CHOICE (log entry 27). -/
def State.countInput (s : State) (n : Nat) : State := if s.outside n then (s.feedOne n 65536).2 else s

/-- The input of one tick to a counter that is not position-locked, in 1/65,536 (R380, R381, Table 11-3): `was` is the
P of the tick before, `events` its event lines, `rise` and `fall` the counted edges of the lands. -/
def State.tickInput (s : State) (n : Nat) (was : BitVec 48) (events : BitVec 64) (rise fall : Byte) : Int :=
  let sel := s.fld F.SPN_C_CFG_SEL n
  let edge := s.fld F.SPN_C_CFG_EDGE n
  match s.source n with
  | .off => 0
  | .refclk => 0
  | .sclk => 65536 * bit (!s.clk.held)
  | .sclk16 => 65536 * bit (s.clk.started && !s.clk.held && s.clk.time.toNat % 16 == 0)
  | .ag => 65536 * bit (decide (sel < 8) && ((edge != 1 && rise.getLsbD sel) || (edge != 0 && fall.getLsbD sel)))
  | .event => 65536 * bit (s.lineExists sel && events.getLsbD sel)
  | src => 64 * (src.weight : Int) * delta48 was s.pos.p

/-- `f` on counter `n` under the settings in force before an apply of this tick, those of `old` (R391): a counter whose
settings changed keeps the value that the old ones give, and the new remainder. -/
def State.underOld (s old : State) (n : Nat) (f : State → Nat → List (Nat × Int) × State) : List (Nat × Int) × State :=
  let o := old.counter n
  let c := s.counter n
  if o.rem = c.rem ∧ o.div = c.div ∧ old.reg R.SPN_C_CFG n = s.reg R.SPN_C_CFG n then f s n
  else
    let t := { s with regs := old.regs, spn := { s.spn with
      counters := Cells.set Counter.init s.spn.counters n ({ o with run := c.run, value := c.value } : Counter) } }
    s.stepTo n { c with value := ((f t n).2.counter n).value }

/-- The position-locked counters as `old` has them: what P was in between they have not seen (R382). -/
def State.lockedAs (s old : State) : State :=
  (List.range 8).foldl (fun t n => if t.locked n then t.setCounter n (old.counter n) else t) s

/-! ### Starting and halting (R386 to R388) -/

/-- GO and HALT of one counter: HALT wins; a released locked counter takes the value of R382. -/
def State.goOne (s : State) (go halt : Nat) (n : Nat) : State :=
  let c := s.counter n
  if halt.testBit n then (if c.run = .idle then s else s.setCounter n { c with run := .idle })
  else if go.testBit n && c.run == .idle then
    let c' := { c with run := .running }
    s.setCounter n (if s.locked n then c'.lockTo (s.source n).weight s.pos.p else c')
  else s

/-- Whether an SPN_GO write releases a position-locked counter without a reference (R387). -/
def State.goNeedsRef (s : State) (go halt : Nat) : Bool :=
  !s.pos.ref && (List.range 8).any fun n =>
    go.testBit n && !halt.testBit n && (s.counter n).run == .idle && s.locked n

/-- An accepted SPN_GO write: all counters in one tick. -/
def State.spnGo (s : State) (go halt : Nat) : State :=
  (List.range 8).foldl (fun t n => t.goOne go halt n) s

/-- A write of 1 to ARM: a SPENT counter runs again with its value as it stands (R388). -/
def State.arm (s : State) (n : Nat) : State :=
  let c := s.counter n
  if c.run = .spent then s.setCounter n { c with run := .running } else s

/-! ### Loads (R389, R396) -/

/-- A 48-bit value from its holding words and the word written. -/
def join48 (hi mid lo : Word) : BitVec 48 := BitVec.ofNat 48 (hi.toNat * 2 ^ 32 + mid.toNat * 2 ^ 16 + lo.toNat)

/-- Bits [47:32], [31:16], [15:0] of a 48-bit value: part 0, 1, 2 (R6). -/
def part48 (v : BitVec 48) (k : Nat) : Nat := v.toNat / 2 ^ (16 * (2 - k)) % 2 ^ 16

/-- A counter loaded: value from the holding registers and `lo`, remainder cleared (R389). -/
def State.loadCounter (s : State) (n : Nat) (lo : Word) : State :=
  let c := s.counter n
  s.setCounter n { c with value := join48 c.holdHi c.holdMid lo, rem := 0 }

/-- A compare value loaded, compared from the next tick; a WINDOW channel is pending again if the value changed, a
DIRECT channel compares afresh (R394 to R396).  An auto-add of the tick is lost and ADD_LOST sets (R397): one that the
tick has done, or with `lost` one that meets the write. DESIGN CHOICE (log entry 20). -/
def State.loadCompare (s : State) (m : Nat) (lo : Word) (lost : Bool) : State :=
  let c := s.compare m
  let v := join48 c.holdHi c.holdMid lo
  let t := s.setCompare m { c with value := v, pending := c.pending || v != c.value, equal := false }
  if s.spn.added.getLsbD m || (lost && s.flag F.SPN_M_CFG_AUTO m) then t.setFlag F.SPN_M_STAT_ADD_LOST true m else t

/-- The effect of new counter settings (R391): the remainder is cleared where SRC, SEL, EDGE or the divisor changed,
and the prescaler takes the divisor registers when `takeDiv`. -/
def State.counterSettings (s : State) (n : Nat) (cfgChanged takeDiv : Bool) : State :=
  let c := s.counter n
  let d := if takeDiv then s.divisorReg n else c.div
  if cfgChanged || d != c.div then s.setCounter n { c with rem := 0, div := d } else s

/-- The enabling of a channel makes it pending and compares it afresh (R394, R395). DEDUCED (log entry 27). -/
def State.enableCompare (s : State) (m : Nat) : State :=
  s.setCompare m { s.compare m with pending := true, equal := false }

/-! ### Capture pairs (R403 to R406) -/

/-- SPN_K_CFG fields. -/
def Capture.en (k : Capture) : Bool := k.cfg.getLsbD 15
/-- HOLD. -/
def Capture.hold (k : Capture) : Bool := k.cfg.getLsbD 14
/-- The counter captured. -/
def Capture.cnt (k : Capture) : Nat := bits k.cfg.toNat 11 9
/-- KIND = 1: event lines. -/
def Capture.events (k : Capture) : Bool := k.cfg.getLsbD 12
/-- SEL. -/
def Capture.sel (k : Capture) : Nat := bits k.cfg.toNat 5 0

/-- POL = 1: a low pulse. -/
def Capture.low (k : Capture) : Bool := k.cfg.getLsbD 13

/-- Whether the pair can see pulses at all: enabled; a pin pair names a land with SEL[5:3] = 0, an event pair lines that
can carry events (R37, Table 11-19). -/
def State.watches (s : State) (c : Capture) (start : Bool) : Bool :=
  c.en && (if c.events then s.lineExists (if start then c.sel else (c.sel + 1) % 64) else c.sel < 8)

/-- What a pulse start does to a pair (R403 to R405): the pair, and whether it raises its line. -/
def Capture.start (c : Capture) (v : BitVec 48) : Capture × Bool :=
  if c.hold && c.done then ({ c with ovr := true }, false) else ({ c with rise := v, opened := true }, true)

/-- What a pulse end does to a pair (R403 to R405). -/
def Capture.finish (c : Capture) (v : BitVec 48) : Capture × Bool :=
  if !c.opened || (c.hold && c.done) then (c, false)
  else ({ c with
    fall := v, width := min (v - c.rise).toNat 0xFFFFFFFF, opened := false, done := true,
    ovr := c.ovr || c.done, seq := (c.seq + 1) % 256 }, true)

/-- A pair stored, with the flags that hardware has newly set (R633). -/
def State.putCapture (s : State) (k : Nat) (c : Capture) (ovr done : Bool) : State :=
  let w : Word := BitVec.ofNat 16 (2 * bit ovr + bit done)
  let t := s.setCapture k c
  if w = 0 then t else t.markFresh R.SPN_K_DATA w k

/-- A pulse start of pair `k` (R403 to R405). -/
def State.pulseStart (s : State) (k : Nat) : State :=
  let c := s.capture k
  if s.watches c true then
    let r := c.start (s.counter c.cnt).value
    let t := s.putCapture k { r.1 with undo := some (c.rise, c.opened, c.ovr) } (c.hold && c.done) false
    if r.2 then t.raiseLine (24 + k) else t
  else s

/-- A pulse end of pair `k` (R403 to R405); it comes before a start of its tick (R404). -/
def State.pulseEnd (s : State) (k : Nat) : State :=
  let c := s.capture k
  if s.watches c false then
    let v := (s.counter c.cnt).value
    match c.undo with
    | none =>
      let r := c.finish v
      let t := s.putCapture k r.1 (r.2 && c.done) r.2
      if r.2 then t.raiseLine (28 + k) else t
    | some (rise, opened, ovr) =>
      let r := { c with rise := rise, opened := opened, ovr := ovr, undo := none }.finish v
      let u := r.1.start v
      let t := s.putCapture k u.1 (r.2 && c.done || (r.1.hold && r.1.done)) r.2
      if r.2 then t.raiseLine (28 + k) else t
  else s

/-- The pulses that the pairs see in one tick (R403): events of the tick before on the lines of an event pair, edges of
this tick on the land of a pin pair; an end first, then a start (R404). -/
def State.captureTick (s : State) (events : BitVec 64) (rise fall : Byte) : State :=
  (List.range 4).foldl
    (fun t k =>
      let c := t.capture k
      let on := if c.events then events.getLsbD c.sel else (if c.low then fall else rise).getLsbD c.sel
      let off := if c.events then events.getLsbD ((c.sel + 1) % 64) else (if c.low then rise else fall).getLsbD c.sel
      let u := if off then t.pulseEnd k else t
      if on then u.pulseStart k else u) s

/-- The counters, captures and compares of one tick (R379, R393, R400, R403): the locked counters take the value of P,
the pairs capture and every channel compares, then every other counter takes its input.  `old` holds the settings before
an apply of the tick. -/
def State.spineTick (s old : State) (was : BitVec 48) (events : BitVec 64) (rise fall : Byte) : State :=
  let t := (s.eachCounter fun t n => t.underOld old n State.lockOne).2
  let t := (t.captureTick events rise fall).compareAll
  (t.eachCounter fun t n => t.underOld old n fun u k =>
    if u.locked k then ([], u) else u.feedOne k (u.tickInput k was events rise fall)).2

/-- The marks of the tick before are gone. -/
def Spine.newTick (v : Spine) : Spine :=
  { v with stepped := 0, spentNow := 0, added := 0
           captures := Cells.mapEntries Capture.init (fun _ c => { c with undo := none }) v.captures }

/-- A write of SPN_K_CFG (R406). -/
def State.writeCaptureCfg (s : State) (k : Nat) (w : Word) : State :=
  s.setCapture k { s.capture k with cfg := w &&& 0xFE3F, opened := false, undo := none }

/-! ### Clearing (R410) -/

/-- Runtime state cleared; the divisor in use and SPN_K_CFG kept where class B is kept. -/
def Spine.clear (v : Spine) (keepB : Bool) : Spine :=
  if keepB then
    { Spine.init with
      counters := Cells.mapEntries Counter.init (fun _ c => { Counter.init with div := c.div }) v.counters
      captures := Cells.mapEntries Capture.init (fun _ k => { Capture.init with cfg := k.cfg }) v.captures }
  else Spine.init

end Sys2Proof.Machine
end

