-- ==== Sys2Proof/Machine/Position.lean ====
section
/-! DEFINITION.
The position unit of chapter 12: decoding, the velocity estimator, the reference, loss, holdover and re-lock.
-/
namespace Sys2Proof.Machine

/-! ### Values -/

/-- A whole position as a P value, fraction 0. -/
def wholeP (c : BitVec 40) : BitVec 48 := BitVec.ofNat 48 (c.toNat * 256)

/-- The integer part of a P value. -/
def intP (p : BitVec 48) : BitVec 40 := BitVec.ofNat 40 (p.toNat / 256)

/-- The sign of a direction: forward is `true`. -/
def dirSign (fwd : Bool) : Int := if fwd then 1 else -1

/-- e = C − P in 1/256 ec (Table 12-1). -/
def Position.error (x : Position) : Int := (wholeP x.c - x.p).toInt

/-- EST: the state is HOLDOVER, LOST or RELOCK (R427). -/
def Position.est (x : Position) : Bool := x.state == .holdover || x.state == .lost || x.state == .relock

/-- STILL: T exceeds 2^(12 + STILL) tk (R420); no threshold with the field 0, and none at v = 0. -/
def State.still (s : State) : Bool :=
  let f := s.fld F.POS_LOSS_STILL
  f != 0 && decide (s.pos.v ≠ 0) && decide (|s.pos.v| * 2 ^ (12 + f) < 1)

/-- The state with the position unit replaced. -/
def State.setPos (s : State) (x : Position) : State := { s with pos := x }

/-- P takes a value and the counters follow; the realigned channels in the order of their numbers (R381 to R383,
R399). -/
def State.moveP (s : State) (kind : Move) (new : BitVec 48) : List (Nat × Int) × State :=
  (s.setPos { s.pos with p := new }).followAll kind s.pos.p

/-- The intervals that the lowest-numbered realigned channel on the line of EXP_SCHED.EVENT moved; 0 if none did
(R425, R429). -/
def State.linesMoved (s : State) (moved : List (Nat × Int)) : Int :=
  match moved.find? fun e => s.fld F.SPN_M_CFG_LINE e.1 == s.fld F.EXP_SCHED_EVENT with
  | some e => e.2
  | none => 0

/-- Skipped lines counted in POS_SKIPPED, repeated ones in DUP_PEND (R425, R429); both stay within 16 bits. DEDUCED
(log entry 36). -/
def State.account (s : State) (k : Int) : State :=
  if 0 ≤ k then s.countBy F.POS_SKIPPED_COUNT (min k.toNat 0xFFFF)
  else s.setPos { s.pos with dupPend := min (s.pos.dupPend + k.natAbs) 0xFFFF }

/-! ### The course of P between edges (R419, R425, R426, R430) -/

/-- The exact course above the anchor at the present tick, in ec. -/
def State.course (s : State) : Rat :=
  s.pos.frac + (if s.pos.state = .track ∨ s.pos.state = .holdover then
    s.pos.v * ((s.clk.now - s.pos.anchorTick : Nat) : Rat) else 0)

/-- A course in ec, rounded to 1/256 ec by the rule the spec leaves open. DESIGN CHOICE (log entry 13). -/
def round256 (x : Rat) : Int := roundOpen (256 * x).num (256 * x).den

/-- The state with the course taken over at the present tick, so that v or the rate may change. -/
def State.rebase (s : State) : State := s.setPos { s.pos with frac := s.course, anchorTick := s.clk.now }

/-- P = C with fraction 0, the anchor at C in the present tick. -/
def State.anchorAtC (s : State) : State :=
  s.setPos { s.pos with anchor := s.pos.c, anchorTick := s.clk.now, frac := 0 }

/-- P of the present tick (R419, R425, R426, R430): it never steps backward, and the interpolation of TRACK stays
within one ec short of the next count. DESIGN CHOICE (log entry 13). -/
def State.nextP (s : State) : BitVec 48 :=
  let a := wholeP s.pos.anchor
  let cur := (s.pos.p - a).toInt
  let rel := round256 s.course
  let along (r : Int) : BitVec 48 := a + BitVec.ofInt 48 (if s.pos.v < 0 then min cur r else max cur r)
  match s.pos.state with
  | .track => along (if s.pos.v < 0 then max (-255) rel else min 255 rel)
  | .holdover => along rel
  | .relock => along rel
  | _ => s.pos.p

/-- The estimate falls while the web is STILL (R420, R432). -/
def State.stillFall (s : State) : State :=
  match s.pos.lastEdge with
  | some t0 =>
    let w : Rat := 1 / ((s.clk.now - t0 : Nat) : Rat)
    if (s.pos.state = .track ∨ s.pos.state = .relock) ∧ s.still = true ∧ s.frozen = false ∧ w < |s.pos.v| then
      s.setPos { s.pos with v := if s.pos.v < 0 then -w else w }
    else s
  | none => s

/-- A slew's advance of one tick (R430). -/
def State.slewAdvance (s : State) : State :=
  if s.pos.state = .relock then
    let behind := decide (0 < s.pos.error * s.pos.v.num)
    s.setPos { s.pos with
      frac := s.pos.frac + s.pos.v * (if behind then 102 / 100 else 98 / 100), anchorTick := s.clk.now }
  else s

/-! ### Loss (R425, R426) -/

/-- Holdover ends: LOST, P freezes (R426, R424). -/
def State.encLose (s : State) : State :=
  if s.pos.state = .holdover then
    let t := s.rebase
    let t := t.setPos { t.pos with
      state := .lost, ref := t.pos.ref && !t.flag F.POS_CFG_LOSS_UNREF }
    (t.setFlag F.POS_STATUS_LOST_LATCH true).injectedIf t.pos.injLoss fun u => u.raise 0x29 noUnit 0
  else s

/-- Whether the loss window has passed without an edge (R425): FACTOR × T, T taken at the last edge. -/
def State.lossDue (s : State) : Bool :=
  match s.pos.lastEdge with
  | some t0 => decide ((s.fld F.POS_LOSS_FACTOR : Rat) < ((s.clk.now - t0 : Nat) : Rat) * |s.pos.vEdge|)
  | none => false

/-- A loss is declared (R425): in TRACK with STILL = 0 only.  P steps to its course; the lines passed are counted;
with POS_HOLD_LINES = 0 holdover ends at once. -/
def State.encHold (s : State) (inj : Bool) : State :=
  if s.analog && s.pos.state == .track && !s.still then
    let s := s.setPos { s.pos with state := .holdover, run := [], injLoss := inj }
    let m := s.moveP .motion s.nextP
    let k := s.linesMoved m.1
    let t := m.2.account k
    let t := t.setPos { t.pos with holdLines := 0, holdFrom := t.pos.p }
    let t := (t.setFlag F.POS_STATUS_HOLD_LATCH true).injectedIf inj fun u => u.raise 0x28 noUnit (max k 0).toNat
    if t.fld F.POS_HOLD_LINES_LINES = 0 then t.encLose else t
  else s

/-- Whether P has moved the 65,535 ec after which holdover ends, or its lines have come (R426). -/
def State.holdOver (s : State) : Bool :=
  s.fld F.POS_HOLD_LINES_LINES ≤ s.pos.holdLines || 65535 * 256 ≤ (s.pos.p - s.pos.holdFrom).toInt.natAbs

/-- One trigger event delivered on the line of EXP_SCHED.EVENT: counted in HOLDOVER, which ends with the last of
POS_HOLD_LINES (R426). -/
def State.holdEvent (s : State) : State :=
  if s.pos.state = .holdover then
    let t := s.setPos { s.pos with holdLines := s.pos.holdLines + 1 }
    if t.fld F.POS_HOLD_LINES_LINES ≤ t.pos.holdLines then t.encLose else t
  else s

/-- What the unit decides at the end of a tick, after its edges (R425, R426, Table 12-4): a trigger line that carried an
event, a loss, the end of holdover. DEDUCED (log entry 36). -/
def State.posClose (s : State) : State :=
  let s := if s.lineHigh (s.fld F.EXP_SCHED_EVENT) then s.holdEvent else s
  let s := if s.lossDue then s.encHold false else s
  if s.holdOver then s.encLose else s

/-! ### Return and re-lock (R428 to R430) -/

/-- A slew converges: it ends in TRACK with P = C, RELOCKED and its event (R430). DEDUCED (log entry 36). -/
def State.converge (s : State) : State :=
  if s.pos.state = .relock then
    let inj := s.pos.injLoss
    let t := (s.setPos { s.pos with state := .track, injLoss := false }).anchorAtC
    ((t.setPos { t.pos with p := wholeP t.pos.c }).setFlag F.POS_STATUS_RELOCKED true).injectedIf inj
      fun u => u.raise 0x2A noUnit 0
  else s

/-- The phase error has closed to below 1/16 ec (R430): the counters follow the step. -/
def State.encRelocked (s : State) : State :=
  if s.pos.state = .relock ∧ s.pos.error.natAbs < 16 then (s.converge.followAll .motion s.pos.p).2 else s

/-- One tick of the position unit, which runs in Armed and Streaming (R436): P moves along its course; a slew that has
closed to below 1/16 ec converges (R430). -/
def State.posTick (s : State) : State :=
  if s.analog && (s.pos.state == .track || s.pos.state == .holdover || s.pos.state == .relock) then
    let t := s.stillFall.slewAdvance
    let t := t.setPos { t.pos with p := t.nextP }
    if t.pos.state = .relock ∧ t.pos.error.natAbs < 16 then t.converge else t
  else s

/-- JUMP (R429). -/
def State.jump (s : State) : State :=
  let t := (s.setPos { s.pos with state := .track, injLoss := false }).anchorAtC
  let m := t.moveP .motion (wholeP t.pos.c)
  m.2.account (t.linesMoved m.1)

/-- The signal has returned with the estimate `v'`, if the edges set one (R428): JUMP, or SLEW for an error of at most
65,535 ec. DEDUCED (log entry 36). -/
def State.encReturn (s : State) (v' : Option Rat) : State :=
  let t := s.rebase
  let v := v'.getD t.pos.v
  let t := t.setPos { t.pos with v := v, vEdge := v }
  if t.flag F.POS_LOSS_RELOCK ∨ 65535 * 256 < t.pos.error.natAbs then t.jump
  else t.setPos { t.pos with state := .relock }

/-! ### Edges (R414 to R418, R428) -/

/-- The decoded edge, if any, of an accepted change of one land: `some true` is forward (R414). -/
def State.edgeDir (s : State) (a b : Bool) : Option Bool :=
  let aEdge := a != s.pos.a
  let bEdge := b != s.pos.b
  let cfg := s.pos.was.getD (s.reg R.POS_CFG)
  let counted := match F.POS_CFG_DECODE.of cfg with
    | 0 => aEdge && !b
    | 1 => aEdge
    | _ => aEdge || bEdge
  if counted then some ((if aEdge then a != b else b == a) != (F.POS_CFG_DIR.of cfg == 1)) else none

/-- The estimate from a run of edges, newest first, of which the last `n` are taken (R417): `prev` is the interval to
an edge before it counted in the same direction. -/
def runVelocity (n : Nat) (fwd : Bool) (run : List Nat) (prev : Option Nat) : Option Rat :=
  if n ≤ 1 then prev.map fun d => (dirSign fwd : Rat) / (d : Rat)
  else if n ≤ run.length then
    some ((dirSign fwd : Rat) * ((n - 1 : Nat) : Rat) / ((run.headD 0 - run.getD (n - 1) 0 : Nat) : Rat))
  else none

/-- A decoded edge (R414, R416 to R418, R428, R430, R432). DEDUCED (log entry 36). -/
def State.edge (s : State) (fwd : Bool) : State :=
  let x := s.pos
  let now := s.clk.now
  let same := x.lastEdge.isSome && x.back == !fwd
  let prev := x.lastEdge.map fun t0 => now - t0
  let run := if same && !x.run.isEmpty then now :: x.run.take 15 else [now]
  let n := s.fld F.POS_LOSS_RET_EDGES
  let v' := runVelocity n fwd run (if same then prev else none)
  let s := s.setPos { x with
    c := x.c + BitVec.ofInt 40 (dirSign fwd), back := !fwd, run := run, lastEdge := some now }
  let filtered : Rat := match prev with
    | some d => x.v + ((dirSign fwd : Rat) / (d : Rat) - x.v) / 2 ^ s.fld F.POS_CFG_BW
    | none => x.v
  let take (s : State) (v : Rat) : State := s.setPos { s.pos with v := v, vEdge := v }
  match x.state with
  | .acquire =>
    let t := (take s (v'.getD 0)).setPos { (take s (v'.getD 0)).pos with state := if v'.isSome then .track else .acquire }
    let t := t.anchorAtC
    (t.moveP .motion (wholeP t.pos.c)).2
  | .track =>
    let t :=
      (if 0 ≤ (dirSign fwd : Rat) * x.v then take s (if s.frozen then x.v else filtered)
       else let u := take s 0; u.setPos { u.pos with state := .acquire }).anchorAtC
    (t.moveP .motion (wholeP t.pos.c)).2
  | .relock =>
    if 0 ≤ (dirSign fwd : Rat) * x.v then take s (if s.frozen then x.v else filtered)
    else
      let u := take s 0
      let t := (u.setPos { u.pos with state := .acquire, injLoss := false }).anchorAtC
      (t.moveP .motion (wholeP t.pos.c)).2
  | _ => if n ≤ run.length then s.encReturn v' else s

/-! ### Reference (R421, R422, R433) -/

/-- Whether ZMODE accepts an index pulse. DEDUCED (log entry 36). -/
def State.indexAccepted (s : State) : Bool :=
  match s.fld F.POS_CFG_ZMODE with
  | 0 => false
  | 1 => !s.pos.ref
  | _ => true

/-- An accepted index pulse takes effect in direction `fwd` (R421, R422, R431, R433). DEDUCED (log entry 36). -/
def State.index (s : State) (fwd : Bool) : State :=
  let x := s.pos
  let zc : BitVec 40 := intP x.zValue + BitVec.ofInt 40 (if fwd then 0 else -1)
  let zd : Int := match x.zPrev with
    | some c0 => clampInt (-32767) 32767 (x.c - c0).toInt
    | none => 0
  let forced := (s.injArg 0x09).isSome
  let miss := forced ||
    (x.zPrev.isSome && s.fld F.POS_Z_SPAN_SPAN != 0 && zd.natAbs != s.fld F.POS_Z_SPAN_SPAN)
  let s := if forced then s.injDone else s
  let s := s.setPos { x with c := zc, zPrev := some zc, zDelta := zd, ref := true, dupPend := 0, zOpen := false }
  let t := (s.anchorAtC.moveP .origin (wholeP zc)).2
  let t := t.setPos { t.pos with
    holdFrom := t.pos.holdFrom + (wholeP zc - x.p)
    state := if x.state = .relock then .track else x.state }
  let t := t.raiseLine 35
  let t := if x.state = .relock then
      let inj := t.pos.injLoss
      ((t.setPos { t.pos with injLoss := false }).setFlag F.POS_STATUS_RELOCKED true).injectedIf inj
        fun u => u.raise 0x2A noUnit 0
    else t
  if miss then
    (t.setFlag F.POS_STATUS_ZMISS true).injectedIf forced fun u => u.raise 0x2B noUnit (unsigned 16 zd)
  else t

/-- Whether the filter accepts a synchronised level that has held for `held` ticks, this one counted (R414). -/
def State.accepts (s : State) (held : Nat) : Bool := s.fld F.POS_CFG_FILT ≤ held

/-- The accepted level of a land whose last accepted level is `old`. -/
def State.accepted (s : State) (old : Bool) (l : PinLevel) : Bool := if s.accepts l.held then l.high else old

/-- Accepted levels of ENC_A and ENC_B (R414, R415): a change of both is a quadrature error; a decoded edge counts and
may let a gated index pulse take effect, to whose P the locked counters go at once (R382, R421). -/
def State.encLevels (s : State) (a b : Bool) : State :=
  if !s.analog then s
  else if a != s.pos.a && b != s.pos.b then
    (s.setPos { s.pos with a := a, b := b }).setFlag F.POS_STATUS_QERR true
  else
    let t := s.setPos { s.pos with a := a, b := b }
    match s.edgeDir a b with
    | none => t
    | some fwd =>
      if (s.injArg 0x08).isSome then t.injDone.setFlag F.POS_STATUS_QERR true
      else
        let t := t.edge fwd
        let open_ := s.pos.state != .holdover && s.pos.state != .lost
        if open_ && t.flag F.POS_CFG_ZG_EN && t.pos.zOpen && t.pos.z && 2 * bit a + bit b == t.fld F.POS_CFG_ZGATE
            && t.indexAccepted then (t.lockedAs s).index fwd
        else t

/-- An accepted level of ENC_Z (R421): a rise opens a pulse, which takes effect at once with ZG_EN = 0. -/
def State.encZ (s : State) (z : Bool) : State :=
  if !s.analog then s
  else
    let rise := z && !s.pos.z
    let t := s.setPos { s.pos with z := z, zOpen := if rise then true else s.pos.zOpen && z }
    if rise && !t.flag F.POS_CFG_ZG_EN && t.indexAccepted then t.index (!t.pos.back) else t

/-- A preset of P (R423, R431). -/
def State.preset (s : State) (new : BitVec 48) : State :=
  let x := s.pos
  let d := (new - x.p).toInt
  let whole := d / 256
  let up (c : BitVec 40) : BitVec 40 := c + BitVec.ofInt 40 whole
  let s := s.setPos { x with
    c := up x.c, anchor := up x.anchor, zPrev := x.zPrev.map up
    frac := x.frac + ((d % 256 : Int) : Rat) / 256
    holdFrom := x.holdFrom + (new - x.p), ref := true, dupPend := 0 }
  (s.moveP .origin new).2

/-! ### Configuration, registers, clearing -/

/-- An apply or live write changed POS_CFG from `old` (R424, R434). -/
def State.posConfig (s : State) (old : Word) : State :=
  let differs (f : Field) : Bool := f.of old != s.fld f
  let s := s.setPos { s.pos with was := s.pos.was <|> some old }
  let s := if differs F.POS_CFG_DECODE || differs F.POS_CFG_DIR then s.setPos { s.pos with ref := false } else s
  if differs F.POS_CFG_DECODE || differs F.POS_CFG_DIR || differs F.POS_CFG_FILT then
    s.setPos { s.pos with v := 0, state := .acquire, run := [], injLoss := false }
  else s

/-- STATE codes of Table 12-10. -/
def PosState.code : PosState → Nat
  | .acquire => 0 | .track => 1 | .holdover => 2 | .lost => 3 | .relock => 4

/-- The live bits of POS_STATUS (Table 12-10). -/
def State.posLive (s : State) : Nat :=
  128 * bit s.still + 64 * bit s.pos.back + 32 * bit s.pos.est + 16 * bit s.pos.ref + s.pos.state.code

/-- v in 2⁻³² ec per tk. DESIGN CHOICE (log entry 13). -/
def Position.vel (x : Position) : Int := roundOpen (x.v * 2 ^ 32).num (x.v * 2 ^ 32).den

/-- POS_DATA by part (Table 12-12). -/
def State.posPart (s : State) (part : Nat) : Nat :=
  let x := s.pos
  let e : Nat := if x.est then unsigned 32 x.error else 0
  let v := unsigned 32 x.vel
  match part with
  | 0x0 => part48 x.p 0
  | 0x1 => part48 x.p 1
  | 0x2 => part48 x.p 2
  | 0x3 => part48 (wholeP x.c) 0
  | 0x4 => part48 (wholeP x.c) 1
  | 0x5 => part48 (wholeP x.c) 2
  | 0x6 => e / 2 ^ 16
  | 0x7 => e % 2 ^ 16
  | 0x8 => v / 2 ^ 16
  | 0x9 => v % 2 ^ 16
  | 0xA => unsigned 16 x.zDelta
  | 0xB => part48 x.zValue 0
  | 0xC => part48 x.zValue 1
  | 0xD => part48 x.zValue 2
  | 0xE => x.dupPend
  | _ => 0

/-- A 48-bit value with one of its three words replaced. -/
def with48 (v : BitVec 48) (k : Nat) (w : Word) : BitVec 48 :=
  BitVec.ofNat 48 (v.toNat - part48 v k * 2 ^ (16 * (2 - k)) + w.toNat * 2 ^ (16 * (2 - k)))

/-- A write of a POS_DATA part other than the preset (Table 12-12). -/
def State.posWrite (s : State) (part : Nat) (w : Word) : State :=
  match part with
  | 0x0 => s.setPos { s.pos with holdHi := w }
  | 0x1 => s.setPos { s.pos with holdMid := w }
  | 0xB => s.setPos { s.pos with zValue := with48 s.pos.zValue 0 w }
  | 0xC => s.setPos { s.pos with zValue := with48 s.pos.zValue 1 w }
  | 0xD => s.setPos { s.pos with zValue := with48 s.pos.zValue 2 w }
  | _ => s

/-- The unit cleared (R436); Z_VALUE is kept where class B is kept. -/
def Position.clear (x : Position) (keepB : Bool) : Position :=
  { Position.init with zValue := if keepB then x.zValue else 0 }

end Sys2Proof.Machine
end

