-- ==== Sys2Proof/Machine/Symbols.lean ====
section
/-! DEFINITION.
The code groups of the lanes (R342, R346): the 8b/10b code of IEEE 802.3 clause 36 with its running disparity, which the
spec names and does not print, and the ordered sets of Table 10-2.  PRESUMED (log entry 44).
-/
namespace Sys2Proof.Machine

/-- What a lane sends in one symbol time (Table 10-2): a byte as a data code group, or a control code group. -/
inductive Symbol where
  | data (b : Byte)
  /-- K28.5, the first of an idle ordered set -/
  | comma
  /-- K28.1, the first of a marker -/
  | mark
  /-- K27.7 -/
  | sof
  /-- K29.7 -/
  | eof
  /-- K30.7 -/
  | void
  deriving DecidableEq, Repr

/-- Bits abcdei of the code of five bits at negative running disparity, by the value of the five bits; 32 is that of
K28. -/
def code6 : Nat → BitVec 6
  | 0 => 0b100111 | 1 => 0b011101 | 2 => 0b101101 | 3 => 0b110001 | 4 => 0b110101 | 5 => 0b101001 | 6 => 0b011001
  | 7 => 0b111000 | 8 => 0b111001 | 9 => 0b100101 | 10 => 0b010101 | 11 => 0b110100 | 12 => 0b001101 | 13 => 0b101100
  | 14 => 0b011100 | 15 => 0b010111 | 16 => 0b011011 | 17 => 0b100011 | 18 => 0b010011 | 19 => 0b110010
  | 20 => 0b001011 | 21 => 0b101010 | 22 => 0b011010 | 23 => 0b111010 | 24 => 0b110011 | 25 => 0b100110
  | 26 => 0b010110 | 27 => 0b110110 | 28 => 0b001110 | 29 => 0b101110 | 30 => 0b011110 | 31 => 0b101011
  | _ => 0b001111

/-- Bits fghj of the code of three bits at negative running disparity; 8 is the alternate code of seven. -/
def code4 : Nat → BitVec 4
  | 0 => 0b1011 | 1 => 0b1001 | 2 => 0b0101 | 3 => 0b1100 | 4 => 0b1101 | 5 => 0b1010 | 6 => 0b0110 | 7 => 0b1110
  | _ => 0b0111

/-- Ones less zeros of a sub-block of `n` bits. -/
def disparity (n w : Nat) : Int := 2 * (((List.range n).map fun i => bit (w.testBit i)).foldl (· + ·) 0 : Nat) - n

/-- The running disparity after a sub-block: that of an unbalanced one, else unchanged. -/
def nextDisparity (rd : Bool) (n w : Nat) : Bool := if disparity n w = 0 then rd else decide (0 < disparity n w)

/-- The sub-block of six bits at disparity `rd`: the complement at positive disparity where the block is unbalanced or
is that of 7. -/
def sub6 (rd : Bool) (x : Nat) : BitVec 6 :=
  let w := code6 x
  if rd && (disparity 6 w.toNat != 0 || x == 7) then ~~~w else w

/-- The sub-block of four bits at disparity `rd`; `y` = 8 is the alternate code. -/
def sub4 (rd : Bool) (y : Nat) : BitVec 4 :=
  let w := code4 y
  if rd && (disparity 4 w.toNat != 0 || y == 3) then ~~~w else w

/-- The code of seven that a data group takes: the alternate one where the plain one would give a run of five. -/
def sevenOf (rd : Bool) (x : Nat) : Nat :=
  if (!rd && (x == 17 || x == 18 || x == 20)) || (rd && (x == 11 || x == 13 || x == 14)) then 8 else 7

/-- A data code group, bit a leftmost, and the running disparity after it. -/
def dataGroup (rd : Bool) (b : Byte) : BitVec 10 × Bool :=
  let x := b.toNat % 32
  let y := b.toNat / 32
  let six := sub6 rd x
  let rd1 := nextDisparity rd 6 six.toNat
  let four := sub4 rd1 (if y = 7 then sevenOf rd1 x else y)
  (six ++ four, nextDisparity rd1 4 four.toNat)

/-- A control code group Kx.y at negative running disparity; at positive it is the complement. -/
def controlGroup (rd : Bool) (six : BitVec 6) (four : BitVec 4) : BitVec 10 × Bool :=
  let w := six ++ four
  (if rd then ~~~w else w, if disparity 10 w.toNat = 0 then rd else !rd)

/-- The code group of a symbol, bit a first (R342), and the running disparity after it. -/
def Symbol.group (rd : Bool) : Symbol → BitVec 10 × Bool
  | .data b => dataGroup rd b
  | .comma => controlGroup rd 0b001111 0b1010
  | .mark => controlGroup rd 0b001111 0b1001
  | .sof => controlGroup rd 0b110110 0b1000
  | .eof => controlGroup rd 0b101110 0b1000
  | .void => controlGroup rd 0b011110 0b1000

/-- The code groups of a string of symbols, and the running disparity after them. -/
def groups (rd : Bool) : List Symbol → List (BitVec 10) × Bool
  | [] => ([], rd)
  | x :: xs =>
    let g := x.group rd
    let r := groups g.2 xs
    (g.1 :: r.1, r.2)

/-- An idle ordered set: /I1/ at positive running disparity, which it makes negative, else /I2/ (Table 10-2). -/
def idleSet (rd : Bool) : List Symbol := [.comma, .data (if rd then 0xC5 else 0x50)]

/-- A run of `n` idle ordered sets. -/
def idleRun (rd : Bool) : Nat → List Symbol
  | 0 => []
  | n + 1 => idleSet rd ++ (List.replicate n (idleSet false)).flatten

/-- A marker of a lane with its STATE (R346, R347). -/
def markerSet (state q : Nat) : List Symbol := [.mark, .data (BitVec.ofNat 8 (16 * state + q))]

end Sys2Proof.Machine
end

