-- ==== Sys2Proof/Machine/Lanes.lean ====
section
/-! DEFINITION.
The lanes of chapter 10: folios and their bytes, the lane FIFOs, the spill, annex folios and markers.
-/
namespace Sys2Proof.Machine

/-- Lane `q`. -/
def State.lane (s : State) (q : Nat) : Lane := Cells.get Lane.init s.lanes.lanes q

/-- The state with lane `q` replaced. -/
def State.setLane (s : State) (q : Nat) (x : Lane) : State :=
  { s with lanes := { s.lanes with lanes := Cells.set Lane.init s.lanes.lanes q x } }

/-- Whether lane `q` sends code groups: biased, and the lane of a present quire (R345). -/
def State.laneOn (s : State) (q : Nat) : Bool := s.lanes.running && s.analog && q < s.part.quires

/-! ### FLAGS bits (Table 10-6) -/

/-- SW. -/
def Flag.sw : Nat := 2 ^ 15
/-- EST. -/
def Flag.est : Nat := 2 ^ 14
/-- DUP. -/
def Flag.dup : Nat := 2 ^ 13
/-- GAP. -/
def Flag.gap : Nat := 2 ^ 12
/-- STR. -/
def Flag.str : Nat := 2 ^ 11
/-- POS_REF. -/
def Flag.posRef : Nat := 2 ^ 10
/-- ECC_CORR. -/
def Flag.eccCorr : Nat := 2 ^ 9
/-- FL_VALID. -/
def Flag.flValid : Nat := 2 ^ 8
/-- LAST. -/
def Flag.last : Nat := 2 ^ 7
/-- BUF. -/
def Flag.buf : Nat := 2 ^ 6
/-- OVF. -/
def Flag.ovf : Nat := 2 ^ 5

/-! ### Bytes of a folio (R349, R355, R356) -/

/-- The sixteen header bytes (Tables 10-5 and 10-8). -/
def Folio.header (f : Folio) : List Byte :=
  [BitVec.ofNat 8 ((if f.annex then 0x20 else 0x10) + f.lane)] ++ bytesBE 3 f.frame ++ bytesBE 2 f.row
    ++ bytesBE 4 (f.pos / 256) ++ bytesBE 1 f.pos ++ bytesBE 2 f.flags ++ bytesBE 1 f.gen ++ bytesBE 2 f.last

/-- KIND of the legacy header: active, black or test row, from the row field's upper bits (Tables 07-3 and 10-7). -/
def legacyKind (row : Nat) : Nat := if row < 0x1000 then 0 else if row < 0x2000 then 1 else 2

/-- The legacy header (Table 10-7). -/
def Folio.legacyHeader (f : Folio) : List Byte :=
  let ovr := f.flags / Flag.gap % 2 = 1 ∨ f.flags / Flag.str % 2 = 1
  let b := [0x5A, BitVec.ofNat 8 (64 * legacyKind f.row + f.lane)] ++ bytesBE 2 (f.row % 0x1000)
    ++ bytesBE 2 f.frame ++ [if ovr then 0x80 else 0x00]
  b ++ [xorAll b]

/-- The bytes between SOF and EOF: legacy header, header, payload, CRC-32 (Table 10-4). -/
def Folio.bytes (f : Folio) : List Byte :=
  let b := (if f.legacy then f.legacyHeader else []) ++ f.header ++ f.payload
  b ++ bytesBE 4 (crc32 b).toNat

/-- Symbol times with its marker, which is also its room in the FIFO (R348): P + 24, or P + 32. -/
def Folio.size (f : Folio) : Nat := f.payload.length + (if f.legacy then 32 else 24)

/-- Codes of `m` bits as one bit string, most significant bit first. -/
def codeBits (m : Nat) (codes : List Nat) : List Bool :=
  codes.flatMap fun c => (List.range m).map fun i => c.testBit (m - 1 - i)

/-- The payload of a line folio (R352). -/
def packCodes (word : Bool) (m : Nat) (codes : List Nat) : List Byte :=
  if word then codes.flatMap fun c => bytesBE 2 c
  else
    let b := codeBits m codes
    let n := (b.length + 7) / 8
    wholeBytes n (b ++ List.replicate (8 * n - b.length) false)

/-! ### FIFO and spill (R363, R364) -/

/-- Bytes of a lane FIFO. -/
def fifoSize : Nat := 32768

/-- Bytes in a lane's FIFO. -/
def Lane.used (x : Lane) : Nat := (x.fifo.map Folio.size).foldl (· + ·) 0

/-- Whether a folio fits whole. -/
def Lane.fits (x : Lane) (f : Folio) : Bool := x.used + f.size ≤ fifoSize

/-- The lowest free page of the spill, if any. -/
def State.freeSpillPage (s : State) : Option Nat :=
  s.spillPages.find? fun p => Cells.get .free s.mem.pages p == .free

/-- A line folio dropped on lane `q` (R363). DEDUCED (log entry 35). -/
def State.dropFolio (s : State) (q : Nat) : State :=
  let t := s.setLane q { s.lane q with ovf := true }
  (t.count F.LN_DROPPED_COUNT).streamLoss F.LN_STATUS_OVF q 5

/-- A folio put into the spill: its payload lies in the page. DEDUCED (log entry 35). -/
def State.spillFolio (s : State) (q p : Nat) (f : Folio) : State :=
  let t := (s.usePage p .spill).writeBytes Store.slate false (2048 * p) f.payload
  (t.setLane q { t.lane q with spill := (t.lane q).spill ++ [(p, f)], ovf := false }).setFlag F.LN_STATUS_SPILLED true

/-- A line folio assembled for its lane: to the FIFO, to the spill, or dropped; it carries OVF after a drop.  A pending
injection 0x15 for the lane drops it. DEDUCED (log entry 35). -/
def State.assemble (s : State) (f : Folio) : State :=
  let q := f.lane
  let x := s.lane q
  let f := if x.ovf then { f with flags := f.flags + Flag.ovf } else f
  if s.injArg 0x15 = some q then s.injDone.injected fun t => t.dropFolio q
  else if x.spill.isEmpty && x.fits f then s.setLane q { x with fifo := x.fifo ++ [f], ovf := false }
  else match s.freeSpillPage with
    | some p => s.spillFolio q p f
    | none => s.dropFolio q

/-- The oldest spilled folio of lane `q` moves to its FIFO if it fits, its payload read and checked (R364, R371). -/
def State.unspillOne (s : State) (q : Nat) : State :=
  let x := s.lane q
  match x.spill with
  | [] => s
  | (p, f) :: rest =>
    if x.fits f then
      match s.readBytes .lane false Store.slate false (2048 * p) f.payload.length with
      | (none, t) => t
      | (some (d, _), t) =>
        (t.setLane q { x with
          spill := rest, fifo := x.fifo ++ [{ f with payload := d, flags := f.flags + Flag.buf }] }).usePage p .free
    else s

/-- Spilled folios move as room allows, at most `n`. -/
def State.unspill (s : State) (q : Nat) : Nat → State
  | 0 => s
  | n + 1 =>
    let t := s.unspillOne q
    if (t.lane q).spill.length < (s.lane q).spill.length then State.unspill t q n else t

/-! ### Markers (R346, R347, R489) -/

/-- BUSY (R273): a frame in exposure, readout or between sub-exposures, or a folio not yet handed. -/
def State.busy (s : State) : Bool :=
  s.exp.exposing.isSome || s.exp.reading.isSome || s.exp.between.isSome
    || s.lanes.lanes.any fun e => !e.2.fifo.isEmpty || !e.2.spill.isEmpty

/-- STATE of a marker (Table 10-3). -/
def State.markerState (s : State) : Nat :=
  if s.pwr.state = .testing then 6
  else if s.gated then 2
  else if s.clk.relocking then 4
  else if s.clk.boot then 3
  else if s.pwr.state = .streaming || s.busy then 1
  else 0

/-- Whether the driver of lane `q` is biased and sends code groups, from the end of wake step 8 until the lane goes Z
(R345); it is Z during partition 14 and step 5 of a test (R601). -/
def State.biased (s : State) (q : Nat) : Bool :=
  s.lanes.running && q < s.part.quires && s.partition != some 14 && !(s.bst.run.any fun r => r.step == 5)

/-- A lane sends symbols (R342). -/
def Lane.send (x : Lane) (v : List Symbol) : Lane :=
  let g := groups x.rd v
  { x with wire := g.1, rd := g.2 }

/-- A lane's marker goes out: its STATE, and the bias of the band in force (R347, R489). -/
def State.marked (s : State) (x : Lane) : Lane :=
  { x with marker := some s.markerState, bias := s.fld F.TMP_BAND_LMARGIN s.band, tight := !x.fifo.isEmpty }

/-- Lane `q` sends the marker of a run of idles, after fifteen idle ordered sets (R346, R375); inside a folio it waits
for the marker after EOF. DEDUCED (log entry 35). -/
def State.marker (s : State) (q : Nat) : State :=
  let x := s.lane q
  if s.biased q && x.fifo.isEmpty then
    s.setLane q (s.marked (x.send (idleRun x.rd 15 ++ markerSet s.markerState q)))
  else s

/-- The idle ordered sets before a folio: none where it waited at the last marker (R361), else fewer than sixteen, which
the device chooses (R348). DESIGN CHOICE (log entry 12). -/
def State.idlesBefore (s : State) (x : Lane) : Nat := if x.tight then 0 else Config.freeNat s.free % 16

/-- The folio in transmission on lane `q` has been sent: EOF, a marker, room for the spill (R348, R361). -/
def State.handed (s : State) (q : Nat) : State :=
  let x := s.lane q
  match x.fifo with
  | f :: rest =>
    if s.laneOn q then
      let v := idleRun x.rd (s.idlesBefore x) ++ [Symbol.sof] ++ f.bytes.map Symbol.data ++ [Symbol.eof] ++ markerSet s.markerState q
      let y := Lane.send { x with fifo := rest, handed := some (f.bytes, FolioEnd.eof) } v
      let t := s.spent.setLane q (s.marked y)
      t.unspill q (t.lane q).spill.length
    else s
  | [] => s

/-- The folio in transmission stops after a number of its bytes that the spec leaves open, with /V/ or without (R368,
R374). DESIGN CHOICE (log entry 12). -/
def Lane.stop (x : Lane) (how : FolioEnd) (idles at_ : Nat) : Lane :=
  match x.fifo with
  | f :: _ =>
    let sent := f.bytes.take at_
    Lane.send { x with fifo := [], spill := [], handed := some (sent, how), tight := false }
      (idleRun x.rd idles ++ [Symbol.sof] ++ sent.map Symbol.data ++ (if how = FolioEnd.void then [Symbol.void] else []))
  | [] => { x with spill := [], tight := false }

/-- Every lane loses its folios; those in transmission end in /V/ or are cut. -/
def State.stopLanes (s : State) (how : FolioEnd) : State :=
  let pages := s.lanes.lanes.flatMap fun e => e.2.spill.map Prod.fst
  let t := { s with lanes := { s.lanes with
    lanes := Cells.mapEntries Lane.init
      (fun q x => x.stop how (s.idlesBefore x) (Config.freeNat (s.free + q + 1))) s.lanes.lanes } }
  { t with free := s.free + 13 }.usePages pages .free

/-- The stream gate closes (R374): folios in transmission end in /V/, the waiting ones are discarded uncounted. -/
def State.cutLanes (s : State) : State := s.stopLanes .void

/-- The lanes go Z: a folio in transmission is cut, everything they hold is gone; ANNEX_SEQ is cleared with the frame
number (R345, R356, Table 10-12). -/
def State.clearLanes (s : State) : State :=
  let t := s.stopLanes .cut
  { t with lanes := { t.lanes with
    lanes := Cells.mapEntries Lane.init (fun _ x => { Lane.init with handed := x.handed, wire := x.wire }) t.lanes.lanes
    running := false, annexSeq := 0 } }

/-! ### Annex folios (R356 to R360, R363) -/

/-- VDD of a STATUS payload (R469). -/
def State.vddMv (s : State) : Nat := match s.aux.vdd with
  | some (sum, n) => (roundDiv (sum * 4800) (16384 * n)).toNat
  | none => 0

/-- The STATUS payload (Table 10-9). -/
def State.statusPayload (s : State) : List Byte :=
  bytesBE 2 s.tempWord ++ bytesBE 2 s.vddMv
    ++ [BitVec.ofNat 8 (bit s.pwr.warn + 2 * bit s.pwr.hold + 4 * bit (s.pumpOk false) + 8 * bit (s.pumpOk true)
        + 16 * bit s.clk.locked + 32 * bit s.gated)]
    ++ bytesBE 1 s.band ++ bytesBE 2 (s.fld F.EXP_DROPPED_COUNT) ++ bytesBE 2 (s.fld F.EXP_TRIG_HELD_COUNT)
    ++ bytesBE 2 (s.fld F.CLK_TRIG_LOST_COUNT) ++ bytesBE 2 (s.fld F.LN_DROPPED_COUNT)
    ++ bytesBE 6 s.clk.time.toNat ++ bytesBE 1 s.aux.queue.length ++ List.replicate 11 0

/-- An annex folio of this tick (Table 10-8) with FRAME `n`. DEDUCED (log entry 35). -/
def State.annexFolio (s : State) (n q kind count : Nat) (payload : List Byte) : Folio :=
  { lane := q, annex := true, legacy := false, frame := n, row := 2 ^ 12 * kind + count
    pos := s.pos.p.toNat % 2 ^ 40
    flags := Flag.sw * bit s.pwr.warn + Flag.est * bit s.pos.est + Flag.posRef * bit s.pos.ref + s.band
    gen := s.fld F.BND_GEN_GEN, last := s.lanes.annexSeq, payload := payload }

/-- An annex folio assembled, with `took` applied where it is; skipped where it does not fit (R363). -/
def State.annex (s : State) (n q kind count : Nat) (payload : List Byte) (took : State → State) : State :=
  let f := s.annexFolio n q kind count payload
  let x := s.lane q
  if x.fits f then
    took { (s.setLane q { x with fifo := x.fifo ++ [f] }) with
      lanes := { (s.setLane q { x with fifo := x.fifo ++ [f] }).lanes with
        annexSeq := (s.lanes.annexSeq + 1) % 2 ^ 16 } }
  else s.streamLoss F.LN_STATUS_ANNEX_SKIP q 6

/-- The first `n` entries not yet carried become carried (R357). -/
def markCarried : Nat → List Event → List Event
  | _, [] => []
  | n, e :: es => if e.carried then e :: markCarried n es
    else match n with
      | 0 => e :: es
      | n + 1 => { e with carried := true } :: markCarried n es

/-- FRAME of an annex folio: the frame it closes or stands in (R372), else the most recently numbered one (R356). -/
def State.annexFrame (s : State) (frame : Option Nat) : Nat := (frame <|> s.exp.latest).getD 0

/-- The annex point that lane `q`'s folios of a frame define (R359); `due` = a STATUS folio is due. -/
def State.annexPoint (s : State) (frame : Option Nat) (q : Nat) (due : Bool) : State :=
  if !s.laneOn q then s
  else
    let fn := s.annexFrame frame
    let main := q == s.fld F.LN_ANNEX_LANE
    let s :=
      if s.flag F.LN_ANNEX_STATUS_EN && (main || s.flag F.LN_ANNEX_STATUS_ALL) && due then
        s.annex fn q 1 1 s.statusPayload id
      else s
    let s :=
      if main && s.flag F.LN_ANNEX_AUX_EN && !s.aux.queue.isEmpty then
        let n := min 64 s.aux.queue.length
        s.annex fn q 2 n ((s.aux.queue.take n).flatMap fun e => bytesBE 4 e.toNat)
          fun t => t.setAux { t.aux with queue := t.aux.queue.drop n }
      else s
    if main && s.flag F.LN_ANNEX_EV_EN && s.uncarried != 0 then
      let es := (s.flt.events.filter fun e => !e.carried).take 32
      s.annex fn q 3 es.length (es.flatMap Event.bytes)
        fun t => { t with flt := { t.flt with events := markCarried es.length t.flt.events } }
    else s

end Sys2Proof.Machine
end

