-- ==== Sys2Proof/Machine/PixelPath.lean ====
section
/-! DEFINITION.
The digital path of chapter 09: Table 09-3 step by step, in integers that count 1/16 of the step's unit (R308, R309),
the black estimates, defect replacement, binning and companding.
-/
namespace Sys2Proof.Machine

/-- The greatest linear value, 2²⁰ − 1, in 1/16 (R253, R308). -/
def linearMax : Int := (2 ^ 20 - 1) * 16

/-- The step-1 value of a column, in 1/16 native LSB. -/
def sampleAt (x : Samples) (q g b j : Nat) : Int := 16 * (x.cols.getD (4 * q + 2 * g + b) []).getD j 0

/-- Where a black column lies: the left edge belongs to quire 0, the right edge to the last present quire (R238). -/
inductive Edge where
  | left | right
  deriving DecidableEq, Repr

/-- The step-1 value of a black column, counted from the outer edge (R311), in 1/16 native LSB. -/
def sampleEdge (x : Samples) (e : Edge) (g b j : Nat) : Int :=
  16 * ((match e with | .left => x.left | .right => x.right).getD (2 * g + b) []).getD j 0

/-! ### CAL (R311, R312) -/

/-- Byte offset of the CAL word of a column. -/
def calOffset (q g b j : Nat) : Nat := 0x2000 * q + 4 * ((2 * g + b) * 512 + j)

/-- Byte offset of the CAL word of a black column. -/
def calEdge (e : Edge) (g b j : Nat) : Nat :=
  (match e with | .left => 0x18000 | .right => 0x18080) + 4 * ((2 * g + b) * 8 + j)

/-- G of a CAL word (Table 09-4). -/
def calGain (w : Nat) : Int := signed 16 (bits w 31 16)
/-- O of a CAL word (Table 09-4). -/
def calOfs (w : Nat) : Int := signed 16 (bits w 15 0)

/-- Whether a CAL offset holds a word of a sampled gain that a member uses, and the bit it belongs to: 2 × quire + bank,
or 24 + bank and 26 + bank of the left and the right edge. -/
def calBit (p : Part) (gains : List Nat) (off : Nat) : Option Nat :=
  if off < 0x18000 then
    let q := off / 0x2000
    let n := off % 0x2000 / 4 / 512
    if q < p.quires && gains.contains (n / 2) then some (2 * q + n % 2) else none
  else
    let n := off % 0x80 / 4 / 8
    if gains.contains (n / 2) then some ((if off < 0x18080 then 24 else 26) + n % 2) else none

/-- The CAL words of a pair, read and checked in the tick its conversion starts (R333): the words of the sampled
gains, nonzero ones by offset, and the places whose words were corrected.  Invalid words read as zeros. -/
def State.readCal (s : State) (gains : List Nat) : Cells Nat × BitVec 28 × State :=
  let base := bankBase Store.cal false
  let keys := (s.mem.valid.filter fun e => base ≤ e.1 && e.1 < base + 2 ^ 23).map fun e => e.1 - base
  keys.foldl
    (fun acc k =>
      match calBit s.part gains (4 * k) with
      | none => acc
      | some n =>
        match acc.2.2.readWord .pixelPath false ⟨Store.cal, false, k⟩ with
        | (none, t) => (acc.1, acc.2.1, t)
        | (some r, t) =>
          (Cells.set 0 acc.1 (4 * k) (natBE r.data),
           if r.corrected then acc.2.1 ||| (1#28 <<< n) else acc.2.1, t))
    ([], 0, s)

/-- Step 2: the column offset subtracted (R312), in 1/16 native LSB. -/
def stepOffset (c : Context) (w : Nat) (v : Int) : Int :=
  if c.flag F.CNV_CORR_OFS then v - roundDiv (calOfs w) (2 ^ (14 - c.bits)) else v

/-! ### Black level (R315 to R319) -/

/-- The band trim of a gain in 1/16 native LSB (R318, Table 09-18). -/
def Context.trim (c : Context) (g : Nat) : Int :=
  16 * signed 6 ((if g = 0 then F.TMP_BLK_HG_OFS else F.TMP_BLK_LG_OFS).of c.blk)

/-- The black estimate of a quire, bank and gain. -/
def Conversion.blackOf (v : Conversion) (q g b : Nat) : Black := Cells.get Black.init v.black (4 * q + 2 * g + b)

/-- The row reference M of a bank and gain (R319). -/
def Conversion.refOf (v : Conversion) (g b : Nat) : Black := Cells.get Black.init v.rowRef (2 * g + b)

/-- A black value limited to B ± 2^CLIP native LSB, once B is valid (R315, R317). -/
def Black.limit (e : Black) (clip : Nat) (v : Int) : Int :=
  if e.valid then clampInt (e.value - 16 * 2 ^ clip) (e.value + 16 * 2 ^ clip) v else v

/-- Values added to the measurement in progress. -/
def Black.add (e : Black) (clip : Nat) (vs : List Int) : Black :=
  { e with sum := vs.foldl (fun a v => a + e.limit clip v) e.sum, count := e.count + vs.length
           raw := vs.foldl (· + ·) e.raw }

/-- The update at the end of the last black pair (R316, R317): the first measurement replaces, a later one is
filtered by 2^FILT.  The flag reports a valid update whose pixels lie more than 2^(CLIP + 2) from B in the mean,
before they are limited: only so can light on the black rows show as R335 says (R318). DEDUCED (log entry 35). -/
def Black.update (e : Black) (clip filt : Nat) : Black × Bool :=
  if e.count = 0 then (e, false)
  else
    let m := roundDiv e.sum e.count
    if e.valid then
      ({ Black.init with value := roundDiv (e.value * 2 ^ filt + (m - e.value)) (2 ^ filt), valid := true },
       16 * 2 ^ (clip + 2) < (roundDiv e.raw e.count - e.value).natAbs)
    else ({ Black.init with value := m, valid := true }, false)

/-- The step-2 values of a row's 512 columns. -/
def rowStep2 (c : Context) (cal : Cells Nat) (x : Samples) (q g b : Nat) : List Int :=
  (List.range 512).map fun j => stepOffset c (Cells.get 0 cal (calOffset q g b j)) (sampleAt x q g b j)

/-- The step-2 values of the 8 black columns of an edge. -/
def edgeStep2 (c : Context) (cal : Cells Nat) (x : Samples) (e : Edge) (g b : Nat) : List Int :=
  (List.range 8).map fun j => stepOffset c (Cells.get 0 cal (calEdge e g b j)) (sampleEdge x e g b j)

/-- r of R319: the mean of the step-2 values of the row's 16 black-column pixels. -/
def rowMean (c : Context) (cal : Cells Nat) (x : Samples) (g b : Nat) : Int :=
  roundDiv ((edgeStep2 c cal x .left g b ++ edgeStep2 c cal x .right g b).foldl (· + ·) 0) 16

/-- Step 3: what is subtracted from every pixel of a row in a quire, at a gain (R318, R319). -/
def Conversion.blackSub (v : Conversion) (c : Context) (cal : Cells Nat) (x : Samples) (q g b : Nat) : Int :=
  (if c.flag F.CNV_CORR_BLK then (v.blackOf q g b).value + c.trim g else 0)
    + (if c.flag F.CNV_CORR_ROWCORR then rowMean c cal x g b - (v.refOf g b).value else 0)

/-- The measurement of a black pair: every black pixel of the pair enters its estimate, the black columns of both rows
enter the row references (R315, R319). -/
def Conversion.measure (v : Conversion) (c : Context) (p : Part) (cal : Cells Nat) (x : Samples) : Conversion :=
  let clip := c.fld F.CNV_BLK_CTRL_CLIP
  let est (m : Cells Black) (q g b : Nat) : Cells Black :=
    Cells.modify Black.init m (4 * q + 2 * g + b) fun e => e.add clip (rowStep2 c cal x q g b)
  let ref (m : Cells Black) (g b : Nat) : Cells Black :=
    Cells.modify Black.init m (2 * g + b) fun e =>
      e.add clip (edgeStep2 c cal x .left g b ++ edgeStep2 c cal x .right g b)
  { v with
    black := (List.range p.quires).foldl
      (fun m q => c.gains.foldl (fun m g => est (est m q g 0) q g 1) m) v.black
    rowRef := c.gains.foldl (fun m g => ref (ref m g 0) g 1) v.rowRef }

/-- Every estimate updated at the end of the last black pair; the flag says that one stepped (R316, R318). -/
def Conversion.updateBlack (v : Conversion) (c : Context) : Conversion × Bool :=
  let clip := c.fld F.CNV_BLK_CTRL_CLIP
  let filt := F.TMP_BLK_FILT.of c.blk
  let stepped := v.black.any fun e => (e.2.update clip filt).2
  ({ v with
    black := Cells.mapEntries Black.init (fun _ e => (e.update clip filt).1) v.black
    rowRef := Cells.mapEntries Black.init (fun _ e => (e.update clip filt).1) v.rowRef }, stepped)

/-- CNV_STATUS.BLK_VALID: every estimate that the modes in force use is valid (R317). -/
def Conversion.allValid (v : Conversion) (p : Part) (gains : List Nat) : Bool :=
  (List.range p.quires).all fun q => gains.all fun g => (v.blackOf q g 0).valid && (v.blackOf q g 1).valid

/-! ### Gain and dual-gain combination (R312, R320) -/

/-- Step 4: column gain times flat-field gain, rounded once (R312). -/
def stepGain (c : Context) (w : Nat) (f : Int) (v : Int) : Int :=
  let g := if c.flag F.CNV_CORR_GAIN then calGain w else 0
  roundDiv (v * (32768 + g) * (32768 + f)) (2 ^ 30)

/-- Step 5: the dual-gain combination of step-4 values, in 1/16 HDR unit, rounded once (R320). -/
def combine (c : Context) (h l : Int) : Int :=
  let k : Int := 16 * c.knee
  let r : Int := c.fld F.CNV_HDR_RATIO
  let w := c.fld F.CNV_HDR_BLEND
  if w = 0 then (if h < k then 16 * h else roundDiv (r * l) 16)
  else
    let ww : Int := 16 * 2 ^ w
    if h < k - ww then 16 * h
    else if h < k then
      let a := h - k + ww
      roundDiv (16 * (256 * (ww - a) * h + a * r * l)) (256 * ww.toNat)
    else roundDiv (r * l) 16

/-- A pixel from its step-3 values per gain, through `f` (step 4 or nothing), to its step-5 value (R305, R320). -/
def gainPath (c : Context) (f : Nat → Int) : Int :=
  if c.dual then combine c (f 0) (f 1) else f (c.gains.headD 0)

/-- Steps 2 to 5 of an active row of a quire: `ff j` is the flat-field deviation of column j. -/
def activeRow (v : Conversion) (c : Context) (cal : Cells Nat) (x : Samples) (ff : Nat → Int) (q b : Nat) : List Int :=
  (List.range 512).map fun j =>
    gainPath c fun g =>
      let w := Cells.get 0 cal (calOffset q g b j)
      stepGain c w (ff j) (stepOffset c w (sampleAt x q g b j) - v.blackSub c cal x q g b)

/-- Steps 2, 3 and 5 of a black row of a quire (Table 09-3). -/
def blackRow (v : Conversion) (c : Context) (cal : Cells Nat) (x : Samples) (q b : Nat) : List Int :=
  (List.range 512).map fun j =>
    gainPath c fun g =>
      stepOffset c (Cells.get 0 cal (calOffset q g b j)) (sampleAt x q g b j) - v.blackSub c cal x q g b

/-- Step 2 of a test row: the sample of the gain mode, the high-gain sample in DUAL mode (R307). -/
def testRow (c : Context) (cal : Cells Nat) (x : Samples) (q b : Nat) : List Int :=
  rowStep2 c cal x q (c.gains.headD 0) b

/-- Steps 2, 3 and 5 of the 8 black columns of an edge, whose estimates are those of quire `q`. -/
def edgeRow (v : Conversion) (c : Context) (cal : Cells Nat) (x : Samples) (e : Edge) (q b : Nat) : List Int :=
  (List.range 8).map fun j =>
    gainPath c fun g =>
      stepOffset c (Cells.get 0 cal (calEdge e g b j)) (sampleEdge x e g b j) - v.blackSub c cal x q g b

/-! ### Defect replacement (R324) -/

/-- Whether an accepted entry flags a pixel. -/
def flagged (t : List Defect) (q col row : Nat) : Bool :=
  t.any fun d => d.quire == q && d.col == col && (d.row == none || d.row == some row)

/-- Whether an entry whose store word was corrected flags a pixel of the row (R336). -/
def flaggedEcc (t : List Defect) (q row : Nat) : Bool :=
  t.any fun d => d.ecc && d.quire == q && (d.row == none || d.row == some row)

/-- Step 6: a flagged pixel takes the mean of its nearest unflagged neighbours, at most 2 columns away on each side. -/
def replaceDefects (t : List Defect) (q row : Nat) (vs : List Int) : List Int :=
  let ok (j : Nat) : Bool := j < 512 && !flagged t q j row
  (List.range vs.length).map fun j =>
    if flagged t q j row then
      let left := [1, 2].find? fun d => d ≤ j && ok (j - d)
      let right := [1, 2].find? fun d => ok (j + d)
      match left, right with
      | some a, some b => roundDiv (vs.getD (j - a) 0 + vs.getD (j + b) 0) 2
      | some a, none => vs.getD (j - a) 0
      | none, some b => vs.getD (j + b) 0
      | none, none => vs.getD j 0
    else vs.getD j 0

/-! ### Binning, rounding and companding (R251 to R254, R308, R310, R326) -/

/-- A group combined (R253): the sum saturated at 2²⁰ − 1, or the average. -/
def combineGroup (avg : Bool) (vs : List Int) : Int :=
  let sum := vs.foldl (· + ·) 0
  if avg then (sum + (vs.length / 2 : Nat)) / (vs.length : Nat) else min sum linearMax

/-- Step 8 of a quire's row, or of the rows of a vertically binned pair: the window's groups, every other one under
COL_SUB (R251). -/
def binRow (c : Context) (q : Nat) (rows : List (List Int)) : List Int :=
  (List.range (c.colCount q / c.colStep)).map fun k =>
    let j0 := c.colStart q + k * c.colStep
    combineGroup (c.flag F.QR_MODE_AVG)
      (rows.flatMap fun r => (List.range c.hbin).map fun i => r.getD (j0 + i) 0)

/-- Step 9: pedestal, rounding with ties up, clip to [0, 2²⁰ − 1] (R308); test rows take no pedestal. -/
def stepRound (c : Context) (ped : Bool) (v : Int) : Nat :=
  (clampInt 0 (2 ^ 20 - 1) (roundDiv (v + if ped then 16 * (c.fld F.CNV_BLK_CTRL_PED : Int) else 0) 16)).toNat

/-- A LUT word of the context's bank as the cells stand: its four bytes, zeros where invalid, or the word that fails
its parity (R568). -/
def Memory.lutWord (m : Memory) (bank : Bool) (k : Nat) : Except (WordAddr × Nat) (List Byte) :=
  let w : WordAddr := ⟨Store.lut, bank, k⟩
  if m.isValid w then
    match decodeWord Store.lut none (m.raw w) with
    | .bad syn => .error (w, syn)
    | .clean d => .ok d
    | .corrected d _ _ => .ok d
  else .ok [0, 0, 0, 0]

/-- Entry Y[k] of a LUT table; Y[256] is the full code less 1 (R325, R326). -/
def Memory.lutEntry (m : Memory) (c : Context) (k : Nat) : Except (WordAddr × Nat) Int :=
  if 256 ≤ k then .ok (2 ^ c.bits - 1)
  else
    let off := 512 * c.fld F.CNV_MODE_LUT + 2 * k
    match m.lutWord c.bankLut (off / 4) with
    | .error e => .error e
    | .ok d => .ok (bits (natBE ((d.drop (off % 4)).take 2)) 13 0 : Nat)

/-- Step 10 (R310, R326). -/
def Memory.stepOut (m : Memory) (c : Context) (compand : Bool) (x : Nat) : Except (WordAddr × Nat) Nat :=
  if compand && c.flag F.CNV_MODE_COMPAND then
    match m.lutEntry c (x / 4096), m.lutEntry c (x / 4096 + 1) with
    | .ok y0, .ok y1 =>
      .ok (clampInt 0 (2 ^ c.bits - 1) (y0 + ((y1 - y0) * ((x % 4096 : Nat) : Int) + 2048) / 4096)).toNat
    | .error e, _ => .error e
    | _, .error e => .error e
  else .ok (min x (2 ^ c.bits - 1))

/-- Step 10 of a row: the codes, or the first LUT word that fails. -/
def Memory.outRow (m : Memory) (c : Context) (compand : Bool) : List Nat → Except (WordAddr × Nat) (List Nat)
  | [] => .ok []
  | x :: xs =>
    match m.stepOut c compand x with
    | .error e => .error e
    | .ok y =>
      match Memory.outRow m c compand xs with
      | .error e => .error e
      | .ok ys => .ok (y :: ys)

/-! ### Flat-field reference (R313) -/

/-- The Slate word offset and half of the deviation F of column j for active row index `i`, quire `q`. -/
def Context.flatPage (c : Context) (p : Part) (q i : Nat) : Nat :=
  let r := min i (c.fld F.CNV_FF_ROWS_M1)
  p.pages - c.ffPages p + r / 2 * p.quires + q

/-- The deviations of a row from the 2,048 bytes of its reference page: bits [31:16] for an even reference row,
[15:0] for an odd one. -/
def flatOf (page : List Byte) (odd : Bool) (j : Nat) : Int :=
  signed 16 (natBE ((page.drop (4 * j + if odd then 2 else 0)).take 2))

end Sys2Proof.Machine
end

