-- ==== Sys2Proof/Machine/Conversion.lean ====
section
/-! DEFINITION.
Frame contexts as they are taken, the checks of waveform sets, and the compile of the DEFECT store (chapter 09).
-/
namespace Sys2Proof.Machine

/-- The state with the conversion state replaced. -/
def State.setCnv (s : State) (x : Conversion) : State := { s with cnv := x }

/-! ### Waveform sets (R327 to R329) -/

/-- The active WAVE bank. -/
def State.waveBank (s : State) : Bool := s.flag F.BND_STATUS_BANK_WAVE

/-- A set's header passes the check of R328, apart from its CRC. -/
def State.waveHeaderOk (s : State) (h : List Byte) : Bool :=
  (h.getD 0 0) == 1 && natBE ((h.drop 2).take 2) == s.part.code
    && (h.getD 4 0).toNat == Config.dieMajor.toNat && natBE ((h.drop 6).take 2) ≤ 2032

/-- One set of the active bank checked: valid, and bad. -/
def State.checkWave (s : State) (k : Nat) : (Bool × Bool) × State :=
  match s.readBytes .internal false Store.wave s.waveBank (2048 * k) 16 with
  | (none, t) => ((false, false), t)
  | (some (h, _), t) =>
    if h.getD 0 0 = 0 then ((false, false), t)
    else if !t.waveHeaderOk h then ((false, true), t)
    else match t.readBytes .internal false Store.wave t.waveBank (2048 * k + 16) (natBE ((h.drop 6).take 2)) with
      | (none, u) => ((false, false), u)
      | (some (b, _), u) =>
        let ok := (crc16 (h.take 14 ++ b)).toNat == natBE ((h.drop 14).take 2)
        ((ok, !ok), u)

/-- Every set of the active bank checked (R328). -/
def State.checkWaves (s : State) : State :=
  let r := (List.range 8).foldl
    (fun (acc : BitVec 8 × Bool × State) k =>
      let c := acc.2.2.checkWave k
      (if c.1.1 then acc.1 ||| (1#8 <<< k) else acc.1, acc.2.1 || c.1.2, c.2))
    (0, false, s)
  let t := r.2.2.setCnv { r.2.2.cnv with waveValid := r.1 }
  if r.2.1 then t.setFlag F.CNV_STATUS_WAVE_BAD true else t

/-- MODES of a set as the cells stand. -/
def State.waveModes (s : State) (k : Nat) : Byte :=
  (s.mem.plainWord ⟨Store.wave, s.waveBank, 512 * k⟩).getD 1 0

/-- Whether a set serves the converter mode of a context (R329). -/
def State.waveServes (s : State) (k bits : Nat) (dual : Bool) : Bool :=
  s.cnv.waveValid.getLsbD k
    && (s.waveModes k).getLsbD (if bits = 14 then 0 else if bits = 12 then 1 else 2)
    && (!dual || (s.waveModes k).getLsbD 3)

/-! ### Contexts (R222, R317, R330) -/

/-- The frame context of this tick. -/
def State.context (s : State) : Context :=
  let b := s.band
  let c : Context :=
    { regs := s.contextRegs, bankWave := s.waveBank, bankLut := s.flag F.BND_STATUS_BANK_LUT
      gen := s.fld F.BND_GEN_GEN, band := b, blk := s.reg R.TMP_BLK b, waveSet := s.fld F.TMP_BAND_WAVE b
      rom := false, defects := if s.cnv.compile.isSome then [] else s.cnv.defects }
  { c with rom := !s.waveServes c.waveSet c.bits c.dual }

/-- QR_STATUS of every quire takes the geometry of a context: OUT_PIX, and CLAMPED of an enabled quire whose geometry
the clamping rule changed (R248, R264, R269). DEDUCED (log entry 26). -/
def State.noteGeometry (s : State) (c : Context) : State :=
  (List.range s.part.quires).foldl
    (fun t q =>
      let u := t.setFld F.QR_STATUS_OUT_PIX (c.outPix s.part q) q
      if (c.enabled s.part).contains q && c.clamped q then u.setFlag F.QR_STATUS_CLAMPED true q else u) s

/-- What taking a context does: estimates of a new mode are invalid, those of a frame still in readout last until its
readout ends; the clamps and the ROM set are reported (R248, R317, R332, R280, R289, R293, R306, R329). DEDUCED (log
entry 35). -/
def State.takeContext (s : State) (c : Context) : State :=
  let m := (c.fld F.CNV_MODE_BITS, c.fld F.CNV_MODE_GAIN)
  let fresh := s.cnv.lastModes.any fun o => o != m
  let t := s.setCnv { s.cnv with lastModes := some m, rom := c.rom, stale := s.cnv.stale || fresh }
  let t := t.noteGeometry c
  let t := if c.modeClamped then t.setFlag F.EXP_CTRL_MODE_CLAMP true else t
  if c.pairClamped then t.setFlag F.CNV_STATUS_PAIR_CLAMP true else t

/-- The estimates marked invalid and 0 (R317). -/
def Conversion.forget (v : Conversion) : Conversion := { v with black := [], rowRef := [], lastModes := none, stale := false }

/-- A readout begins: its measurements begin anew (R315), after a change of modes without estimates (R317, R332). -/
def Conversion.begin_ (v : Conversion) : Conversion :=
  let clear (_ : Nat) (e : Black) : Black := { e with sum := 0, count := 0, raw := 0 }
  if v.stale then { v with black := [], rowRef := [], stale := false }
  else { v with black := Cells.mapEntries Black.init clear v.black, rowRef := Cells.mapEntries Black.init clear v.rowRef }

/-! ### The compile of the DEFECT store (R322, R323) -/

/-- An accepted COLUMN entry of the column. -/
def columnListed (t : List Defect) (q col : Nat) : Bool :=
  t.any fun d => d.quire == q && d.col == col && d.row == none

/-- What Table 09-6 makes of an entry. -/
inductive Verdict where
  | ignored | dup | accepted
  deriving DecidableEq, Repr

/-- The verdict on an entry word that is not END, with what it flags. -/
def judge (p : Part) (t : List Defect) (w : Nat) (ecc : Bool) : Verdict × Defect :=
  let kind := bits w 31 28
  let q := bits w 27 24
  let col := bits w 23 15
  let row := bits w 14 4
  let d : Defect := { quire := q, col := col, row := if kind = 2 then none else some row, ecc := ecc }
  let mine := t.filter fun e => e.quire == q
  if (kind ≠ 1 ∧ kind ≠ 2) ∨ p.quires ≤ q ∨ w % 16 ≠ 0 then (.ignored, d)
  else if kind = 2 then
    if columnListed t q col then (.dup, d)
    else if 32 ≤ (mine.filter fun e => e.row == none).length then (.ignored, d)
    else (.accepted, d)
  else if columnListed t q col || mine.any (fun e => e.col == col && e.row == some row) then (.dup, d)
  else if 2048 ≤ (mine.filter fun e => e.row != none).length
      || 16 ≤ (mine.filter fun e => e.row == some row).length then (.ignored, d)
  else (.accepted, d)

/-- The compile reads one entry. -/
def State.compileStep (s : State) : State :=
  match s.cnv.compile with
  | none => s
  | some c =>
    if c.ended then s
    else match s.readWord .internal false ⟨Store.defect, false, c.next⟩ with
      | (none, t) => t
      | (some r, t) =>
        let w := natBE r.data
        let put (x : Compile) (u : State) : State := u.setCnv { u.cnv with compile := some x }
        let c' : Compile := { c with next := c.next + 1, ended := c.next == 8191 }
        if bits w 31 28 = 0 then put { c with ended := true } t
        else match judge t.part c.accepted w r.corrected with
          | (.ignored, _) => put c' (t.count F.CNV_DEF_STATUS_IGNORED)
          | (.dup, _) => put c' (t.count F.CNV_DEF_STATUS_DEFECT_DUP)
          | (.accepted, d) => put { c' with accepted := d :: c.accepted } t

/-- A compile starts and reads entry 0 in its first tick: the table in force is out of use, the counts restart. -/
def State.startCompile (s : State) : State :=
  let t := s.setCnv { s.cnv with compile := some { next := 0, ended := false, accepted := [] }, defects := [] }
  ((t.setFld F.CNV_DEF_STATUS_DEFECT_DUP 0).setFld F.CNV_DEF_STATUS_IGNORED 0).compileStep

/-- The entries still to be read, at most `n`. -/
def State.compileRest (s : State) : Nat → State
  | 0 => s
  | n + 1 =>
    match s.cnv.compile with
    | none => s
    | some c => if c.ended || !s.mem.failing.isEmpty then s else State.compileRest s.compileStep n

/-- The compile ends and its table goes into force; not where an entry was uncorrectable. -/
def State.compileDone (s : State) : State :=
  let t := s.compileRest 8192
  match t.cnv.compile with
  | some c =>
    if c.ended then t.setCnv { t.cnv with defects := c.accepted.reverse, compile := none } else t
  | none => t

/-- What reaching Armed does for conversion: estimates invalid, sets checked, a compile (R317, R323, R328). -/
def State.conversionArmed (s : State) : State := ((s.setCnv s.cnv.forget).checkWaves).startCompile

end Sys2Proof.Machine
end

