-- ==== Sys2Proof/Machine/Bindery.lean ====
section
/-! DEFINITION.
The Bindery of chapter 06: values going live, staging, commits and their apply points, aborts, timeouts, bank syncs,
and the watchdog's expiry.
-/
namespace Sys2Proof.Machine

/-- The state with the Bindery replaced. -/
def State.setBnd (s : State) (x : Bindery) : State := { s with bnd := x }

/-! ### Status codes (Table 06-16) -/

/-- TXN_OPEN. -/
def Status.txnOpen : Nat := 0x10
/-- NO_TXN. -/
def Status.noTxn : Nat := 0x11
/-- TXN_FULL. -/
def Status.txnFull : Nat := 0x12
/-- NEEDS_REF. -/
def Status.needsRef : Nat := 0x13
/-- TXN_PAST. -/
def Status.txnPast : Nat := 0x14
/-- TXN_PENDING. -/
def Status.txnPending : Nat := 0x15
/-- TIMED_OUT. -/
def Status.timedOut : Nat := 0x16
/-- LIVE_BANK. -/
def Status.liveBank : Nat := 0x17
/-- TXN_OWNER. -/
def Status.txnOwner : Nat := 0x18
/-- SYNC_BUSY. -/
def Status.syncBusy : Nat := 0x19

/-! ### Values going live (R211, R216, R223) -/

/-- BND_GEN one higher, modulo 256 (R215). -/
def State.nextGen (s : State) : State := s.setFld F.BND_GEN_GEN ((s.fld F.BND_GEN_GEN + 1) % 256)

/-- What a transactional register's new value does at once, beside being the value that its unit uses: `old` is the
value it had. -/
def State.liveHook (s : State) (a i : Nat) (old : Word) : State :=
  let new := s.reg a i
  if new = old then s
  else if a = R.SPN_C_CFG then
    s.counterSettings i (F.SPN_C_CFG_SRC.of old != F.SPN_C_CFG_SRC.of new
      || F.SPN_C_CFG_SEL.of old != F.SPN_C_CFG_SEL.of new || F.SPN_C_CFG_EDGE.of old != F.SPN_C_CFG_EDGE.of new) false
  else if a = R.SPN_M_CFG then
    (if F.SPN_M_CFG_EN.of old = 0 ∧ F.SPN_M_CFG_EN.of new = 1 then s.enableCompare i else s)
  else if a = R.POS_CFG then s.posConfig old
  else if a = R.AUX_CTRL then s.auxConfig old
  else if a = R.TMP_CFG ∨ a = R.TMP_GAIN ∨ a = R.TMP_OFS then s.tempConfig a old
  else if a = R.AGT_PINPERM_A ∨ a = R.AGT_PINPERM_B then s.agtDrive
  else s

/-- Whether a register belongs to the frame context (R222). -/
def inContext (a : Nat) : Bool := 0x80 ≤ a && a < 0xA0

/-- Whether instance `i` of the register at `a` exists on the member (R25, R200). -/
def instPresent (p : Part) (a i : Nat) : Bool :=
  if a = R.QR_COL_START ∨ a = R.QR_COL_COUNT ∨ a = R.QR_STATUS then i < p.quires
  else if a = R.TMP_BAND ∨ a = R.TMP_BLK ∨ a = R.MEM_SCRUB_RATE then i < 6
  else if 0xD1 ≤ a ∧ a ≤ 0xD9 then i < p.engines
  else if a = R.SLT_RETIRE then 16 * i < p.pages
  else true

/-- A pending injection whose unit an apply or a live write disabled is cancelled (R640): the aux checks and results
once no converter is enabled, an I-slot once INJ_EN leaves it out, a lane once its quire is disabled. -/
def State.cancelDisabled (s t : State) : State :=
  let off (f : Field) (k : Nat) : Bool := (s.fld f).testBit k && !(t.fld f).testBit k
  let aux (u : State) : Bool := u.convOn 0 || u.convOn 1
  let gone := match t.flt.pending with
    | some (0x0E, _) => aux s && !aux t
    | some (0x0F, _) => aux s && !aux t
    | some (0x10, i) => off F.AUX_CTRL_INJ_EN i
    | some (0x15, q) => off F.QR_ENABLE_EN q
    | _ => false
  if gone then t.injDone else t

/-- Values stored at once, then what each change does; TDI restarts where the frame context changed (R295).  `divs`
are the counters whose prescaler takes its divisor registers (R391). -/
def State.makeLive (s : State) (ws : List Staged) (divs : List Nat) : State :=
  let t := ws.foldl (fun t w => t.setReg w.addr w.value w.inst) s
  let t := ws.foldl (fun t w => t.liveHook w.addr w.inst (s.reg w.addr w.inst)) t
  let t := s.cancelDisabled (divs.foldl (fun t n => t.counterSettings n false true) t)
  if ws.any fun w => inContext w.addr && s.reg w.addr w.inst != w.value then t.restartTdi else t

/-- A live write from either route in IDLE (R216). DEDUCED (log entry 35). -/
def State.liveWrite (s : State) (a i : Nat) (v : Word) : State :=
  let t := s.makeLive [⟨a, i, v⟩] (if a = R.SPN_C_DIV_LO then [i] else [])
  if s.reg a i = v then t else t.nextGen

/-! ### Staging (R206) -/

/-- Staging slots in all. -/
def stagingSlots : Nat := 128

/-- The value staged for a register instance, if any. -/
def Bindery.stagedValue (b : Bindery) (a i : Nat) : Option Word :=
  (b.staged.find? fun w => w.addr == a && w.inst == i).map Staged.value

/-- A write staged; `none` where every slot is in use. -/
def Bindery.stage (b : Bindery) (w : Staged) : Option Bindery :=
  if (b.stagedValue w.addr w.inst).isSome then
    some { b with staged := b.staged.map fun x => if x.addr = w.addr ∧ x.inst = w.inst then w else x }
  else if b.staged.length < stagingSlots then some { b with staged := b.staged ++ [w] }
  else none

/-- Several writes staged: all of them, or none. -/
def Bindery.stageAll (b : Bindery) : List Staged → Option Bindery
  | [] => some b
  | w :: ws => match b.stage w with
    | some b' => Bindery.stageAll b' ws
    | none => none

/-- No transaction. -/
def Bindery.idle (b : Bindery) : Bindery :=
  { b with txn := .idle, staged := [], wroteWave := false, wroteLut := false, wroteAdc := false }

/-! ### Bank syncs (R217, R218) -/

/-- Store ID of a banked store. -/
def bankedId (x : BankedStore) : Nat := match x with
  | .wave => Store.wave | .lut => Store.lut | .adcseq => Store.adcseq

/-- The banked store of a store ID. -/
def bankedOf (id : Nat) : Option BankedStore :=
  if id = Store.wave then some .wave else if id = Store.lut then some .lut
  else if id = Store.adcseq then some .adcseq else none

/-- The BANK bit of a banked store. -/
def bankField (x : BankedStore) : Field := match x with
  | .wave => F.BND_STATUS_BANK_WAVE | .lut => F.BND_STATUS_BANK_LUT | .adcseq => F.BND_STATUS_BANK_ADCSEQ

/-- The active bank of a banked store. -/
def State.activeBank (s : State) (x : BankedStore) : Bool := s.flag (bankField x)

/-- The state of a store's bank sync. -/
def Bindery.sync (b : Bindery) : BankedStore → SyncState
  | .wave => b.syncWave | .lut => b.syncLut | .adcseq => b.syncAdc

/-- The state of a store's bank sync replaced. -/
def Bindery.setSync (b : Bindery) (x : BankedStore) (y : SyncState) : Bindery := match x with
  | .wave => { b with syncWave := y } | .lut => { b with syncLut := y } | .adcseq => { b with syncAdc := y }

/-- Whether the transaction wrote a store's standby bank. -/
def Bindery.wrote (b : Bindery) : BankedStore → Bool
  | .wave => b.wroteWave | .lut => b.wroteLut | .adcseq => b.wroteAdc

/-- The transaction has written a store's standby bank. -/
def Bindery.setWrote (b : Bindery) : BankedStore → Bindery
  | .wave => { b with wroteWave := true } | .lut => { b with wroteLut := true } | .adcseq => { b with wroteAdc := true }

/-- The banked stores. -/
def allBanked : List BankedStore := [.wave, .lut, .adcseq]

/-- The contexts that frames and lines hold. -/
def Exposure.contexts (x : Exposure) : List Context :=
  (x.exposing.toList.map fun e => e.frame.ctx) ++ (x.reading.toList.map fun r => r.frame.ctx)
    ++ (x.between.toList.map fun b => b.1.ctx) ++ x.tdiLines.map TdiLine.ctx

/-- Whether a context uses a bank of a store (R218). -/
def Exposure.usesBank (x : Exposure) (st : BankedStore) (bank : Bool) : Bool := match st with
  | .wave => x.contexts.any fun c => c.bankWave == bank
  | .lut => x.contexts.any fun c => c.bankLut == bank
  | .adcseq => false

/-- The bank syncs of the stores that the transaction wrote become pending (R217, R218). -/
def Bindery.pendSyncs (b : Bindery) : Bindery :=
  allBanked.foldl (fun b x => if b.wrote x then b.setSync x .pending else b) b

/-- The copy of a pending bank sync begins, once no context uses the old active bank. -/
def State.syncStart (s : State) (x : BankedStore) : State :=
  if s.bnd.sync x = .pending && !s.exp.usesBank x (!s.activeBank x) then s.setBnd (s.bnd.setSync x .running) else s

/-- The copy of a store's active bank into its standby bank: every word is read and checked (R572). -/
def State.copyActive (s : State) (x : BankedStore) : State :=
  match s.mem.firstBad (bankedId x) (s.activeBank x) with
  | some (w, syn) =>
    let t := s.logFault kindUncorr w.store Reader.bankSync.code w.bank w.offset syn
    { t with mem := { t.mem with failing := w.store :: t.mem.failing } }
  | none => { s with mem := s.mem.copyBank (bankedId x) (s.activeBank x) }

/-- A running bank sync ends. -/
def State.syncDone (s : State) (x : BankedStore) : State :=
  if s.bnd.sync x = .running then (s.copyActive x).setBnd (s.bnd.setSync x .none) else s

/-- Every bank sync that is pending or runs is completed at once, as the finish stage and the entry to Standby do
(R230, R683). -/
def State.finishSyncs (s : State) : State :=
  allBanked.foldl (fun t x =>
    if t.bnd.sync x = .none then t else (t.copyActive x).setBnd (t.bnd.setSync x .none)) s

/-! ### The apply (R211, R215) -/

/-- The counters whose divisor a list of staged writes carries (R391). -/
def divisorsOf (ws : List Staged) : List Nat :=
  (ws.filter fun w => w.addr == R.SPN_C_DIV_HI || w.addr == R.SPN_C_DIV_LO).map Staged.inst

/-- A staged RATE change is not applied while Streaming (R344). -/
def State.holdRate (s : State) (ws : List Staged) : List Staged × State :=
  let held := s.pwr.state == .streaming && ws.any fun w => w.addr == R.LN_RATE && w.value != s.reg R.LN_RATE
  if held then (ws.filter fun w => w.addr != R.LN_RATE, s.setFlag F.LN_STATUS_RATE_HELD true) else (ws, s)

/-- The banks of the stores that the transaction wrote are swapped, with what each swap does (R328, R460). -/
def State.swapBanks (s : State) : State :=
  let old := s.activeBank .adcseq
  let t := allBanked.foldl
    (fun t x => if s.bnd.wrote x then t.setFlag (bankField x) (!s.activeBank x) else t) s
  let t := if s.bnd.wroteWave then t.checkWaves else t
  let t := if s.bnd.wroteAdc then t.auxSwap old else t
  if s.bnd.wroteWave || s.bnd.wroteLut then t.restartTdi else t

/-- The apply tick of a pending commit: the banks are swapped before the new settings act (R444). DESIGN CHOICE (log
entry 5). -/
def State.applyTxn (s : State) : State :=
  if s.bnd.txn = .pending then
    let h := s.holdRate s.bnd.staged
    let ws := h.1.filter fun w => instPresent s.part w.addr w.inst
    let t := h.2.swapBanks.makeLive ws (divisorsOf ws)
    let t := (t.setBnd s.bnd.pendSyncs.idle).nextGen
    (t.setFlag F.BND_STATUS_APPLIED true).raise 0x20 noUnit (t.fld F.BND_GEN_GEN)
  else s

/-- An AT_POSITION commit whose target P has reached or crossed applies (R210, R214, R435). -/
def State.atPosition (s : State) : State :=
  if s.bnd.txn = .pending ∧ s.bnd.point = .atPosition then
    let target := join48 (s.reg R.BND_TARGET_HI) (s.reg R.BND_TARGET_MID) (s.reg R.BND_TARGET_LO)
    let d := delta48 s.pos.p target
    if (if s.bnd.below then d ≤ 0 else 0 ≤ d) then s.applyTxn else s
  else s

/-! ### Commands (R205, R210, R217) -/

/-- TXN_BEGIN. -/
def State.txnBegin (s : State) : Nat × State :=
  match s.bnd.txn with
  | .idle => (Status.ok, s.setBnd { s.bnd with txn := .open_ })
  | .open_ => (Status.txnOpen, s)
  | .pending => (Status.txnPending, s)
  | .timedOut => (Status.timedOut, s.setBnd s.bnd.idle)

/-- Forward motion, as the check of an AT_POSITION commit takes it (R210). -/
def Position.forward (x : Position) : Bool := if x.v = 0 then !x.back else decide (0 < x.v)

/-- Whether a target lies strictly ahead (R210). -/
def State.ahead (s : State) (target : BitVec 48) : Bool :=
  let d := delta48 s.pos.p target
  if s.pos.forward then decide (0 < d) else decide (d < 0)

/-- TXN_COMMIT in OPEN. -/
def State.commitOpen (s : State) (point : ApplyPoint) (target : BitVec 48) : Nat × State :=
  let pend (t : State) : State := t.setBnd { t.bnd with txn := .pending, point := point }
  match point with
  | .atPosition =>
    if !s.pos.ref then (Status.needsRef, s)
    else if !s.ahead target then (Status.txnPast, s)
    else
      let t := ((s.setReg R.BND_TARGET_HI (BitVec.ofNat 16 (part48 target 0))).setReg R.BND_TARGET_MID
        (BitVec.ofNat 16 (part48 target 1))).setReg R.BND_TARGET_LO (BitVec.ofNat 16 (part48 target 2))
      (Status.ok, pend (t.setBnd { t.bnd with below := decide (0 < delta48 s.pos.p target) }))
  | _ => (Status.ok, pend s)

/-- TXN_COMMIT. -/
def State.txnCommit (s : State) (point : ApplyPoint) (target : BitVec 48) : Nat × State :=
  match s.bnd.txn with
  | .idle => (Status.noTxn, s)
  | .open_ => s.commitOpen point target
  | .pending => (Status.txnPending, s)
  | .timedOut => (Status.timedOut, s.setBnd s.bnd.idle)

/-- The rollback of a transaction. -/
def State.rollback (s : State) : State := s.setBnd s.bnd.pendSyncs.idle

/-- TXN_ABORT. -/
def State.txnAbort (s : State) : Nat × State :=
  match s.bnd.txn with
  | .idle => (Status.noTxn, s)
  | .timedOut => (Status.timedOut, s.setBnd s.bnd.idle)
  | _ => (Status.ok, s.rollback)

/-- BND_TXN_TMO expires (R219). -/
def State.txnTimeout (s : State) : State :=
  if s.bnd.txn = .open_ then
    let n := s.bnd.staged.length
    let t := s.rollback
    ((t.setBnd { t.bnd with txn := .timedOut }).setFlag F.BND_STATUS_TIMEOUT_LATCH true).raise 0x21 noUnit n
  else s

/-- BND_STATUS.STATE codes. -/
def TxnState.code : TxnState → Nat
  | .idle => 0 | .open_ => 1 | .pending => 2 | .timedOut => 3

/-- The live bits of BND_STATUS (Table 06-10). -/
def State.bndLive (s : State) : Nat :=
  256 * (if s.bnd.txn = .open_ then s.bnd.staged.length else 0) + 128 * bit s.syncing + s.bnd.txn.code

end Sys2Proof.Machine
end

