-- ==== Sys2Proof/Machine/Exposure.lean ====
section
/-! DEFINITION.
Exposure, triggering, readout and digital TDI (chapter 08), with the folios each readout assembles (chapters 07, 09
and 10).
-/
namespace Sys2Proof.Machine

/-- The state with the exposure control replaced. -/
def State.setExp (s : State) (x : Exposure) : State := { s with exp := x }

/-! ### Line folios -/

/-- GAP for the next line folio of every enabled quire (R286). -/
def State.markGap (s : State) : State :=
  s.setExp { s.exp with gap := s.exp.gap ||| BitVec.ofNat 12 (s.fld F.QR_ENABLE_EN) }

/-- The header fields that all line folios of one frame share (R350). -/
structure LineInfo where
  ctx : Context
  number : Nat
  pos : Nat
  flags : Nat
  flash : Nat
  deriving DecidableEq, Repr

/-- A line folio of quire `q` assembled; `gap` adds GAP, and so does a mark of the quire, which a folio that is not
dropped takes away. -/
def State.sendLine (s : State) (h : LineInfo) (q row : Nat) (codes : List Nat) (gap ecc last : Bool) : State :=
  if s.laneOn q && !s.gated then
    let gap := gap || s.exp.gap.getLsbD q
    let f : Folio :=
      { lane := q, annex := false, legacy := h.ctx.flag F.LN_MODE_LEGACY_HDR, frame := h.number, row := row, pos := h.pos
        flags := h.flags + Flag.gap * bit gap + Flag.eccCorr * bit ecc + Flag.last * bit last
        gen := h.ctx.gen, last := h.flash
        payload := packCodes (h.ctx.flag F.LN_MODE_PACK) h.ctx.bits codes }
    let t := s.assemble f
    if (t.lane q).ovf then t else t.setExp { t.exp with gap := t.exp.gap &&& ~~~(1#12 <<< q) }
  else s

/-- A LUT word that fails its parity on the pixel path (R336, R568). -/
def State.lutFault (s : State) (w : WordAddr) (syn : Nat) : State :=
  let t := s.logFault kindUncorr w.store Reader.pixelPath.code w.bank w.offset syn
  { t with mem := { t.mem with failing := w.store :: t.mem.failing } }

/-- The codes of a line folio: binned pixels, and the black columns of the row (R251 to R256, steps 8 to 10). -/
def State.lineCodes (s : State) (c : Context) (q : Nat) (test : Bool) (rows : List (List Int)) (left right : List Int) :
    Except (WordAddr × Nat) (List Nat) :=
  let round (ped : Bool) (vs : List Int) : List Nat := vs.map (stepRound c ped)
  let cols := c.flag F.QR_MODE_BLK_COL_OUT
  let first := if cols && q == 0 then round true left else []
  let final := if cols && q + 1 == s.part.quires then round true right.reverse else []
  match s.mem.outRow c true first, s.mem.outRow c (!test) (round (!test) (binRow c q rows)), s.mem.outRow c true final with
  | .ok a, .ok b, .ok d => .ok (if c.flag F.QR_MODE_COL_FLIP then (a ++ b ++ d).reverse else a ++ b ++ d)
  | .error e, _, _ => .error e
  | _, .error e, _ => .error e
  | _, _, .error e => .error e

/-- A line folio from its values, unless a LUT word fails. -/
def State.sendValues (s : State) (h : LineInfo) (q row : Nat) (test : Bool) (rows : List (List Int))
    (left right : List Int) (gap ecc last : Bool) : State :=
  match s.lineCodes h.ctx q test rows left right with
  | .ok codes => s.sendLine h q row codes gap ecc last
  | .error (w, syn) => s.lutFault w syn

/-- FLASH and FL_VALID latched when the first line folio of a frame is assembled (R351, R464). -/
def State.latchFlash (s : State) (f : Frame) : Frame × State :=
  match f.flash with
  | some _ => (f, s)
  | none =>
    let mine := s.aux.flash.filter fun e => e.1 == f.number
    ({ f with flash := some (if mine.isEmpty then none else some (min ((mine.map Prod.snd).foldl (· + ·) 0) 0xFFFF)) },
     s.setAux { s.aux with flash := s.aux.flash.filter fun e => e.1 != f.number })

/-- The shared header of a frame's line folios. -/
def Frame.info (f : Frame) : LineInfo :=
  { ctx := f.ctx, number := f.number, pos := f.pos
    flags := Flag.sw * bit f.sw + Flag.est * bit f.est + Flag.dup * bit f.dup + Flag.str * bit f.str
      + Flag.posRef * bit f.posRef + Flag.flValid * bit (f.flash.getD none).isSome + f.ctx.band
    flash := (f.flash.getD none).getD 0 }

/-! ### Values of active rows (Table 09-3, steps 1 to 6) -/

/-- The flat-field deviations of a row of a quire, and whether a corrected error touched them (R313). -/
def State.flatRow (s : State) (c : Context) (q i : Nat) : List Byte × Bool × State :=
  if c.flag F.CNV_CORR_FF then
    match s.readBytes .pixelPath false Store.slate false (2048 * c.flatPage s.part q i) 2048 with
    | (some (d, e), t) => (d, e, t)
    | (none, t) => ([], false, t)
  else ([], false, s)

/-- Whether a corrected CAL word touched row `b` of a pair in quire `q` (R336): its columns, the black columns that
ROWCORR takes a mean of, and those that the folio carries. -/
def State.calTouched (s : State) (r : Reading) (q b : Nat) (test : Bool) : Bool :=
  let c := r.frame.ctx
  let at_ (k : Nat) : Bool := r.calCorr.getLsbD (k + b)
  let left := c.flag F.QR_MODE_BLK_COL_OUT && q == 0
  let right := c.flag F.QR_MODE_BLK_COL_OUT && q + 1 == s.part.quires
  at_ (2 * q) || (left && at_ 24) || (right && at_ 26)
    || (c.flag F.CNV_CORR_ROWCORR && (!test || left || right) && (at_ 24 || at_ 26))

/-- The step-6 values of active row `row` (row `b` of its pair) of quire `q`; whether a corrected error touched them. -/
def State.activeValues (s : State) (r : Reading) (x : Samples) (q row b : Nat) : List Int × Bool × State :=
  let c := r.frame.ctx
  let i := row - c.rowStart
  let f := s.flatRow c q i
  let odd := min i (c.fld F.CNV_FF_ROWS_M1) % 2 == 1
  let ff (j : Nat) : Int := if c.flag F.CNV_CORR_FF then flatOf f.1 odd j else 0
  let v5 := activeRow s.cnv c r.cal x ff q b
  let v6 := if c.flag F.CNV_CORR_DEFECT then replaceDefects c.defects q row v5 else v5
  (v6, f.2.1 || s.calTouched r q b false || (c.flag F.CNV_CORR_DEFECT && flaggedEcc c.defects q row), f.2.2)

/-- The black columns of a row of the pair, steps 2, 3 and 5: left and right, from the outer edge. DEDUCED (log entry
35). -/
def State.edgeValues (s : State) (r : Reading) (x : Samples) (b : Nat) : List Int × List Int :=
  (edgeRow s.cnv r.frame.ctx r.cal x .left 0 b, edgeRow s.cnv r.frame.ctx r.cal x .right (s.part.quires - 1) b)

/-! ### Slate pages of frames (R288, R293, R294) -/

/-- The lowest `n` pages that a frame of a context may take, if there are so many: free, in service, outside the spill
and the flat-field reference. DESIGN CHOICE (log entry 33). -/
def State.takePages (s : State) (c : Context) (n : Nat) : Option (List Nat) :=
  let spill := s.spillPages
  let ok := ((List.range (s.part.pages - c.ffPages s.part)).filter fun p =>
    Cells.get .free s.mem.pages p == .free && !s.retireBit p && !spill.contains p).take n
  if ok.length = n then some ok else none

/-- The pages available to a frame: SLATE_PAGES less the retired ones and the spill (R294, R314). -/
def State.pagesAvailable (s : State) : Nat := s.part.pages - s.retiredCount - s.fld F.LN_BUF_PAGES

/-- Whether a frame of a context lacks pages: too many, or a reference page is retired (R294, R314). -/
def State.lacksPages (s : State) (c : Context) : Bool :=
  let ffp := c.ffPages s.part
  (0 < c.dataPages s.part + ffp && s.pagesAvailable < c.dataPages s.part + ffp)
    || (List.range ffp).any fun k => s.retired (s.part.pages - ffp + k)

/-- Signed words of 32 bits in a page. -/
def pageWords (d : List Byte) : List Int :=
  (List.range 512).map fun j => signed 32 (natBE ((d.drop (4 * j)).take 4))

/-- A page's words read and checked on the pixel path: zeros where a word fails. -/
def State.readPage (s : State) (p : Nat) : List Int × Bool × State :=
  match s.readBytes .pixelPath false Store.slate false (2048 * p) 2048 with
  | (some (d, e), t) => (pageWords d, e, t)
  | (none, t) => (List.replicate 512 0, false, t)

/-- A page's words written. -/
def State.writePage (s : State) (p : Nat) (vs : List Int) : State :=
  s.writeBytes Store.slate false (2048 * p) (vs.flatMap fun v => bytesBE 4 (unsigned 32 v))

/-! ### Sub-exposures (R288, R289, R308) -/

/-- The mark of a value that HDR combination has chosen. DEDUCED (log entry 34). -/
def chosenMark : Int := 2 ^ 30

/-- Whether a stored word is a chosen value. -/
def isChosen (w : Int) : Bool := chosenMark / 2 ≤ w

/-- The value of a stored word. -/
def storedValue (w : Int) : Int := if isChosen w then w - chosenMark else w

/-- What the Slate holds of a pixel after sub-exposure `k` of value `v`: the sum so far, or the value chosen so far.
Under HDR, `final` takes the last sub-exposure where none was chosen. DEDUCED (log entry 34). -/
def combineSub (c : Context) (k : Nat) (final : Bool) (w v : Int) : Int :=
  if c.flag F.EXP_MODE_COMBINE then
    if isChosen w then w
    else if v < 16 * c.knee || final then
      min linearMax (v * 2 ^ (k * c.fld F.EXP_MODE_RATIO)) + chosenMark
    else w
  else w + v

/-- The combined value of step 7: saturated at 2²⁰ − 1 (R289). -/
def combined (w : Int) : Int := min linearMax (storedValue w)

/-- The page of row `b` of the `n`-th active pair for the `qi`-th enabled quire. -/
def Frame.page (f : Frame) (quires n b qi : Nat) : Option Nat := f.pages[(2 * n + b) * quires + qi]?

/-! ### TDI (R293, R295) -/

/-- Stage index of a row: rows R to R + S − 1, counted along or against the image motion. -/
def stageIndex (c : Context) (row : Nat) : Option Nat :=
  let i := if c.flag F.EXP_MODE_TDI_DIR then c.rowStart + c.stages - 1 - row else row - c.rowStart
  if c.rowStart ≤ row ∧ row < c.rowStart + c.stages then some i else none

/-- The row that gives the last stage: the row field of a TDI line, whether or not that stage was lost (R293, R295).
DEDUCED (log entry 26). -/
def Context.lastStageRow (c : Context) : Nat :=
  if c.flag F.EXP_MODE_TDI_DIR then c.rowStart else c.rowStart + c.stages - 1

/-- The values of a stage added to a line: sums of quire `qi` of the enabled ones. DEDUCED (log entry 34). -/
def State.addStage (s : State) (l : TdiLine) (qi : Nat) (vs : List Int) : TdiLine × State :=
  match l.pages[qi]? with
  | none => ({ l with values := l.values ++ [vs] }, s)
  | some p =>
    let old := s.readPage p
    let sum := (old.1.zip vs).map fun e => clampInt (-(2 ^ 31)) (2 ^ 31 - 1) (e.1 + e.2)
    ({ l with ecc := l.ecc || old.2.1 }, old.2.2.writePage p sum)

/-- The line's pages, taken at its first stage; none with one stage. -/
def State.linePages (s : State) (c : Context) (l : TdiLine) : TdiLine × State :=
  if c.stages ≤ 1 || !l.pages.isEmpty then (l, s)
  else match s.takePages c (c.enabled s.part).length with
    | some ps => ({ l with pages := ps }, s.usePages ps .frame)
    | none => (l, s)

/-- One row of a TDI readout adds to the line it shows. -/
def State.tdiRow (s : State) (r : Reading) (x : Samples) (row b : Nat) : State :=
  let c := r.frame.ctx
  match stageIndex c row with
  | none => s
  | some i =>
    match s.exp.tdiLines.find? fun l => l.index + i == r.frame.number with
    | none => s
    | some l0 =>
      let a := s.linePages c l0
      let e := s.edgeValues r x b
      let l1 := { a.1 with ctx := c, left := e.1, right := e.2 }
      let out := (c.enabled s.part).zipIdx.foldl
        (fun (acc : TdiLine × State) qi =>
          let v := acc.2.activeValues r x qi.1 row b
          State.addStage v.2.2 { acc.1 with ecc := acc.1.ecc || v.2.1 } qi.2 v.1)
        (l1, a.2)
      out.2.setExp { out.2.exp with
        tdiLines := out.2.exp.tdiLines.map fun l => if l.index = l0.index then out.1 else l }

/-- The next frame number is taken (R283). -/
def State.takeNumber (s : State) : Nat × State :=
  let n := s.exp.nextNumber
  (n, s.setExp { s.exp with nextNumber := (n + 1) % 2 ^ 24, lastNumber := some n, latest := some n })

/-- The annex points of some lanes at the end of a frame or line, or within a frame, `frame` (R359). -/
def State.annexPoints (s : State) (frame : Option Nat) (lanes : List Nat) (due : Bool) : State :=
  lanes.foldl (fun t q => t.annexPoint frame q due) s

/-- Whether a STATUS folio is due at the end of this frame or line (R359). -/
def State.statusDue (s : State) (c : Context) : Bool :=
  c.scan == .area || s.fld F.LN_ANNEX_EVERY_LINES ≤ s.exp.statusLines + 1

/-- A line counts toward LN_ANNEX_EVERY.LINES (R359). -/
def State.countLine (s : State) (due : Bool) : State :=
  s.setExp { s.exp with statusLines := if due then 0 else s.exp.statusLines + 1 }

/-- A complete TDI line is sent as one folio per quire with its annex points, and its pages are cleared (R293, R359);
FLASH is 0 (R464).  The first line after priming carries GAP after a restart, not one kept through it (R295). DEDUCED
(log entry 34). -/
def State.tdiOut (s : State) (l : TdiLine) : State :=
  let num := s.takeNumber
  let h : LineInfo :=
    { ctx := l.ctx, number := num.1, pos := l.pos
      flags := Flag.sw * bit l.sw + Flag.est * bit l.est + Flag.dup * bit l.dup + Flag.str * bit l.str
        + Flag.posRef * bit l.posRef + l.ctx.band
      flash := 0 }
  let later := decide (num.2.exp.tdiFirst ≤ l.index)
  let gap := l.missed || (num.2.exp.tdiGap && later)
  let t := num.2.setExp { num.2.exp with tdiGap := num.2.exp.tdiGap && !later }
  let t := (l.ctx.enabled t.part).zipIdx.foldl
    (fun t qi =>
      if l.ctx.sends t.part qi.1 then
        let v := match l.pages[qi.2]? with
          | some p => t.readPage p
          | none => (l.values.getD qi.2 [], false, t)
        v.2.2.sendValues h qi.1 l.row false [v.1.map (min linearMax)] l.left l.right gap (l.ecc || v.2.1) true
      else t) t
  let due := t.statusDue l.ctx
  ((t.usePages l.pages .free).annexPoints (some num.1) (List.range t.part.quires) due).countLine due

/-- A TDI line has passed every row. -/
def Exposure.ready (x : Exposure) (l : TdiLine) : Bool := l.index + l.ctx.stages ≤ x.tdiDone

/-- Lines that have passed every row are sent, oldest first. -/
def State.tdiFlush (s : State) : State :=
  let t := s.setExp { s.exp with tdiLines := s.exp.tdiLines.filter fun l => !s.exp.ready l }
  (s.exp.tdiLines.filter s.exp.ready).foldl State.tdiOut t

/-! ### Lost triggers (Table 08-4) -/

/-- Why a trigger starts nothing. -/
inductive LostKind where
  | gate | held | overrun | noRef | noSlate
  deriving DecidableEq, Repr

/-- A lost trigger: counted, flagged, GAP; under TDI the row assignment advances and the lines that this trigger would
have given a stage miss it (R286, R295); behind a closed stream gate they wait for the restart of R297. -/
def State.loseTrigger (s : State) (k : LostKind) : State :=
  let s := match k with
    | .gate => s.count F.CLK_TRIG_LOST_COUNT
    | .held => s.count F.EXP_TRIG_HELD_COUNT
    | .overrun => (s.count F.EXP_DROPPED_COUNT).streamLoss F.EXP_CTRL_OVERRUN noUnit 1
    | .noRef => (s.count F.EXP_DROPPED_COUNT).streamLoss F.EXP_CTRL_NEEDS_REF noUnit 4
    | .noSlate => (s.count F.EXP_DROPPED_COUNT).streamLoss F.EXP_CTRL_NO_SLATE noUnit 3
  let s := s.markGap
  if s.fld F.EXP_MODE_SCAN = 2 then
    (s.setExp { s.exp with
      tdiCount := s.exp.tdiCount + 1
      tdiLines := s.exp.tdiLines.map fun l =>
        { l with missed := l.missed || decide (s.exp.tdiCount < l.index + l.ctx.stages) } }) |> fun t =>
        if t.gated then t else t.tdiFlush
  else s

/-! ### Readout -/

/-- Ticks a readout lasts (R259, R292). -/
def State.readoutTime (s : State) (c : Context) : Nat := (c.pairs s.exp.blackPair).length * c.pairPeriod

/-- The CAL words of the pair whose conversion starts in this tick are read (R333). -/
def State.convertNext (s : State) (r : Reading) : State :=
  let k := s.readCal r.frame.ctx.gains
  k.2.2.setExp { k.2.2.exp with reading := some { r with cal := k.1, calCorr := k.2.1 } }

/-- The readout of an exposure begins in its transfer tick (R284), its black measurement anew (R315); a multi-exposure
frame takes its pages with its first one, and is abandoned where there are none left. -/
def State.startReadout (s : State) (f : Frame) (k : Nat) : State :=
  let s := s.setCnv s.cnv.begin_
  let c := f.ctx
  let r (f : Frame) : Reading :=
    { frame := f, k := k, pair := 0, free := s.clk.now + s.readoutTime c, cal := [], calCorr := 0 }
  if 1 < c.subs ∧ c.scan ≠ .tdi ∧ k = 0 then
    match s.takePages c (c.dataPages s.part) with
    | some ps => ((s.setExp { s.exp with eccPages := [] }).usePages ps .frame).convertNext (r { f with pages := ps })
    | none => (s.setExp { s.exp with between := none }).loseTrigger .noSlate
  else s.convertNext (r f)

/-- Enabled quires whose folios a context sends. -/
def State.senders (s : State) (c : Context) : List Nat := (List.range s.part.quires).filter (c.sends s.part)

/-- Index of the last pair of a readout whose folios are sent. -/
def State.lastSent (s : State) (c : Context) : Option Nat :=
  (((c.pairs s.exp.blackPair).zipIdx.filter fun e => c.sendsPair e.1).map Prod.snd).getLast?

/-- The line folios of a black or test pair. -/
def State.sendPlain (s : State) (r : Reading) (x : Samples) (p : RowPair) (test last : Bool) : State :=
  let c := r.frame.ctx
  let lf := s.latchFlash r.frame
  let s := lf.2.setExp { lf.2.exp with reading := some { r with frame := lf.1 } }
  (s.senders c).foldl
    (fun t q => [0, 1].foldl
      (fun t b =>
        let row := if test then testRow c r.cal x q b else blackRow t.cnv c r.cal x q b
        let e := t.edgeValues r x b
        t.sendValues lf.1.info q (p.field b) test [row] e.1 e.2 false
          (t.calTouched r q b test) (last && b == 1)) t) s

/-- A black pair enters the estimates, which the last one updates (R315 to R319); a pending injection 0x13 steps. -/
def State.measureBlack (s : State) (r : Reading) (x : Samples) (final : Bool) : State :=
  let c := r.frame.ctx
  let v := s.cnv.measure c s.part r.cal x
  if final then
    let u := v.updateBlack c
    let valid := v.black.any fun e => e.2.valid
    let inj := valid && (s.injArg 0x13).isSome
    let s := s.setCnv u.1
    let s := if inj then s.injDone else s
    if u.2 || inj then s.setFlag F.CNV_STATUS_BLK_STEP true else s
  else s.setCnv v

/-- A corrected error has touched page `p` of the frame: the folio of its row carries ECC_CORR (R302, R336). -/
def State.noteEcc (s : State) (p : Nat) (ecc : Bool) : State :=
  if ecc && !s.exp.eccPages.contains p then s.setExp { s.exp with eccPages := s.exp.eccPages ++ [p] } else s

/-- An active pair of a sub-exposure that sends no folios: its values enter the Slate (R288). -/
def State.storeSub (s : State) (r : Reading) (x : Samples) (row n : Nat) : State :=
  let c := r.frame.ctx
  let qs := c.enabled s.part
  qs.zipIdx.foldl
    (fun t qi => [0, 1].foldl
      (fun t b =>
        let v := t.activeValues r x qi.1 (row + b) b
        match r.frame.page qs.length n b qi.2 with
        | none => v.2.2
        | some p =>
          let old := if r.k = 0 then (List.replicate 512 0, false, v.2.2) else v.2.2.readPage p
          (old.2.2.writePage p ((old.1.zip v.1).map fun e => combineSub c r.k false e.1 e.2)).noteEcc p (v.2.1 || old.2.1)) t)
    s

/-- The step-7 values of a row in the readout that sends folios. -/
def State.finalValues (s : State) (r : Reading) (x : Samples) (q qi row n b : Nat) : List Int × Bool × State :=
  let c := r.frame.ctx
  let v := s.activeValues r x q (row + b) b
  if c.subs ≤ 1 then v
  else match r.frame.page (c.enabled s.part).length n b qi with
    | none => v
    | some p =>
      let old := v.2.2.readPage p
      ((old.1.zip v.1).map fun e => combined (combineSub c r.k true e.1 e.2),
        v.2.1 || old.2.1 || s.exp.eccPages.contains p, old.2.2)

/-- The line folios of an active pair, one per row, or one per pair under VBIN (R252, R258). -/
def State.sendActive (s : State) (r : Reading) (x : Samples) (row n : Nat) (last : Bool) : State :=
  let c := r.frame.ctx
  let lf := s.latchFlash r.frame
  let s := lf.2.setExp { lf.2.exp with reading := some { r with frame := lf.1 } }
  let h := lf.1.info
  (c.enabled s.part).zipIdx.foldl
    (fun t qi =>
      let q := qi.1
      if !c.sends t.part q then t
      else
        let v0 := t.finalValues r x q qi.2 row n 0
        let v1 := v0.2.2.finalValues r x q qi.2 row n 1
        let t := v1.2.2
        if c.vbin then
          let e := t.edgeValues r x 0
          t.sendValues h q row false [v0.1, v1.1] e.1 e.2 false (v0.2.1 || v1.2.1) last
        else c.rowOrder.zipIdx.foldl
          (fun t bi =>
            let v := if bi.1 = 0 then v0 else v1
            let e := t.edgeValues r x bi.1
            t.sendValues h q (row + bi.1) false [v.1] e.1 e.2 false v.2.1 (last && bi.2 == 1)) t) s

/-- The end of a readout (R244, line 34): the frame or line is complete, its pages are released, and the lanes that
sent nothing have their annex point; TDI lines that are complete now are sent with theirs, and where there is none the
point falls here (R359). -/
def State.endReadout (s : State) (r : Reading) : State :=
  let c := r.frame.ctx
  let s := (s.setExp { s.exp with reading := none }).raiseLine 34
  if r.k + 1 < c.subs then s
  else
    let due := s.statusDue c
    let silent := if (s.lastSent c).isNone then List.range s.part.quires
      else (List.range s.part.quires).filter fun q => !c.sends s.part q
    let s := s.usePages r.frame.pages .free
    let next (t : State) : State := t.setExp { t.exp with blackPair := (t.exp.blackPair + 1) % 8 }
    match c.scan with
    | .area => s.annexPoints (some r.frame.number) silent due
    | .line => next ((s.annexPoints (some r.frame.number) silent due).countLine due)
    | .tdi =>
      next (if s.exp.tdiLines.any s.exp.ready then s.tdiFlush
        else (s.annexPoints none (List.range s.part.quires) due).countLine due)

/-- Index of an active pair among those the readout converts. -/
def activeIndex (c : Context) (pair : Nat) : Nat := if c.scan = .area then pair - 8 else pair

/-- The digital path of a converted pair. -/
def State.processPair (s : State) (r : Reading) (x : Samples) (p : RowPair) : State :=
  let c := r.frame.ctx
  let final := decide (c.subs ≤ r.k + 1)
  let last := s.lastSent c == some r.pair
  match p with
  | .black n =>
    let t := if final && c.scan != .tdi && c.sendsPair p then s.sendPlain r x p false last else s
    t.measureBlack r x (c.scan != .area || n == 7)
  | .test _ => if final then s.sendPlain r x p true last else s
  | .active row =>
    if c.scan = .tdi then (s.tdiRow r x row 0).tdiRow r x (row + 1) 1
    else if final then
      let n := activeIndex c r.pair
      let t := s.sendActive r x row n last
      let every := t.fld F.LN_ANNEX_PAIRS
      if c.scan = .area ∧ every ≠ 0 ∧ (n + 1) % every = 0 ∧ last = false then
        t.annexPoints (some r.frame.number) (t.senders c) false
      else t
    else s.storeSub r x row (activeIndex c r.pair)

/-- A row pair finishes converting: its digital path runs, and the next pair starts in the same tick (R259). -/
def State.pairEnd (s : State) (x : Samples) : State :=
  match s.exp.reading with
  | none => s
  | some r =>
    let c := r.frame.ctx
    let ps := c.pairs s.exp.blackPair
    match ps[r.pair]? with
    | none => s
    | some p =>
      let last := s.lastSent c == some r.pair
      let final := decide (c.subs ≤ r.k + 1)
      let t := s.processPair r x p
      let r := { (t.exp.reading.getD r) with pair := r.pair + 1 }
      let t := if last && final && c.scan != .tdi then t.annexPoints (some r.frame.number) (t.senders c) (t.statusDue c) else t
      if r.pair < ps.length then t.convertNext r else t.endReadout r

/-! ### The start of an exposure (R285) -/

/-- The present tick as a later one will look back on it. -/
def State.nowPast (s : State) : Past :=
  { lines := s.lines, timer := s.exp.fired, p := s.pos.p, est := s.pos.est, ref := s.pos.ref }

/-- The event tick of a trigger that reaches the quires now, three ticks ago (R146, Table 08-1). -/
def State.eventPast (s : State) : Past := s.past.getD 2 s.nowPast

/-- Whether a frame is in exposure (Table 08-1). -/
def Exposure.inExposure (x : Exposure) : Bool := x.exposing.isSome || x.between.isSome

/-- The decision of Table 08-3 on a context: the transfer tick and STR, or dropped. -/
def State.decideStart (s : State) (c : Context) : Option (Nat × Bool) :=
  let d := s.clk.now + c.duration 0
  if s.exp.inExposure then none
  else match s.exp.reading with
    | none => some (d, false)
    | some r =>
      if r.free ≤ d then some (d, false)
      else if s.flag F.EXP_MODE_OVERRUN then some (r.free, true)
      else none

/-- The TDI lines of a trigger: those in flight, the new one, and the ones whose first stage was lost (R293, R295). -/
def State.openLines (s : State) (c : Context) (str : Bool) : State :=
  let n := s.exp.tdiCount
  let low := max s.exp.tdiFirst (n + 1 - c.stages)
  let make (i : Nat) : TdiLine :=
    { index := i, pos := s.eventPast.p.toNat % 2 ^ 40, est := s.eventPast.est, dup := s.pos.dupPend != 0
      posRef := s.eventPast.ref
      sw := s.pwr.warn, str := str, missed := i != n, ecc := false, pages := [], values := [], ctx := c, row := c.lastStageRow
      left := [], right := [] }
  let old := s.exp.tdiLines.map fun l =>
    if low ≤ l.index then { l with str := l.str || str, sw := l.sw || s.pwr.warn, ctx := c } else l
  let fresh := ((List.range (n + 1 - low)).map (low + ·)).filter fun i => !(old.any fun l => l.index == i)
  s.setExp { s.exp with tdiLines := old ++ fresh.map make, tdiCount := n + 1, tdiCtx := some c }

/-- An exposure starts: context, frame number, the position of its event tick, EXPOSURE_START (R222, R281, R283). DESIGN
CHOICE (log entry 33). -/
def State.startExposure (s : State) (c : Context) (stop : Nat) (str : Bool) : State :=
  let s := s.takeContext c
  let s := if str then s.streamLoss F.EXP_CTRL_OVERRUN noUnit 2 else s
  let numbered : Nat × State :=
    if c.scan = .tdi then (s.exp.tdiCount, s.openLines c str) else s.takeNumber
  let f : Frame :=
    { number := numbered.1, ctx := c, pos := s.eventPast.p.toNat % 2 ^ 40, est := s.eventPast.est
      dup := s.pos.dupPend != 0, posRef := s.eventPast.ref, str := str, sw := s.pwr.warn, flash := none, pages := [] }
  let t := numbered.2
  let t := t.setPos { t.pos with dupPend := t.pos.dupPend - 1 }
  (t.setExp { t.exp with
    exposing := some { frame := f, k := 0, start := t.clk.now, until_ := some stop }
    }).raiseLine 32

/-- The state in which a trigger is decided: a commit that waits for an exposure start is applied (R212, R213).
DESIGN CHOICE (log entry 33). -/
def State.withCommit (s : State) : State :=
  if s.bnd.txn = .pending ∧ (s.bnd.point = .nextLine ∨ s.bnd.point = .nextFrame) then s.applyTxn else s

/-! ### Transfers (R281, R284) -/

/-- The exposure ends: its charge moves to the storage nodes and readout begins.  It waits while another readout holds
them. -/
def State.exposureEnd (s : State) : State :=
  match s.exp.exposing with
  | none => s
  | some e =>
    if s.exp.reading.isSome then s
    else
      let c := e.frame.ctx
      let more := decide (e.k + 1 < c.subs)
      let t := (s.setExp { s.exp with
        exposing := none, between := if more then some (e.frame, e.k + 1) else none }).raiseLine 33
      let t := t.startReadout e.frame e.k
      match t.exp.reading, t.exp.between with
      | some r, some b => t.setExp { t.exp with between := some (r.frame, b.2) }
      | _, _ => t

/-- An exposure whose last transfer tick has come is ended first (R296). -/
def State.dueTransfer (s : State) : State :=
  match s.exp.exposing with
  | some e => if (e.until_.any fun u => decide (u ≤ s.clk.now)) ∧ e.frame.ctx.subs ≤ e.k + 1 then s.exposureEnd else s
  | none => s

/-- A trigger that reaches the quires while RUN is 1 (R285). DESIGN CHOICE (log entry 33). -/
def State.decideTrigger (s : State) : State :=
  let s := s.dueTransfer
  if s.gated then s.loseTrigger .gate
  else if s.fld F.EXP_MODE_TRIG = 2 ∧ s.flag F.EXP_MODE_ABS = true ∧ s.pos.ref = false then s.loseTrigger .noRef
  else if s.pwr.hold then s.loseTrigger .held
  else
    let u := s.withCommit
    let c := u.context
    match u.decideStart c with
    | none => s.loseTrigger .overrun
    | some (stop, str) =>
      if (s.injArg 0x14).isSome then s.injDone.injected fun t => t.loseTrigger .overrun
      else if u.lacksPages c then s.loseTrigger .noSlate
      else u.startExposure c stop str

/-- Whether triggers are served: Streaming with RUN = 1 (R274). -/
def State.running (s : State) : Bool := s.pwr.state == .streaming && s.flag F.EXP_CTRL_RUN

/-- The event of the line of EXP_SCHED.EVENT, three ticks ago, reaches the quires (R146): a trigger unless the source is
the timer.  One event a tick (R279); one that no line has carried is counted in holdover now (R426). DESIGN CHOICE (log
entry 33). -/
def State.trigger (s : State) : State :=
  if s.exp.trigTick = some s.clk.now then s
  else
    let line := s.fld F.EXP_SCHED_EVENT
    let t := s.setExp { s.exp with trigTick := some s.clk.now }
    let t := if s.eventPast.lines.getLsbD line then t else t.holdEvent
    if t.running && t.fld F.EXP_MODE_TRIG != 0 && t.lineExists line then t.decideTrigger else t

/-- Ticks from one expiry of the free-run timer to the next: the live EXP_PERIOD in units of PUNIT; 0 = no further one
(R276). -/
def State.freePeriod (s : State) : Nat :=
  s.fld F.EXP_PERIOD_PERIOD * (if s.flag F.EXP_MODE_PUNIT then 256 else 1)

/-- The free-run timer loads the live period. -/
def State.loadTimer (s : State) (fired : Bool) : State :=
  s.setExp { s.exp with fired := fired, timer := if s.freePeriod = 0 then none else some s.freePeriod }

/-- The free-run timer expires, where it runs (R276); the trigger that it gives reaches the quires three ticks later. -/
def State.freeRun (s : State) : State :=
  if s.running && s.exp.timer.isSome then s.loadTimer true else s

/-- One tick of the free-run timer (R276): it expires when its count ends; stopped by a period of 0, it loads again once
EXP_PERIOD is written.  DESIGN CHOICE (log entry 33). -/
def State.timerTick (s : State) : State :=
  if !s.running then s
  else match s.exp.timer with
    | some k => if k ≤ 1 then s.loadTimer true else s.setExp { s.exp with timer := some (k - 1) }
    | none => if s.freePeriod = 0 then s else s.loadTimer false

/-- The trigger of a timer expiry three ticks ago. -/
def State.freeTrigger (s : State) : State :=
  if s.running && s.fld F.EXP_MODE_TRIG == 0 && s.eventPast.timer then s.decideTrigger else s

/-- The event of line EVENT + 1 reaches the quires in LEGACY mode (R278): the exposure ends, no sooner than 250 tk after
its start, no later than its maximum, and once the storage nodes are free. DESIGN CHOICE (log entry 33). -/
def State.legacyEnd (s : State) : State :=
  match s.exp.exposing with
  | some e =>
    if e.k != 0 || e.frame.str || s.fld F.EXP_MODE_TRIG != 3 || !s.lineExists ((s.fld F.EXP_SCHED_EVENT + 1) % 64) then s
    else
      let u := max (e.start + 250) ((s.exp.reading.map Reading.free).getD 0)
      if u ≤ s.clk.now then s.exposureEnd
      else s.setExp { s.exp with exposing := some { e with until_ := some (min u (e.until_.getD u)) } }
  | none => s

/-- The supply warning asserts: the frames whose exposure interval runs carry SW, and the TDI lines whose stages are not
all done (R106, R282, R299). -/
def State.markSW (s : State) : State :=
  let sw (f : Frame) : Frame := { f with sw := true }
  let stage := (s.exp.exposing.bind fun e => if e.frame.ctx.scan = .tdi then some e.frame.number else none).getD s.exp.tdiCount
  s.setExp { s.exp with
    exposing := s.exp.exposing.map fun e => { e with frame := sw e.frame }
    between := s.exp.between.map fun b => (sw b.1, b.2)
    tdiLines := s.exp.tdiLines.map fun l => { l with sw := l.sw || decide (stage < l.index + l.ctx.stages) } }

/-- The flash energies of frame `n` are dropped: it sends no folio (R464). -/
def State.dropFlash (s : State) (n : Nat) : State :=
  s.setAux { s.aux with flash := s.aux.flash.filter fun e => e.1 != n }

/-- A frame is abandoned: its pages are released, and no folio of it is sent (R287). -/
def State.abandon (s : State) (f : Frame) : State :=
  let t := (s.usePages f.pages .free).dropFlash f.number
  let x := t.exp
  (t.setExp { x with
    between := none
    reading := x.reading.map fun r => if r.frame.number = f.number then { r with frame := { r.frame with pages := [] } } else r
    }).count F.EXP_DROPPED_COUNT |>.markGap

/-- The next sub-exposure starts, or the dip hold abandons the frame (R287, R290). -/
def State.subStart (s : State) : State :=
  match s.exp.between with
  | none => s
  | some (f, k) =>
    if s.exp.exposing.isSome then s
    else if s.pwr.hold then s.abandon f
    else (s.setExp { s.exp with
      between := none
      exposing := some { frame := f, k := k, start := s.clk.now, until_ := some (s.clk.now + f.ctx.duration k) }
      }).raiseLine 32

/-! ### Starting and stopping (R272, R273) -/

/-- The power states that take a write of RUN = 1: Armed, and Streaming while BUSY is 1 (R272, R273). -/
def State.runState (s : State) : Bool := s.pwr.state == .armed || (s.pwr.state == .streaming && s.busy)

/-- The status of a write of RUN = 1 (R272, R294, R364, R493, R588). -/
def State.runCheck (s : State) : Nat :=
  let c := s.context
  if s.part.pages < s.fld F.LN_BUF_PAGES + s.retiredCount + c.ffPages s.part then Status.range
  else if s.pagesAvailable < c.dataPages s.part + c.ffPages s.part then Status.range
  else if !s.runState || s.clk.boot || s.gated || s.flag F.MEM_RAW_EN || (s.flag F.TMP_CFG_LIM_STOP && s.tmp.limit) then
    Status.state
  else if s.fld F.EXP_MODE_TRIG = 2 ∧ s.flag F.EXP_MODE_ABS = true ∧ s.pos.ref = false then Status.needsRef
  else Status.ok

/-- RUN = 1 accepted: Streaming, the free-run timer starts, TDI primes. -/
def State.startRun (s : State) : State :=
  let t := s.setExp { s.exp with
    timer := some 1, fired := false, stopping := false, tdiFirst := s.exp.tdiCount, tdiCtx := none
    lastNumber := if s.pwr.state = .streaming then s.exp.lastNumber else none }
  (t.changesTo .streaming).setFlag F.EXP_CTRL_RUN true

/-- The last folio of the last frame has been handed: STATE returns to Armed (R273), where the waveform sets are checked
and the stale timer starts again (R328, R494). -/
def State.drained (s : State) : State :=
  if s.pwr.state == .streaming && s.exp.stopping && !s.busy then
    let t := (s.setExp { s.exp with stopping := false }).changesTo .armed
    (t.setTmp { t.tmp with timer := 0 }).checkWaves
  else s

/-- A write of RUN: the status, the state. -/
def State.writeRun (s : State) (run : Bool) : Nat × State :=
  if run then
    let t := s.drained
    if t.runCheck ≠ Status.ok then (t.runCheck, t)
    else (Status.ok, if t.running then t else t.startRun)
  else (Status.ok, if s.flag F.EXP_CTRL_RUN then s.stopRun else s)

/-- PRIMING: until the trigger comes that sends the first line (R293). DEDUCED (log entry 26). -/
def State.priming (s : State) : Bool :=
  s.running && s.fld F.EXP_MODE_SCAN == 2 && 1 < s.context.stages
    && s.exp.tdiCount < s.exp.tdiFirst + s.context.stages

/-- The live bits of EXP_CTRL (Table 08-6). -/
def State.expLive (s : State) : Nat := 8 * bit s.priming + 4 * bit s.busy

/-- Every frame and line abandoned without transfer: exposures, readouts, sub-exposures (R150, R297). -/
def State.abandonAll (s : State) : State :=
  let pages := (s.exp.exposing.toList.flatMap fun e => e.frame.pages)
    ++ (s.exp.reading.toList.flatMap fun r => r.frame.pages) ++ (s.exp.between.toList.flatMap fun b => b.1.pages)
  let t := s.usePages pages .free
  (t.setExp { t.exp with exposing := none, reading := none, between := none }).setAux { t.aux with flash := [] }

/-- Everything of the unit cleared (R283, R298): class D, the frame number included. -/
def State.clearExposure (s : State) : State :=
  let t := s.abandonAll
  let t := t.exp.tdiLines.foldl (fun t l => t.usePages l.pages .free) t
  t.setExp Exposure.init

end Sys2Proof.Machine
end

