-- ==== Sys2Proof/Machine/Scrub.lean ====
section
/-! DEFINITION.
The scrubber of chapter 17 with its repeat and macro rules, the write-backs of corrected words, and the writes of the
checker registers: flip mask, raw mode, page retirement.
-/
namespace Sys2Proof.Machine

/-- The state with the memories replaced. -/
def State.setMem (s : State) (x : Memory) : State := { s with mem := x }

/-! ### The walk (R578) -/

/-- The scrubber runs (R578). -/
def State.scrubs (s : State) : Bool := s.scrubRuns s.band

/-- The store in raw mode, if one is (R587, R588); the Colophon never is (R35). -/
def State.rawStore (s : State) : Option Nat :=
  if s.flag F.MEM_RAW_EN && s.fld F.MEM_RAW_STORE != Store.colophon then some (s.fld F.MEM_RAW_STORE) else none

/-- Words of the Slate.  The walk's places are the words of the Slate, CAL, DEFECT and LOG in turn. -/
def slateWords (p : Part) : Nat := 128 * p.pages

/-- Words of CAL. -/
def calWords : Nat := 24640
/-- Words of DEFECT. -/
def defectWords : Nat := 8192
/-- Words of LOG. -/
def logWords : Nat := 2048

/-- Places of the walk. -/
def walkEnd (p : Part) : Nat := slateWords p + calWords + defectWords + logWords

/-- The word at a place of the walk. -/
def walkWord (p : Part) (k : Nat) : WordAddr :=
  if k < slateWords p then ⟨Store.slate, false, k⟩
  else
    let k := k - slateWords p
    if k < calWords then ⟨Store.cal, false, k⟩
    else if k < calWords + defectWords then ⟨Store.defect, false, k - calWords⟩
    else ⟨Store.log, false, k - calWords - defectWords⟩

/-- The first place from `k` on that the walk visits: not in an unpowered or raw store, a retired page, or an absent
region (R578, R584, R588).  `n` bounds the retired pages skipped. -/
def State.nextPlace (s : State) (k : Nat) : Nat → Nat
  | 0 => k
  | n + 1 =>
    let p := s.part
    let base := slateWords p
    if k < base then
      if !s.analog || s.rawStore = some Store.slate then State.nextPlace s base n
      else if s.retired (k / 128) then State.nextPlace s (128 * (k / 128 + 1)) n
      else k
    else if k < base + calWords then
      if s.rawStore = some Store.cal then State.nextPlace s (base + calWords) n
      else if 2048 * p.quires ≤ k - base ∧ k - base < 24576 then base + 24576
      else k
    else if k < base + calWords + defectWords then
      if s.rawStore = some Store.defect then State.nextPlace s (base + calWords + defectWords) n else k
    else if s.rawStore = some Store.log then walkEnd p
    else k

/-- The next place visited. DESIGN CHOICE (log entry 30). -/
def State.scrubNext (s : State) (k : Nat) : Nat := s.nextPlace k (s.part.pages + 4)

/-- Words of a pass (R579). -/
def State.passWords (s : State) : Nat :=
  (if s.analog && s.rawStore != some Store.slate then 128 * (s.part.pages - s.retiredCount) else 0)
    + (if s.rawStore = some Store.cal then 0 else 2048 * s.part.quires + 64)
    + (if s.rawStore = some Store.defect then 0 else defectWords)
    + (if s.rawStore = some Store.log then 0 else logWords)

/-- The pass time of the band in force, in tk (R579). DESIGN CHOICE (log entry 30). -/
def State.passTime (s : State) : Nat := 2500000 * s.fld F.MEM_SCRUB_RATE_PASS s.band

/-! ### What a correction reports (R580 to R582) -/

/-- A macro is declared failed (R582): its record, flag and event; the first one becomes the erasure. DESIGN CHOICE
(log entry 30). -/
def State.declareMacro (s : State) (m reader offset : Nat) : State :=
  if s.mem.declared.contains m then s
  else
    let s := s.setMem { s.mem with declared := s.mem.declared ++ [m] }
    let t := s.logFault kindMacro Store.slate reader false offset m
    let t := (t.setFlag F.MEM_STATUS_MACRO true).raise 0x49 m s.nextSeq
    if t.mem.failed.isSome then t
    else t.setMem { t.mem with failed := some m, erased := if t.flag F.MEM_CTRL_ERASE_EN then some m else none }

/-- Macro rows of macro `m` in which this pass corrected errors. -/
def Memory.rowsOf (x : Memory) (m : Nat) : Nat := (x.macroRows.filter fun e => e.1 == m).length

/-- The scrubber corrected a word: a CORR record, at most 64 a pass; a REPEAT record where the previous pass corrected
it too; a macro declared failed with its eighth row. -/
def State.scrubHit (s : State) (w : WordAddr) (r : ReadOut) : State :=
  let log (t : State) (kind : Nat) : State := t.logFault kind w.store Reader.scrubber.code false w.offset r.syn
  let t := if s.mem.records < 64 then
      (log s kindCorr).setMem { (log s kindCorr).mem with records := s.mem.records + 1 }
    else s
  let t := if t.mem.lastHits.contains w then
      ((log t kindRepeat).setFlag F.MEM_STATUS_REPEAT true).raise 0x48 w.store t.nextSeq
    else t
  let t := t.setMem { t.mem with hits := (t.mem.hits ++ [w]).take 32 }
  if w.store = Store.slate then
    let e := (r.sym, w.word / 256)
    let t := t.setMem { t.mem with
      macroRows := if t.mem.macroRows.contains e then t.mem.macroRows else t.mem.macroRows ++ [e] }
    if 8 ≤ t.mem.rowsOf r.sym then t.declareMacro r.sym Reader.scrubber.code w.offset else t
  else t

/-! ### Visits and passes (R579) -/

/-- The interval set anew: the pass time in force over the words of the pass (R579). -/
def State.setPace (s : State) : State :=
  s.setMem { s.mem with interval := s.passTime / s.passWords, paced := s.passTime }

/-- A pass ends and the next begins, with its interval. DESIGN CHOICE (log entry 30). -/
def State.passEnd (s : State) : State :=
  let t := s.setFld F.MEM_STATUS_PASSES ((s.fld F.MEM_STATUS_PASSES + 1) % 256)
  let t := if s.passTime < s.mem.elapsed then t.setFlag F.MEM_STATUS_SCRUB_LATE true else t
  (t.setMem { t.mem with
    scrubPos := 0, lastHits := s.mem.hits, hits := [], records := 0, macroRows := [], elapsed := 0 }).setPace

/-- The scrubber's interval ends: it reads the next word of its walk, if that word is valid; where the pass time in
force has changed, the interval to the next visit is the new one (R579, Table 17-9). DESIGN CHOICE (log entry 30). -/
def State.scrubVisit (s : State) : State :=
  if !s.scrubs then s
  else
    let k := s.scrubNext s.mem.scrubPos
    let s := if s.mem.paced = s.passTime then s else s.setPace
    if walkEnd s.part ≤ k then s.passEnd
    else
      let w := walkWord s.part k
      let t := match s.readWord .scrubber false w with
        | (none, t) => t
        | (some r, t) => if r.corrected then t.scrubHit w r else t
      let next := t.scrubNext (k + 1)
      if walkEnd t.part ≤ next then t.passEnd else t.setMem { t.mem with scrubPos := next }

/-- The oldest corrected word that waits is written back, its code as corrected: a flip never acts (R573, R586). -/
def State.writeBack (s : State) : State :=
  match s.mem.writebacks with
  | [] => s
  | (w, raw) :: _ => s.setMem (s.mem.putRaw w raw)

/-! ### Register writes (R584, R586, R588) -/

/-- The status of a write of MEM_FLIP_MASK. DESIGN CHOICE (log entry 30). -/
def State.flipCheck (s : State) (w : Word) : Nat :=
  let id := s.fld F.MEM_SEL_STORE
  if id = Store.colophon ∨ id = 0 ∨ Store.trace < id then Status.ok
  else if (if id = Store.slate then 17 else 4) < F.MEM_FLIP_MASK_POS.of w then Status.range
  else if id = Store.slate ∧ s.part.full = false then Status.noUnit
  else Status.ok

/-- An accepted write of MEM_FLIP_MASK: a flip is armed for the store that MEM_SEL names, or disarmed. -/
def State.writeFlip (s : State) (w : Word) : State :=
  let id := s.fld F.MEM_SEL_STORE
  let coded := 1 ≤ id && id ≤ 10 && id != Store.colophon
  let t := (s.setFld F.MEM_FLIP_MASK_MASK (F.MEM_FLIP_MASK_MASK.of w)).setFld F.MEM_FLIP_MASK_POS
    (F.MEM_FLIP_MASK_POS.of w)
  t.setMem { t.mem with flip := if coded && F.MEM_FLIP_MASK_MASK.of w != 0 then some id else none }

/-- The status of a write of MEM_RAW. -/
def State.rawCheck (s : State) (w : Word) : Nat :=
  if F.MEM_RAW_STORE.of w = Store.slate ∧ s.part.full = false then Status.noUnit
  else if F.MEM_RAW_EN.of w = 1 ∧ s.pwr.state = .streaming then Status.state
  else Status.ok

/-- An accepted write of MEM_RAW. -/
def State.writeRaw (s : State) (w : Word) : State :=
  (s.setFld F.MEM_RAW_EN (F.MEM_RAW_EN.of w)).setFld F.MEM_RAW_STORE (F.MEM_RAW_STORE.of w)

/-- A write of SLT_RETIRE in a group of present pages. -/
def State.writeRetire (s : State) (w : Word) : State :=
  let g := s.fld F.MEM_SEL_RGRP
  if 16 * g < s.part.pages then s.setReg R.SLT_RETIRE w g else s

/-- MEM_INFO by part (Table 17-14, R590). -/
def State.memInfo (s : State) (part : Nat) : Nat :=
  match part with
  | 0x2 => Cells.get 0 s.mem.corrected 0x2
  | 0x3 => Cells.get 0 s.mem.corrected 0x3
  | 0x6 => if s.part.full then Cells.get 0 s.mem.corrected 0x6 else 0
  | 0x7 => Cells.get 0 s.mem.corrected 0x7
  | 0xC => if s.part.full then 2 ^ 15 * bit s.mem.erased.isSome + 256 * s.mem.failed.getD 0 else 0
  | 0xD => s.retiredCount
  | _ => 0

/-- The live bits of MEM_STATUS (Table 17-13). -/
def State.memLive (s : State) : Nat := 2 ^ 11 * bit s.mem.flip.isSome + 2 ^ 10 * bit s.scrubs

end Sys2Proof.Machine
end

