-- ==== Sys2Proof/Machine/Clock.lean ====
section
/-! DEFINITION.
The PLL and Spine time of chapter 04: relocks, REFCLK losses and returns, and the stream gate.
-/
namespace Sys2Proof.Machine

/-- The state with the clock unit replaced. -/
def State.setClk (s : State) (x : Clock) : State := { s with clk := x }

/-- The PLL runs, and losses are declared (R153, R154): in Standby, Armed, Streaming and Testing, and in Waking once the
PLL has locked. -/
def State.pllOn (s : State) : Bool :=
  s.up || s.pwr.state == .testing
    || (s.pwr.state == .waking && (5 ≤ s.pwr.step || s.pwr.kind == .standby))

/-- CLK_TIME and the clocked counters hold (R139, R150). DEDUCED (log entry 29). -/
def State.holdTime (s : State) : State := (s.setClk { s.clk with held := true }).setFlag F.CLK_STATUS_TIME_GAP true

/-! ### Relocks (R138 to R140) -/

/-- A relock at the full ratio starts. -/
def State.startRelock (s : State) : State :=
  (s.setClk { s.clk with relocking := true, locked := false, toFull := true }).holdTime

/-- The status of a write of CLK_REFDIV (R138). -/
def State.refdivCheck (s : State) (w : Word) : Nat :=
  if 60 < F.CLK_REFDIV_FREQ.of w then Status.range
  else if s.pwr.state = .streaming then Status.state
  else if s.clk.relocking then Status.busy
  else Status.ok

/-- An accepted write of CLK_REFDIV: stored; it starts a relock, but not while LOST is 1: then the relock to its value
comes with REF_PRESENT, also where the PLL has relocked already (R138, R155). DEDUCED (log entry 29). -/
def State.writeRefdiv (s : State) (w : Word) : State :=
  let t := s.setFld F.CLK_REFDIV_FREQ (F.CLK_REFDIV_FREQ.of w)
  if t.gated then t.setClk { t.clk with toFull := true, owed := t.clk.locked } else t.startRelock

/-- The PLL locks at the target ratio: what was held resumes (R140, R151). DEDUCED (log entry 29). -/
def State.relocked (s : State) : State :=
  if s.pllOn && s.clk.relocking then
    (s.setClk { s.clk with relocking := false, locked := true, refPresent := true, boot := !s.clk.toFull, held := false
      }).raise 0x19 noUnit (s.fld F.CLK_REFDIV_FREQ)
  else s

/-- 256 good periods of REFCLK have been seen: the PLL relocks (R151, R155). DEDUCED (log entry 29). -/
def State.refReturned (s : State) : State :=
  if s.pllOn && !s.clk.relocking && (!s.clk.locked || s.clk.owed) then
    let t := s.setClk { s.clk with refPresent := true, relocking := true, locked := false, owed := false }
    if s.clk.locked then t.holdTime else t
  else s

/-! ### Losses (R148 to R150) -/

/-- CAUSE codes. -/
def lossMissing : Nat := 1
/-- FREQUENCY. -/
def lossFrequency : Nat := 2

/-- A loss is declared: the VCO coasts, the stream gate closes, time holds, exposures end without transfer, readouts
are abandoned, folios are cut.  A loss that ends a relock turns the target to the full ratio (R155). DEDUCED (log
entry 29). -/
def State.declareLoss (s : State) (cause : Nat) : State :=
  if s.pllOn && (s.clk.locked || s.clk.relocking) then
    let t := s.setClk { s.clk with
      locked := false, refPresent := false, relocking := false, owed := false
      toFull := s.clk.relocking || s.clk.owed || !s.clk.boot }
    let t := ((t.setFlag F.CLK_STATUS_LOST true).setFld F.CLK_STATUS_CAUSE cause).holdTime
    (t.raise 0x18 noUnit cause).abandonAll.cutLanes
  else s

/-- A write of 1 to CLK_STATUS.LOST: with the PLL locked, the gate opens, but not in the tick of a declaration (R155);
the next line folios carry GAP, and TDI restarts (R152, R297). DEDUCED (log entry 29). -/
def State.openGate (s : State) : State :=
  if s.clk.locked && s.gated && F.CLK_STATUS_LOST.of (s.freshBits R.CLK_STATUS) == 0 then
    ((((s.setFlag F.CLK_STATUS_LOST false).setFld F.CLK_STATUS_CAUSE 0)).markGap).restartTdi
  else s

/-! ### Registers and clearing -/

/-- The live bits of CLK_STATUS (Table 04-8). -/
def State.clkLive (s : State) : Nat :=
  64 * bit s.clk.relocking + 32 * bit s.clk.boot + 16 * bit s.clk.refPresent + 8 * bit s.clk.locked

/-- The PLL is off, as in reset and Dormant: the boot ratio comes next (R136, R157). -/
def Clock.off (x : Clock) : Clock :=
  { x with boot := true, locked := false, refPresent := false, relocking := false, toFull := false, owed := false, time := 0
           started := false, held := false }

/-- Wake step 4 completes: the PLL is locked at the boot ratio (R136); REF_PRESENT, which R151 speaks of after a loss
only, reads 1 from then on. DESIGN CHOICE (log entry 29). -/
def Clock.lockBoot (x : Clock) : Clock := { x with boot := true, locked := true, refPresent := true, held := false }

/-- The device reaches Armed: CLK_TIME starts (R142). -/
def Clock.start (x : Clock) : Clock := { x with started := true }

/-- CLK_TIME cleared (R142). -/
def Clock.clearTime (x : Clock) : Clock := { x with time := 0, started := false }

end Sys2Proof.Machine
end

