-- ==== Sys2Proof/Machine/Power.lean ====
section
/-! DEFINITION.
The power unit of chapter 03: supply warning and pumps, retention (Tables 03-9 and 03-10), resets, the entries to
Standby, Dormant, Safe and Armed, and the steps of the wake sequence.
-/
namespace Sys2Proof.Machine

/-- The state with the power unit replaced. -/
def State.setPwr (s : State) (x : Power) : State := { s with pwr := x }

/-! ### Rails (Tables 02-5 and 03-5) -/

/-- The rails of the wake steps up to step `n`. -/
def Rails.upTo (n : Nat) : Rails :=
  { vcore := 3 ≤ n, vref := 3 ≤ n, vana := 5 ≤ n, vpixh := 6 ≤ n, vneg := 7 ≤ n, vlane := 8 ≤ n }

/-- The rails of the steps up to `n` that are already on stay on; the pumps' outputs follow their rails (R66, R97). -/
def State.railsDownTo (s : State) (n : Nat) : State :=
  let r := Rails.upTo n
  s.setPwr { s.pwr with
    rails := { vcore := s.pwr.rails.vcore && r.vcore, vref := s.pwr.rails.vref && r.vref
               vana := s.pwr.rails.vana && r.vana, vpixh := s.pwr.rails.vpixh && r.vpixh
               vneg := s.pwr.rails.vneg && r.vneg, vlane := s.pwr.rails.vlane && r.vlane }
    cp1Ok := s.pwr.cp1Ok && r.vpixh, cp2Ok := s.pwr.cp2Ok && r.vneg
    droop1 := if r.vpixh then s.pwr.droop1 else none, droop2 := if r.vneg then s.pwr.droop2 else none }

/-! ### Codes -/

/-- CLASS codes (Table 03-8). -/
def ResetClass.code : ResetClass → Nat
  | .por => 1 | .bor => 2 | .pin => 3 | .soft => 4 | .fault => 5

/-- Rank of a reset class (R117): a lower number wins. -/
def ResetClass.rank : ResetClass → Nat
  | .por => 0 | .bor => 1 | .pin => 2 | .fault => 3 | .soft => 4

/-- STATE codes (Table 03-11). -/
def PState.code : PState → Nat
  | .off => 0 | .dormant => 1 | .standby => 2 | .armed => 3 | .streaming => 4 | .safe => 5 | .waking => 6 | .testing => 7

/-- SAFE_WHY codes. -/
def SafeWhy.code : SafeWhy → Nat
  | .notSafe => 0 | .wakeFailed => 1 | .recordFailed => 2 | .lockout => 3

/-- The live bits of SYS_STATUS. -/
def State.sysLive (s : State) : Nat := 8 * s.pwr.safeWhy.code + s.pwr.state.code

/-- The live bits of PWR_STATUS (Table 03-16). -/
def State.pwrLive (s : State) : Nat :=
  16 * bit (s.pumpOk true) + 8 * bit (s.pumpOk false) + 4 * bit s.pwr.hold + bit s.pwr.warn

/-! ### Supply warning (R103 to R107) -/

/-- The warning level in mV (Table 03-17). -/
def State.warnLevel (s : State) : Nat := 1620 + 10 * s.fld F.PWR_WARN_LEVEL

/-- The warning asserts (R105 to R107): WARN_LATCH, SUPPLY_WARN while the event log has power, its crossbar line, SW for
the exposures in progress, and the hold under HOLD, which the policy of this tick decides for the whole dip. DESIGN
CHOICE (log entry 32). -/
def State.assertWarn (s : State) : State :=
  if s.pwr.warn then s
  else
    let hold := !s.flag F.PWR_DIP_POLICY_POLICY
    let t := (s.setPwr { s.pwr with warn := true, hold := s.pwr.hold || hold, holdCount := false }).setFlag
      F.PWR_STATUS_WARN_LATCH true
    if t.pwr.rails.vcore then (t.markSW.raise 0x10 noUnit t.warnLevel).raiseLine 59 else t

/-- The warning deasserts: the 10 µs count of the hold starts. -/
def State.deassertWarn (s : State) : State :=
  if s.pwr.warn then s.setPwr { s.pwr with warn := false, holdCount := s.pwr.hold } else s

/-- 10 µs after the deassertion, the hold ends (R107). -/
def State.holdEnd (s : State) : State :=
  if s.pwr.holdCount && !s.pwr.warn then s.setPwr { s.pwr with hold := false, holdCount := false } else s

/-! ### Charge pumps (R109) -/

/-- Pump 2 (or 1) leaves regulation: its flag, and while Armed or Streaming CP_DROOP with its event. After a droop of
the pump itself, `real`, it may regulate again at any time. DESIGN CHOICE (log entries 12 and 32). -/
def State.droop (s : State) (second real : Bool) : State :=
  let mark (x : Option Nat) : Option Nat := if real && s.analog then some s.clk.now else x
  let t := s.setPwr (if second then { s.pwr with cp2Ok := false, droop2 := mark s.pwr.droop2 }
    else { s.pwr with cp1Ok := false, droop1 := mark s.pwr.droop1 })
  let was := if second then s.pwr.cp2Ok || s.pwr.droop2.isSome else s.pwr.cp1Ok || s.pwr.droop1.isSome
  if t.analog && was then
    let u := t.setFlag F.PWR_STATUS_CP_DROOP true
    u.raise 0x11 (if second then 2 else 1) (2 ^ 5 + u.pwrLive + 2 * bit (u.flag F.PWR_STATUS_WARN_LATCH))
  else t

/-! ### Retention (R14, R119 to R123) -/

/-- The registers that an event leaves: what is kept, the rest at its Reset value. -/
def State.retained (s : State) (r : Retention) (cfgsel : Nat) (spi : Bool) : Cells Word :=
  buildRegs fun a i =>
    let m := keptMask r a
    ((s.reg a i).toNat &&& m) ||| (resetWord s.part cfgsel spi a i &&& (0xFFFF - m))

/-- The class-C stores (Table 03-9). -/
def classC : List Nat := [1, 2, 3, 4, 5, 7, 8, 10]

/-- A class-C store that held an uncorrectable word is cleared (R121, R123, R623, R231). -/
def State.loseStore (s : State) (id : Nat) : State :=
  if !classC.contains id then s
  else
    let t := (s.setMem (s.mem.clearStore id)).setReg R.SYS_STORE_LOST (s.reg R.SYS_STORE_LOST ||| (1#16 <<< id))
    let t := t.setFlag F.SYS_STATUS_STORES_VALID false
    let t := match bankedOf id with
      | some b => t.setFlag (bankField b) false
      | none => t
    if id = Store.log then
      let u := (t.setFld F.FLT_LOG_WR_WR 0).setFlag F.FLT_LOG_WR_WRAPPED false
      { u with flt := { u.flt with
        head := Cells.mapEntries none (fun _ e => e.map fun x => { x with copied := false }) u.flt.head } }
    else if id = Store.trace then (t.setFld F.AGT_TRACE_WR 0).setFlag F.AGT_TRACE_WRAPPED false
    else t

/-- Class D of the memories cleared: the Slate, and everything the checkers and the scrubber hold (R565, R591). -/
def Memory.clearRuntime (m : Memory) : Memory :=
  let n := m.clearStore Store.slate
  { Memory.init with cells := n.cells, valid := n.valid }

/-- Class D cleared, and the registers as the event leaves them (R88, R119).  The peripheral bus and the engines are
left to the caller. -/
def State.clearRuntime (s : State) (r : Retention) (cfgsel : Nat) (spi : Bool) : State :=
  let keepB := match r with
    | .standby => true
    | _ => false
  let t := s.clearExposure.clearLanes
  { t with
    regs := s.retained r cfgsel spi
    spn := s.spn.clear keepB
    pos := s.pos.clear keepB
    aux := Aux.init
    tmp := Temperature.init
    cnv := Conversion.init
    mem := t.mem.clearRuntime
    clk := t.clk.clearTime
    flt := { t.flt with events := [], pending := none }
    lines := 0, past := [], fresh := [] }

/-! ### Resets (R112 to R118) -/

/-- The class of the reset that `c` starts while the machine is where it is (R117): a FAULT cause of the same tick
outranks SOFT; a wake after a WAKE_RETRY belongs to no reset (R684). DESIGN CHOICE (log entry 32). -/
def State.resetClass (s : State) (c : ResetClass) : ResetClass :=
  let c := if c = .soft ∧ s.mem.failing ≠ [] then .fault else c
  match s.pwr.kind with
  | .reset old =>
    if (s.pwr.state = .waking ∨ s.pwr.state = .off) ∧ s.pwr.from_ ≠ .safe ∧ old.rank < c.rank then old else c
  | _ => c

/-- Something holds the device in reset: the supply, RESET_N or TEST (R55, R111 to R113). -/
def Power.held (p : Power) : Bool := p.inReset.isSome || p.resetLow || p.testHigh

/-- A wake step starts, or waits until the warning has deasserted (R95); the finish stage, which is no step of Table
03-1, waits in the same way (R129). DESIGN CHOICE (log entry 32). -/
def State.armStep (s : State) (n : Nat) : State :=
  s.setPwr { s.pwr with step := n, stepRunning := !s.pwr.warn }

/-- The wake sequence begins at step `n`, or waits for the supply (R92). -/
def State.beginWake (s : State) (n : Nat) : State :=
  if s.pwr.warn then s.setPwr { s.pwr with step := n, stepRunning := false, supplyWait := true }
  else s.armStep n

/-- What the first tick of a reset of class `c` leaves of the stores and logs that class C and class A hold. -/
def State.resetStores (s : State) (c : ResetClass) : State :=
  let failing := s.mem.failing
  let all := c == .por || c == .bor
  let t := if all then classC.foldl State.loseStore s else failing.foldl State.loseStore s
  let kept (x : BankedStore) : SyncState :=
    if all || failing.contains (bankedId x) then .none else .pending
  let b := { Bindery.init with syncWave := kept .wave, syncLut := kept .lut, syncAdc := kept .adcseq }
  { t with
    bnd := b
    flt := { t.flt with head := if c = .por then [] else t.flt.head, active := [] }
    bst := { record := if c = .por then [] else t.bst.record, start := .notRead, run := none } }

/-- What a reset leaves of a BULK_WR in progress: each word is written, or is as it was (R124).  Which, is free. DESIGN
CHOICE (log entry 12). -/
def State.halfWritten (s : State) : State :=
  s.port.undo.foldl
    (fun t e => let u := t.spent; if Config.freeBool t.free then u else u.setMem (u.mem.restore e)) s

/-- A reset of class `c` starts (R112 to R121, R192, R558, R614): retention in its first tick; the wake sequence
begins unless something holds the device in reset.  The straps are those of the last POR, also where another cause
starts its reset again (R52, R117); FAULT_WDOG is that of the cause that starts it now. DESIGN CHOICE (log entry 32). -/
def State.startReset (s : State) (c0 : ResetClass) (wdog : Bool) : State :=
  let c := s.resetClass c0
  let inj := s.flt.mark
  let straps := s.reg R.SYS_STRAPS
  let cfgsel := if c0 = .por then 0 else F.SYS_STRAPS_CFGSEL.of straps
  let spi := decide (c0 ≠ .por) && F.SYS_STRAPS_SPIMODE.of straps == 1
  let t := (s.halfWritten.resetStores c).clearRuntime (.reset c) cfgsel spi
  let t := { t with
    pb := PBus.init
    agt := Agate.init
    port := Port.init (t.flag F.CP_MODE_SPI) false
    clk := t.clk.off }
  let t := t.setFld F.SYS_RESET_CAUSE_CLASS c.code
  let t := t.setFlag F.SYS_RESET_CAUSE_FAULT_WDOG (c == .fault && wdog)
  let t := t.setFlag F.SYS_RESET_CAUSE_FROM_DORMANT false
  let t := if inj then t.setFlag F.FLT_STATUS_INJ_RESET true else t
  let low := c0 == .por || c0 == .bor
  let t := t.setPwr { s.pwr with
    state := if s.pwr.inReset = some .por then .off else .waking
    safeWhy := .notSafe, from_ := .armed, kind := .reset c, toArmed := true, step := 0
    stepRunning := false, supplyWait := false, warn := s.pwr.warnReal || low, warnReal := s.pwr.warnReal || low
    hold := false, holdCount := false, rails := Rails.off, cp1Ok := false, cp2Ok := false, droop1 := none, droop2 := none
    mute := s.pwr.mute && c0 != .pin && c0 != .por }
  if t.pwr.held then t else t.beginWake 1

/-- A reset whose last holding condition has gone: the wake sequence begins. -/
def State.released (s : State) : State :=
  if (s.pwr.state = .waking ∨ s.pwr.state = .off) ∧ s.pwr.step = 0 ∧ s.pwr.supplyWait = false then
    let t := s.setPwr { s.pwr with state := if s.pwr.inReset = some .por then .off else .waking }
    if t.pwr.held then t else t.beginWake 1
  else s

/-- The straps sampled at the release of a POR, and the reset values that come from them (R52, R53). -/
def State.sampleStraps (s : State) (cfgsel : Nat) (spi : Bool) : State :=
  let t := (s.setFld F.SYS_STRAPS_CFGSEL cfgsel).setFlag F.SYS_STRAPS_SPIMODE spi
  let t := (t.setFlag F.CP_MODE_SPI spi).setFld F.PB_TGT_ADDR (0x2C + cfgsel)
  { t with port := { t.port with mode3 := spi } }

/-! ### Entries to the power states -/

/-- The port runs on SCLK, or on the RC oscillator; it changes over only between slots (R163). -/
def Port.clockTo (p : Port) (sclk : Bool) : Port := if p.inSlot then p else { p with onSclk := sclk }

/-- Entry to Standby (R88, R534, Table 03-4): class D cleared; transfers of the peripheral bus go on. -/
def State.enterStandby (s : State) : State :=
  let straps := s.reg R.SYS_STRAPS
  let t := s.finishSyncs.clearRuntime .standby (F.SYS_STRAPS_CFGSEL.of straps) (F.SYS_STRAPS_SPIMODE.of straps == 1)
  let t := { t with agt := Agate.init, pb := { t.pb with buffer := [] } }
  (t.setPwr { t.pwr with state := .standby, safeWhy := .notSafe }).railsDownTo 4

/-- Entry to Dormant (R89, R119, R174): every rail but the always-on domain off; classes B, C and D at defaults; the
response discarded, and with it the kept copy; the port leaves SCLK once no slot is open (R163, R175). DEDUCED (log
entry 19). -/
def State.enterDormant (s : State) : State :=
  let straps := s.reg R.SYS_STRAPS
  let spi := F.SYS_STRAPS_SPIMODE.of straps == 1
  let t := classC.foldl State.loseStore { s with bnd := Bindery.init }
  let t := t.clearRuntime .dormant (F.SYS_STRAPS_CFGSEL.of straps) spi
  let t := { t with
    pb := PBus.init, agt := Agate.init, clk := t.clk.off
    port := { (Port.init spi (s.port.inSlot && s.port.onSclk)) with inSlot := s.port.inSlot }
    bst := { t.bst with run := none }
    flt := { t.flt with active := [] } }
  (t.setPwr { t.pwr with
    state := .dormant, safeWhy := .notSafe, hold := false, holdCount := false, step := 0, stepRunning := false
    supplyWait := false, warn := t.pwr.warnReal }).railsDownTo 0

/-- WAKE_DONE (R621). -/
def State.wakeDone (s : State) : State :=
  if s.pwr.rails.vcore then s.raise 0x01 noUnit (s.reg R.SYS_RESET_CAUSE).toNat else s

/-- Entry to Safe (Table 03-3, R97, R471, R526, R558, R621): the units stop; the event log is emptied, but for the
BST_DONE entry of a start-up self-test (`keepLog`). -/
def State.enterSafe (s : State) (why : SafeWhy) (keepLog : Bool) : State :=
  let t := ((s.clearExposure.clearLanes).setReg R.AUX_INJ_DROPPED 0).setReg R.AUX_OVF_COUNT 0
  let t := { t with
    aux := Aux.init, agt := Agate.init, pb := PBus.init
    mem := t.mem.clearStore Store.slate
    flt := { t.flt with events := if keepLog then t.flt.events else [], pending := none }
    port := t.port.clockTo false }
  t.setPwr { t.pwr with state := .safe, safeWhy := why, stepRunning := false, supplyWait := false }

/-- The device reaches Safe at the finish stage, for a failing record: every rail stays on (R66, R93, R101). -/
def State.safeForRecord (s : State) (keepLog : Bool) : State :=
  ((s.setFld F.SYS_RESET_CAUSE_FAILS 0).enterSafe .recordFailed keepLog).wakeDone

/-- What reaching a state on VCORE does for the port, the failure count and the log (R101, R621). DEDUCED (log entry
31). -/
def State.wakeEnds (s : State) (st : PState) : State :=
  let t := s.setFld F.SYS_RESET_CAUSE_FAILS 0
  let t := { t with port := t.port.clockTo true }
  (t.setPwr { t.pwr with state := st, safeWhy := .notSafe, step := 0, stepRunning := false }).wakeDone

/-- The device reaches Armed from Waking (R87, R142, R323). -/
def State.reachArmed (s : State) : State :=
  let t := s.setClk s.clk.start
  (t.wakeEnds .armed).conversionArmed

/-- What the completion of wake step `n` switches on (Table 03-5); an injected pump fault holds its CP_OK at 0.
DESIGN CHOICE (log entry 32). -/
def State.stepEffect (s : State) (n : Nat) : State :=
  let p := s.pwr
  match n with
  | 3 => s.setPwr { p with rails := { p.rails with vcore := true, vref := true } }
  | 4 => s.setClk s.clk.lockBoot
  | 5 => s.setPwr { p with rails := { p.rails with vana := true } }
  | 6 => s.setPwr { p with rails := { p.rails with vpixh := true }, cp1Ok := !s.flt.active.contains 1, droop1 := none }
  | 7 => s.setPwr { p with rails := { p.rails with vneg := true }, cp2Ok := !s.flt.active.contains 2, droop2 := none }
  | 8 =>
    let t := s.setPwr { p with rails := { p.rails with vlane := true } }
    { t with lanes := { t.lanes with running := true } }
  | _ => s

/-- A wake step fails (R97, R98, R101); `step` names it for a WAKE_RETRY. LOCKED, RELOCKING and REF_PRESENT read on as
they were: no rule of chapter 04 names Safe. DESIGN CHOICE (log entry 29). -/
def State.wakeFail (s : State) (n : Nat) : State :=
  let fails := min 3 (s.fld F.SYS_RESET_CAUSE_FAILS + 1)
  let t := (s.setFlag F.SYS_RESET_CAUSE_WAKE_FAIL true).setFld F.SYS_RESET_CAUSE_FAIL_STEP n
  let t := t.setFld F.SYS_RESET_CAUSE_FAILS fails
  let t := if fails = 3 then t.setFlag F.SYS_RESET_CAUSE_LOCKOUT true else t
  let t := t.railsDownTo (n - 1)
  ((t.setPwr { t.pwr with mute := n == 1, step := n }).enterSafe
    (if t.flag F.SYS_RESET_CAUSE_LOCKOUT then .lockout else .wakeFailed) false).wakeDone

/-- A wake step starts; with injection 0x04 pending for it, it times out at once. While the warning is asserted none
starts (R95). -/
def State.startStep (s : State) (n : Nat) : State :=
  if s.injArg 0x04 = some n ∧ 5 ≤ n ∧ s.pwr.warn = false then s.injDone.injected fun t => t.wakeFail n
  else s.armStep n

/-- A wake from Standby or Dormant begins at step `n` (Table 03-4). -/
def State.wake (s : State) (kind : WakeKind) (toArmed : Bool) (n : Nat) : State :=
  let t := s.setPwr { s.pwr with from_ := s.pwr.state, state := .waking, kind := kind, toArmed := toArmed }
  let t := { t with port := t.port.clockTo false }
  let t := if kind = .dormant then t.setFlag F.SYS_RESET_CAUSE_FROM_DORMANT true else t
  if t.pwr.warn then t.setPwr { t.pwr with step := n, stepRunning := false, supplyWait := true } else t.startStep n

/-! ### Requests (R85, R86, R101) -/

/-- The status of a write of PWR_CTRL with REQ = `q`. In Standby a request for Standby is accepted also with a
transaction open: R85 takes it, R86 and R230 refuse requests for Standby. DESIGN CHOICE (log entry 32). -/
def State.reqCheck (s : State) (q : Nat) : Nat :=
  let busy := s.bnd.txn != .idle
  match s.pwr.state, q with
  | _, 0 => Status.ok
  | .armed, 1 => if busy then Status.state else Status.ok
  | .armed, 2 => Status.ok
  | .armed, _ => if busy then Status.state else Status.ok
  | .standby, 1 => Status.ok
  | .standby, 2 => Status.ok
  | .standby, _ => if busy then Status.state else Status.ok
  | .dormant, 3 => Status.ok
  | .dormant, _ => if s.flag F.SYS_RESET_CAUSE_LOCKOUT then Status.lockout else Status.ok
  | .waking, _ => Status.busy
  | _, _ => Status.state

/-- An accepted request. -/
def State.request (s : State) (q : Nat) : State :=
  match s.pwr.state, q with
  | .armed, 1 => s.enterStandby
  | .armed, 3 => s.enterDormant
  | .standby, 2 => s.wake .standby true 5
  | .standby, 3 => s.enterDormant
  | .dormant, 1 => s.wake .dormant false 2
  | .dormant, 2 => s.wake .dormant true 2
  | _, _ => s

end Sys2Proof.Machine
end

