-- ==== Sys2Proof/Machine/SelfTest.lean ====
section
/-! DEFINITION.
The self-test of chapter 18: test runs, their steps and checks on what the converters and the lanes give, the record,
and its validity.
-/
namespace Sys2Proof.Machine

/-- The state with the self-test replaced. -/
def State.setBst (s : State) (x : SelfTest) : State := { s with bst := x }

/-! ### What a member tests -/

/-- LBIST_MASK (Table 18-6). -/
def lbistMask : Part → Nat
  | .nl2612 => 0xFFFF | .nl2612s => 0xFD5F | .nl2606 => 0xCFFF | .nl2603 => 0xC55F | .nl2601 => 0xC55F

/-- A run at its start. -/
def TestRun.begin_ (k : TestKind) (wake : Nat) : TestRun :=
  { kind := k, step := 0, wake := wake, firstFail := none, notRun := none, vddMv := 0, temp := none, analogFail := 0
    lbistRun := 0, lbistFail := 0, firstSig := 0, colFail := 0, colFirst := 0, laneFail := 0, auxErr := 0, vref := 0
    vpixh := 0, vneg := 0, micros := 0, inj := false, attn := false }

/-- The step `k` has failed (R597); `mask` are its ANALOG_FAIL bits. -/
def TestRun.fail (r : TestRun) (k : Nat) (mask : Byte) : TestRun :=
  { r with firstFail := some (r.firstFail.getD k), analogFail := r.analogFail ||| mask }

/-- `r`, failed at step `k` where `b`. -/
def TestRun.failIf (r : TestRun) (b : Bool) (k : Nat) (mask : Byte) : TestRun := if b then r.fail k mask else r

/-! ### The record (Table 18-8) -/

/-- RESULT codes. -/
def TestRun.result (r : TestRun) : Nat :=
  if r.notRun.isSome then 3 else if r.firstFail.isSome then 2 else 1

/-- DETAIL. -/
def TestRun.detail (r : TestRun) : Nat := match r.notRun, r.firstFail with
  | some c, _ => c
  | none, some k => k
  | none, none => 0

/-- KIND codes. -/
def TestKind.code : TestKind → Nat
  | .shutdown => 1 | .bstRun => 2 | .startUp => 3

/-- The SILICON_REV bytes of the Colophon. -/
def siliconRev : List Byte := [BitVec.ofNat 8 Config.dieMajor.toNat, Config.dieMinor]

/-- RUN_COUNT of the next record. -/
def SelfTest.nextCount (b : SelfTest) : Nat :=
  if b.record = [] then 1 else (natBE ((b.record.drop 0x10).take 4) + 1) % 2 ^ 32

/-- The record of a run. -/
def State.recordOf (s : State) (r : TestRun) : List Byte :=
  let b := bytesBE 2 0xA75E ++ [1, BitVec.ofNat 8 r.result] ++ bytesBE 8 Config.uniqueId.toNat
    ++ bytesBE 2 s.part.code ++ siliconRev ++ bytesBE 4 s.bst.nextCount
    ++ [BitVec.ofNat 8 r.kind.code, BitVec.ofNat 8 r.detail] ++ bytesBE 2 r.vddMv
    ++ bytesBE 2 (match r.temp with | some t => unsigned 16 t | none => 0x8000)
    ++ [BitVec.ofNat 8 (if s.clk.boot then 0xFF else s.fld F.CLK_REFDIV_FREQ), r.analogFail]
    ++ bytesBE 2 r.lbistRun.toNat ++ bytesBE 2 r.lbistFail.toNat ++ bytesBE 4 r.firstSig.toNat
    ++ bytesBE 2 r.colFail ++ bytesBE 2 r.colFirst ++ bytesBE 2 r.laneFail ++ bytesBE 2 r.auxErr
    ++ bytesBE 2 r.vref ++ bytesBE 2 r.vpixh ++ bytesBE 2 r.vneg ++ bytesBE 4 r.micros ++ List.replicate 8 0
  b ++ bytesBE 2 (crc16 b).toNat

/-- Whether a record is valid on this die (R610). -/
def recordValid (p : Part) (r : List Byte) : Bool :=
  let res := (r.getD 3 0).toNat
  r.length == 64 && r.take 3 == [0xA7, 0x5E, 1] && natBE (r.drop 0x3E) == (crc16 (r.take 0x3E)).toNat
    && 1 ≤ res && res ≤ 3 && (r.drop 4).take 12 == bytesBE 8 Config.uniqueId.toNat ++ bytesBE 2 p.code ++ siliconRev

/-! ### Step 0 (R599, R600, Table 18-4) -/

/-- The temperature that step 0 uses, or the reason that it has none. -/
def State.testTemp (s : State) (k : TestKind) (m : Measured) : Except Nat Int :=
  if s.flag F.BST_CTRL_TD_EXT && k != .startUp then
    match s.tmp.valid, s.tmp.temp with
    | true, some t => .ok t
    | _, _ => .error 6
  else match m.diodeSum with
    | none => .error 7
    | some d =>
      let t := s.diodeT16 ((d : Rat) / 8)
      if t < -960 ∨ 2400 < t then .error 7 else .ok t

/-- The reasons for NOT_RUN that the limits give, lowest first. DESIGN CHOICE (log entry 28). -/
def State.limitReasons (s : State) (k : TestKind) (m : Measured) : List Nat :=
  let t := s.testTemp k m
  (if 6144 * 8 ≤ m.vddSum ∧ m.vddSum ≤ 12288 * 8 then [] else [1])
    ++ (match t with | .ok t => if 0 ≤ t ∧ t ≤ 1360 then [] else [2] | .error _ => [])
    ++ (if s.clk.locked && !s.gated && !m.freqOut then [] else [3])
    ++ (if s.pwr.warn then [4] else [])
    ++ (if s.clk.boot && k != .startUp then [5] else [])
    ++ (match t with | .error e => [e] | .ok _ => [])

/-! ### Steps 1 to 6 (R604, R607, R611) -/

/-- A value of 14 bits outside `lo` to `hi`, chosen by `f`: what an injected failure measures (the value is open). -/
def outside (lo hi f : Nat) : Nat :=
  let k := f % (16384 - (hi + 1 - lo))
  if k < lo then k else k + (hi + 1 - lo)

/-- LBIST: the signatures against the golden words; `bad` is the partition of an injection, `f` its open signature. -/
def TestRun.lbist (r : TestRun) (p : Part) (m : Measured) (bad : Option Nat) (f : Nat) : TestRun :=
  let sig (n : Nat) : BitVec 32 :=
    let x := m.signatures.getD n 0
    if bad = some n ∧ x = Config.golden n then x ^^^ BitVec.ofNat 32 (2 * f + 1) else x
  let run := (List.range 16).filter fun n => (lbistMask p).testBit n
  let failed := run.filter fun n => sig n ≠ Config.golden n
  let r := { r with
    lbistRun := BitVec.ofNat 16 (lbistMask p)
    lbistFail := BitVec.ofNat 16 (failed.foldl (fun a n => a + 2 ^ n) 0)
    firstSig := match failed with | n :: _ => sig n | [] => 0 }
  r.failIf (!failed.isEmpty) 1 0

/-- A number put into its place in a rising list. -/
def insertSorted (x : Nat) : List Nat → List Nat
  | [] => [x]
  | y :: ys => if x ≤ y then x :: y :: ys else y :: insertSorted x ys

/-- Twice the median of a list of codes. DESIGN CHOICE (log entry 28). -/
def median2 (v : List Nat) : Nat :=
  let w := v.foldr insertSorted []
  let n := w.length
  w.getD ((n - 1) / 2) 0 + w.getD (n / 2) 0

/-- Nominal code of a level. -/
def levelCode : Nat → Nat
  | 1 => 2048 | 2 => 8192 | _ => 14336

/-- Whether a converter's code fails the check. -/
def badCode (level med2 v : Nat) : Bool :=
  820 < ((v : Int) - levelCode level).natAbs || 128 < (2 * (v : Int) - med2).natAbs

/-- The failures of step 2 as (unit, level, bank, column), in that order; `inj` makes the first measurement fail. -/
def colFailures (p : Part) (m : Measured) (levels : List Nat) (inj : Bool) : List (Nat × Nat × Nat × Nat) :=
  ((List.range p.quires) ++ [12, 13]).flatMap fun u =>
    levels.flatMap fun l => [0, 1].flatMap fun b =>
      let v := m.columns.getD (6 * u + 2 * (l - 1) + b) []
      let med := median2 v
      let bad (e : Nat × Nat) : Bool :=
        badCode l med e.1 || (inj && u == 0 && some l == levels.head? && b == 0 && e.2 == 0)
      (v.zipIdx.filter bad).map fun (e : Nat × Nat) => (u, l, b, e.2)

/-- Column loop-back. DESIGN CHOICE (log entry 28). -/
def TestRun.columns (r : TestRun) (p : Part) (m : Measured) (inj : Bool) : TestRun :=
  let fs := colFailures p m (if r.kind = .startUp then [2] else [1, 2, 3]) inj
  let convs := (fs.map fun f => (f.1, f.2.2.1, f.2.2.2)).eraseDups
  let r := { r with
    colFail := convs.length
    colFirst := match fs with
      | (u, l, b, c) :: _ => u * 2 ^ 12 + l * 2 ^ 10 + b * 2 ^ 9 + c
      | [] => 0 }
  r.failIf (!fs.isEmpty) 2 1

/-- An average of 16 samples, or the open value of an injected failure. -/
def average (sum lo hi : Nat) (inj : Bool) (f : Nat) : Nat := if inj then outside lo hi f else sum / 16

/-- Reference cross-check. -/
def TestRun.references (r : TestRun) (m : Measured) (inj : Bool) (f : Nat) : TestRun :=
  let v := average m.vrefSum 8110 8274 inj f
  let core := m.vcoreSum / 16
  let ana := m.vanaSum / 16
  { r with vref := v }.failIf
    (!(8110 ≤ v && v ≤ 8274) || !(11919 ≤ core && core ≤ 12657) || !(9933 ≤ ana && ana ≤ 10547)) 3 2

/-- Charge-pump check. -/
def TestRun.pumps (r : TestRun) (m : Measured) (inj : Bool) (f : Nat) : TestRun :=
  let h := average m.vpixhSum 11257 11953 inj f
  let n := m.vnegSum / 16
  ({ r with vpixh := h, vneg := n }.failIf (!(11257 ≤ h && h ≤ 11953)) 4 4).failIf (!(9216 ≤ n && n ≤ 9898)) 4 8

/-- Lane loop-back. -/
def TestRun.lanes (r : TestRun) (p : Part) (m : Measured) (inj : Bool) : TestRun :=
  let e := m.laneErrors.toNat % 2 ^ p.quires
  let e := if inj && e % 2 == 0 then e + 1 else e
  { r with laneFail := e }.failIf (e != 0) 5 16

/-- Aux loop-back: an absent converter 1 and the interleave path are skipped (R33). -/
def TestRun.aux (r : TestRun) (p : Part) (m : Measured) (inj : Bool) (f : Nat) : TestRun :=
  let both := p.converters == 2
  let worst := ((if both then m.auxErrors else m.auxErrors.take 12).map Int.natAbs).foldl max 0
  let worst := if inj then max worst (49 + f % 16335) else worst
  { r with auxErr := min worst 0xFFFF }.failIf (48 < worst || both && m.auxPairs.any fun d => 16 < d.natAbs) 6 32

/-- A step's work done: the checks on what it measured.  Injections 0x19 and 0x1A act once, in the step they name.
DESIGN CHOICE (log entries 12 and 28). -/
def State.judgeStep (s : State) (r : TestRun) (m : Measured) : TestRun × State :=
  let p := s.part
  let f := (Config.freeNat s.free)
  let inj := decide (2 ≤ r.step) && s.injArg 0x1A == some r.step
  let lb := decide (r.step = 1) && (s.injArg 0x19).isSome
  let t := if inj || lb then s.spent.injDone else s
  let r := { r with micros := r.micros + m.micros, inj := r.inj || inj || lb }
  let out := match r.step with
    | 1 => r.lbist p m (if lb then s.injArg 0x19 else none) f
    | 2 => r.columns p m inj
    | 3 => r.references m inj f
    | 4 => r.pumps m inj f
    | 5 => r.lanes p m inj
    | 6 => r.aux p m inj f
    | _ => r
  (out, t)

/-- The step that follows (Table 18-2, R611). -/
def TestRun.next (r : TestRun) : Nat :=
  if r.kind = .startUp ∧ r.step = 2 then 5 else r.step + 1

/-! ### Starting and ending (R593 to R596, R601, R603, R609, R612) -/

/-- The class-A copy and BST_STATUS take a record (Table 18-13). -/
def State.keepRecord (s : State) (rec : List Byte) (source : Nat) (ee : Bool) : State :=
  let t := s.setBst { s.bst with record := rec }
  let t := (t.setFld F.BST_STATUS_RESULT (rec.getD 3 0).toNat).setFld F.BST_STATUS_DETAIL (rec.getD 0x15 0).toNat
  (t.setFld F.BST_STATUS_SOURCE source).setFlag F.BST_STATUS_EE_OK ee

/-- Step 7 begins: class D is cleared as at entry to Standby, but for an injection that waits (R631); the record goes
to the class-A copy, and for a shut-down test or BST_RUN to the EEPROM. -/
def State.finishTest (s : State) (r : TestRun) : State :=
  let straps := s.reg R.SYS_STRAPS
  let t := s.clearRuntime .standby (F.SYS_STRAPS_CFGSEL.of straps) (F.SYS_STRAPS_SPIMODE.of straps == 1)
  let t := { t with
    lanes := { t.lanes with running := s.lanes.running }, flt := { t.flt with pending := s.flt.pending } }
  let t := t.setBst { t.bst with run := some { r with step := 7, wake := 0 } }
  let t := t.keepRecord (t.recordOf r) (if r.kind = .startUp then 3 else 2) false
  let t := (t.setFlag F.BST_STATUS_DONE true).injectedIf r.inj fun u => u.raise 0x50 noUnit (256 * r.result + r.detail)
  if r.kind = .startUp then t else t.startOwn (.page 0)

/-- A run ends as NOT_RUN; the steps not yet run are skipped (R599).  In step 0 with the invalidation on the bus, it
waits for its end. DESIGN CHOICE (log entry 28). -/
def State.notRun (s : State) (r : TestRun) (reason : Nat) : State :=
  let r := { r with notRun := some (r.notRun.getD reason) }
  if r.step = 0 ∧ s.pb.own = true then s.setBst { s.bst with run := some r } else s.finishTest r

/-- What an event of the During column does to a run (Table 18-4). -/
def State.testEvent (s : State) (reason : Nat) : State :=
  match s.bst.run with
  | some r => if 7 ≤ r.step ∨ (r.step = 0 ∧ s.pb.own = false) then s else s.notRun r reason
  | none => s

/-- The invalidation has ended: a run that is NOT_RUN goes to step 7. DEDUCED (log entry 39). -/
def State.afterBus (s : State) : State :=
  match s.bst.run with
  | some r => if r.step = 1 ∧ r.notRun.isSome then s.finishTest r else s
  | none => s

/-- The aux sequences stop; requests that wait are dropped and counted (R472). -/
def State.stopAux (s : State) : State :=
  let waiting := (List.range 4).filter fun i => (s.slotData (16 + i)).request.waits
  let t := waiting.foldl (fun t i => (t.setRequest i .idle).dropRequest i) s
  t.setAux { t.aux with round := none, regular := none, injected := [], late := false }

/-- A shut-down test or a BST_RUN begins (R595, R601). -/
def State.startTest (s : State) (k : TestKind) : State :=
  let wake := if s.pwr.state = .standby then 5 else 0
  let t := s.haltForTest.stopAux
  (t.setPwr { t.pwr with from_ := t.pwr.state, state := .testing }).setBst
    { t.bst with run := some (TestRun.begin_ k wake) }

/-- A command accepted in Safe after a failing record moves the device to Armed in its own tick (R593). -/
def State.leaveSafe (s : State) : State :=
  let t := { s with
    clk := s.clk.start, port := s.port.clockTo true, lanes := { s.lanes with running := true } }
  (t.setPwr { t.pwr with state := .armed, safeWhy := .notSafe }).conversionArmed

/-- The run ends (R612). DESIGN CHOICE (log entry 28). -/
def State.endTest (s : State) (r : TestRun) : State :=
  let t := s.setBst { s.bst with run := none }
  let t := { t with agt := Agate.init }
  match r.kind with
  | .shutdown => t.enterDormant
  | .bstRun =>
    if r.result = 2 then t.enterSafe .recordFailed false
    else ((t.setClk t.clk.start).setPwr { t.pwr with state := .armed, safeWhy := .notSafe }).conversionArmed
  | .startUp => if r.result = 2 then t.safeForRecord true else t.reachArmed

/-- A step of the run ends (R596): step 0 measures its limits and starts the invalidation; steps 1 to 6 are judged;
step 7 ends the run once its transfers have ended. DESIGN CHOICE (log entry 28). -/
def State.testStep (s : State) (m : Measured) : State :=
  match s.bst.run with
  | none => s
  | some r =>
    if r.step = 0 then
      if r.wake ≠ 0 ∨ s.pb.own then s
      else
        let temp := match s.testTemp r.kind m with
          | .ok t => some t
          | .error _ => none
        let r := { r with
          vddMv := (roundDiv (m.vddSum * 4800) (16384 * 8)).toNat, temp := temp, micros := r.micros + m.micros }
        match s.limitReasons r.kind m with
        | c :: _ => s.notRun r c
        | [] =>
          if r.kind = .startUp then (s.setBst { s.bst with run := some r }).beginLbist
          else (s.setBst { s.bst with run := some r }).startOwn .invalidate
    else if r.step = 7 then (if s.pb.own then s else s.endTest r)
    else if m.freqOut then s.notRun r 3
    else
      let j := s.judgeStep r m
      let next := j.1.next
      if 7 ≤ next then j.2.finishTest j.1 else j.2.setBst { j.2.bst with run := some { j.1 with step := next } }

/-- A wake step of the bring-up in step 0 completes (R598). -/
def State.testWakeDone (s : State) (r : TestRun) : State :=
  let t := s.stepEffect r.wake
  t.setBst { t.bst with run := some { r with wake := if r.wake = 8 then 0 else r.wake + 1 } }

/-- A wake step of the bring-up times out (R598): FAIL with FIRST_FAIL = 0. -/
def State.testWakeFail (s : State) (r : TestRun) : State :=
  (s.railsDownTo (r.wake - 1)).finishTest (r.fail 0 64)

/-- The live bits of BST_STATUS (Table 18-13). -/
def State.bstLive (s : State) : Nat := match s.bst.run with
  | some r => 2 ^ 12 * (r.step + 1)
  | none => 0

end Sys2Proof.Machine
end

