-- ==== Sys2Proof/Machine/Colophon.lean ====
section
/-! DEFINITION.
The Colophon (chapter 01): its bytes, and the shadow that every reset loads from the fuses and checks (R23, R34).
-/
namespace Sys2Proof.Machine

/-! ### The Colophon (Tables 01-8 to 01-12) -/

/-- Spare rows that macro `m` uses. DESIGN CHOICE (log entry 11). -/
def spares (p : Part) (m : Nat) : Nat := if p.full then (Config.sparesUsed m).toNat % 9 else 0

/-- Spare rows used in all. -/
def sparesTotal (p : Part) : Nat := ((List.range 18).map (spares p)).foldl (· + ·) 0

/-- TRIM_FLAGS of a shipped die. DESIGN CHOICE (log entry 11). -/
def trimFlags : Nat := 0x1F

/-- The bytes of the Colophon before its CRC. -/
def colophonBody (p : Part) : List Byte :=
  let slate (n : Nat) : Nat := if p.full then n else 0
  bytesBE 1 1 ++ bytesBE 1 0 ++ bytesBE 2 0x100 ++ p.name ++ bytesBE 2 p.code ++ siliconRev
    ++ bytesBE 1 p.quires ++ bytesBE 1 p.quires ++ bytesBE 2 p.present ++ bytesBE 2 p.pages ++ bytesBE 2 p.macroKibit
    ++ bytesBE 1 (slate 18) ++ bytesBE 1 p.engines ++ bytesBE 1 p.converters ++ bytesBE 1 8
    ++ bytesBE 8 Config.uniqueId.toNat ++ bytesBE 1 1 ++ bytesBE 1 trimFlags ++ bytesBE 2 (sparesTotal p)
    ++ ((List.range 18).map fun m => BitVec.ofNat 8 (spares p m)) ++ bytesBE 2 (lbistMask p)
    ++ ((List.range 16).flatMap fun n =>
      bytesBE 4 (if (lbistMask p).testBit n then (Config.golden n).toNat else 0))
    ++ List.replicate 126 0

/-- The 256 bytes of the Colophon. -/
def colophon (p : Part) : List Byte := colophonBody p ++ bytesBE 2 (crc16 (colophonBody p)).toNat

/-- The Colophon shadow as loaded from the die's fuses (R23, R34). -/
def State.shadow (s : State) : List Byte :=
  if s.fuses = [] then colophon s.part
  else (colophon s.part).zipIdx.map fun e => e.1 ^^^ Cells.get 0 s.fuses e.2

/-- The shadow's CRC-16 matches (R34). -/
def State.shadowOk (s : State) : Bool :=
  decide (s.fuses = []) || (crc16 (s.shadow.take 254)).toNat == natBE (s.shadow.drop 254)

end Sys2Proof.Machine
end

