-- ==== Sys2Proof/Machine/Wake.lean ====
section
/-! DEFINITION.
The wake sequence as its events come (chapters 03 and 18): supplies, steps, the finish stage with its record decision,
retries, and REFCLK losses as they meet a wake or a test run.
-/
namespace Sys2Proof.Machine

/-! ### Supplies and RESET_N (R92, R103 to R105, R107, R111 to R113) -/

/-- VDD falls below 1.00 V. -/
def State.por (s : State) : State :=
  ({ s with pwr := { s.pwr with inReset := some .por } }).startReset .por false

/-- VDD rises above 1.05 V: the straps are sampled, and the device waits for the warning level. -/
def State.porRelease (s : State) (cfgsel : Nat) (spi : Bool) : State :=
  if s.pwr.inReset = some .por then
    ((s.setPwr { s.pwr with inReset := none }).sampleStraps cfgsel spi).released
  else s

/-- VDD has been below the brown-out threshold for 1 µs; a POR in force outranks it. -/
def State.bor (s : State) : State :=
  if s.pwr.inReset = some .por then s
  else (s.setPwr { s.pwr with inReset := some .bor }).startReset .bor false

/-- VDD has been above 1.60 V for 1 µs. -/
def State.borRelease (s : State) : State :=
  if s.pwr.inReset = some .bor then (s.setPwr { s.pwr with inReset := none }).released else s

/-- RESET_N has been low for 1 µs. -/
def State.pinReset (s : State) : State :=
  if s.pwr.resetLow then s else (s.setPwr { s.pwr with resetLow := true }).startReset .pin false

/-- RESET_N returns high. -/
def State.resetNRelease (s : State) : State :=
  if s.pwr.resetLow then (s.setPwr { s.pwr with resetLow := false }).released else s

/-- The supply asserts the warning (R103); a test run ends as NOT_RUN (Table 18-4). -/
def State.supplyWarn (s : State) : State :=
  ((s.setPwr { s.pwr with warnReal := true }).assertWarn).testEvent 4

/-- A wake that waits for the supply begins, or a pause between steps ends (R92, R95). -/
def State.resumeWake (s : State) : State :=
  if s.pwr.state ≠ .waking ∨ s.pwr.held = true ∨ s.pwr.warn = true then s
  else if s.pwr.supplyWait then
    let t := s.setPwr { s.pwr with supplyWait := false }
    t.startStep (max 1 t.pwr.step)
  else if s.pwr.step ≠ 0 ∧ s.pwr.stepRunning = false ∧ s.bst.run = none then
    s.startStep s.pwr.step
  else s

/-- VDD has been above the level plus 20 mV for 1 µs (R104); an injected warning stays. -/
def State.supplyReturns (s : State) : State :=
  let t := s.setPwr { s.pwr with warnReal := false }
  (if t.flt.active.contains 0 then t else t.deassertWarn).resumeWake

/-- The wait for the supply before the first step ends (R92). -/
def State.supplyWaitEnd (s : State) : State :=
  if s.pwr.supplyWait && !s.pwr.held then
    (s.setPwr { s.pwr with warn := false, warnReal := false }).resumeWake
  else s

/-! ### The head's entries and the LOG store (R623) -/

/-- The head entries without their mark are appended to the LOG store in SEQ order, and marked. DEDUCED (log entry
31). -/
def State.copyHead (s : State) : State :=
  let n := s.fld F.FLT_STATUS_COUNT
  (List.range n).foldl
    (fun t k =>
      let seq := (s.fld F.FLT_STATUS_SEQ + 257 + k - n) % 256
      match Cells.get none t.flt.head (seq % 8) with
      | some e =>
        if e.copied then t
        else
          let u := t.appendLog e
          { u with flt := { u.flt with head := Cells.set none u.flt.head (seq % 8) (some { e with copied := true }) } }
      | none => t)
    s

/-! ### The finish stage (R93, R610, R683) -/

/-- The finish stage decides on a record: reached, Safe, or the start-up self-test. -/
def State.decideRecord (s : State) (r : List Byte) : State :=
  if recordValid s.part r ∧ (r.getD 3 0).toNat = 1 then s.reachArmed
  else if recordValid s.part r ∧ (r.getD 3 0).toNat = 2 then s.safeForRecord false
  else s.setBst { s.bst with run := some (TestRun.begin_ .startUp 0) }

/-- The finish stage's work; an uncorrectable word found by a bank sync leaves it to the FAULT reset. -/
def State.finishStage (s : State) : State :=
  if s.pwr.state ≠ .waking ∨ s.pwr.step ≠ 9 ∨ s.pwr.stepRunning = false ∨ s.bst.run.isSome = true then s
  else if s.pwr.kind = .reset .por ∧ s.bst.start = .notRead then s
  else
    let t := s.finishSyncs.copyHead
    if t.mem.failing ≠ [] then t
    else match t.pwr.kind with
      | .reset .fault => t.decideRecord []
      | .reset .por =>
        match t.bst.start with
        | .got r => (if recordValid t.part r then t.keepRecord r 1 true else t).decideRecord r
        | _ => t.decideRecord []
      | _ => t.decideRecord t.bst.record

/-- The start-up read of the record has ended (R553, R554). -/
def State.startRead (s : State) (out : RecordRead) : State :=
  if s.pwr.state ≠ .waking ∨ s.pwr.kind ≠ .reset .por ∨ s.pwr.step < 4 ∨ s.bst.start ≠ .notRead then s
  else match out with
    | .complete d n =>
      let t := (s.countBy F.PB_ERR_ARB_LOSSES (min n 255)).setFld F.PB_STATUS_ERR 0
      t.setBst { t.bst with start := .got d }
    | .failed c n =>
      let t := (s.countBy F.PB_ERR_ARB_LOSSES (min n 255)).setFld F.PB_STATUS_ERR c.val
      let t := if c.val = 1 ∨ c.val = 2 then t.count F.PB_ERR_NACKS else t
      let t := if c.val = 6 then t.setFlag F.PB_STATUS_STUCK true else t
      t.setBst { t.bst with start := .missing }

/-! ### Steps (R90, R97, R101, R598) -/

/-- Step `n` is step 2 and fails: the shadow's CRC mismatches, or an injected failure is pending (R34, Table 19-6,
0x05). -/
def State.colophonFails (s : State) (n : Nat) : Bool := n == 2 && ((s.injArg 0x05).isSome || !s.shadowOk)

/-- Step 2 fails for the Colophon (R34). -/
def State.colophonFail (s : State) : State :=
  let inj := (s.injArg 0x05).isSome
  (if inj then s.injDone else s).injectedIf inj fun u => u.wakeFail 2

/-- Wake step `n` has met its completion condition. -/
def State.completeStep (s : State) (n : Nat) : State :=
  let reset := match s.pwr.kind with
    | .reset _ => true
    | _ => false
  let t := s.stepEffect n
  if s.colophonFails n then s.colophonFail
  else if n = 2 ∧ reset = true ∧ t.flag F.SYS_RESET_CAUSE_LOCKOUT = true then (t.enterSafe .lockout false).wakeDone
  else if n = 4 ∧ t.pwr.toArmed = false then t.copyHead.wakeEnds .standby
  else if n = 8 then (if t.pwr.kind = .standby then t.reachArmed else t.armStep 9)
  else t.startStep (n + 1)

/-- The wake step in progress, where one runs. -/
def State.wakeStep (s : State) : Option Nat :=
  if s.pwr.state = .waking ∧ s.pwr.stepRunning = true ∧ 1 ≤ s.pwr.step ∧ s.pwr.step ≤ 8 then some s.pwr.step else none

/-- The run whose bring-up is in progress, where one is. -/
def State.bringUp (s : State) : Option TestRun :=
  if s.pwr.state = .testing then s.bst.run.filter fun r => r.wake != 0 else none

/-- The wake step in progress completes. -/
def State.stepCompletes (s : State) : State :=
  match s.wakeStep, s.bringUp with
  | some n, _ => s.completeStep n
  | none, some r => s.testWakeDone r
  | none, none => s

/-- The wake step in progress reaches its timeout. -/
def State.stepTimesOut (s : State) : State :=
  match s.wakeStep, s.bringUp with
  | some n, _ => if s.colophonFails n then s.colophonFail else s.wakeFail n
  | none, some r => s.testWakeFail r
  | none, none => s

/-! ### WAKE_RETRY (R100, Table 03-6) -/

/-- PWR_WAKE_TMO as stored by a write: neither timeout is 0 (Table 03-18). -/
def wakeTmoStored (w : Nat) : Nat := 256 * max 1 (w / 256 % 256) + max 1 (w % 256)

/-- An accepted WAKE_RETRY: the sequence restarts at the failed step. DESIGN CHOICE (log entry 32). -/
def State.retryWake (s : State) (tmo : Option Nat) : State :=
  let t := match tmo with
    | some w => s.setReg R.PWR_WAKE_TMO (BitVec.ofNat 16 (wakeTmoStored w))
    | none => s
  let n := t.pwr.step
  let t := t.setPwr { t.pwr with from_ := .safe, state := .waking, safeWhy := .notSafe }
  if t.pwr.warn then t.setPwr { t.pwr with stepRunning := false, supplyWait := true } else t.startStep n

/-! ### REFCLK losses (R148, R153, R599, R611) -/

/-- A REFCLK loss: outside a wake it changes no power state (R130); once step 4 has completed it is a wake failure at
step 4; a test run ends as NOT_RUN. -/
def State.refclkLoss (s : State) (cause : Nat) : State :=
  let t := s.declareLoss cause
  if s.clk.locked = false ∧ s.clk.relocking = false then s
  else match t.pwr.state with
    | .waking => if s.pllOn && 5 ≤ t.pwr.step then (if t.bst.run.isSome then t.testEvent 3 else t.wakeFail 4) else t
    | .testing => t.testEvent 3
    | _ => t

/-! ### Requests of the self-test (R593, R594) -/

/-- The status of SHUTDOWN where the port executes it (Tables 03-6 and 18-2). -/
def State.shutdownCheck (s : State) : Nat :=
  match s.pwr.state with
  | .safe => Status.ok
  | .armed | .standby => if s.clk.relocking || s.bnd.txn != .idle then Status.state else Status.ok
  | _ => Status.state

/-- An accepted SHUTDOWN: the shut-down test, or straight to Dormant (R102). DEDUCED (log entry 19). -/
def State.shutdown (s : State) : State :=
  match s.pwr.state, s.pwr.safeWhy with
  | .safe, .recordFailed => s.leaveSafe.startTest .shutdown
  | .safe, _ => s.enterDormant
  | _, _ => s.startTest .shutdown

/-- The status of BST_RUN where the port executes it. -/
def State.bstRunCheck (s : State) : Nat :=
  match s.pwr.state with
  | .safe => match s.pwr.safeWhy with
    | .lockout => Status.lockout
    | .recordFailed => Status.ok
    | _ => Status.state
  | .armed => if s.clk.relocking || s.bnd.txn != .idle then Status.state else Status.ok
  | _ => Status.state

/-- An accepted BST_RUN. -/
def State.bstRun (s : State) : State :=
  if s.pwr.state = .safe then s.leaveSafe.startTest .bstRun else s.startTest .bstRun

/-- The status of WAKE_RETRY in Safe (Table 03-6). -/
def State.retryCheck (s : State) : Nat :=
  match s.pwr.state, s.pwr.safeWhy with
  | .safe, .wakeFailed => Status.ok
  | .safe, .lockout => Status.lockout
  | _, _ => Status.state

end Sys2Proof.Machine
end

