-- ==== Sys2Proof/Machine/Inject.lean ====
section
/-! DEFINITION.
Injections (R627 to R640), the watchdog's expiry, and ATTN_N with its causes (R190, R625, R626).
-/
namespace Sys2Proof.Machine

/-- The state with the fault unit replaced. -/
def State.setFlt (s : State) (x : Faults) : State := { s with flt := x }

/-! ### The Bindery watchdog (R224 to R226) -/

/-- A watchdog period can end: enabled, and not paused. -/
def State.wdogRuns (s : State) : Bool := s.flag F.BND_WDOG_EN && s.up

/-- A period ends without a kick: the WATCHDOG entry, then the FAULT reset. DEDUCED (log entry 25). -/
def State.wdogExpiry (s : State) : State :=
  if s.wdogRuns then
    (s.logFault kindWatchdog 0 Reader.internal.code false 0 (s.fld F.BND_WDOG_PERIOD)).startReset .fault true
  else s

/-! ### The checks of a fire (R628, R630, Table 19-6) -/

/-- Whether Table 19-6 assigns DET and `arg` lies in its range. DESIGN CHOICE (log entry 40). -/
def injRange (det arg : Nat) : Bool :=
  match det with
  | 0x00 => 1 ≤ arg
  | 0x01 => 1 ≤ arg
  | 0x02 => 1 ≤ arg
  | 0x04 => 5 ≤ arg && arg ≤ 8
  | 0x06 => 1 ≤ arg && arg ≤ 2
  | 0x0A => arg ≤ 17
  | 0x0E => arg ≤ 7
  | 0x10 => arg ≤ 3
  | 0x11 => true
  | 0x15 => arg ≤ 11
  | 0x16 => arg % 32 != 0 && bits arg 7 5 == 0 && arg / 1024 == 0
  | 0x17 => arg ≤ 1
  | 0x19 => arg ≤ 15
  | 0x1A => 2 ≤ arg && arg ≤ 6
  | _ => det < 0x1B && arg == 0

/-- Whether the fire names an absent unit (R38). DESIGN CHOICE (log entry 40). -/
def injAbsent (p : Part) (det arg : Nat) : Bool :=
  match det with
  | 0x0A => !p.full
  | 0x15 => decide (p.quires ≤ arg)
  | 0x16 => decide (p.engines ≤ bits arg 9 8)
  | 0x19 => !(lbistMask p).testBit arg
  | _ => false

/-- The States column, with the preconditions that it and the Acts column give. DESIGN CHOICE (log entry 40). -/
def State.injState (s : State) (det : Nat) : Bool :=
  match det with
  | 0x00 | 0x03 | 0x05 | 0x0D | 0x17 | 0x18 | 0x19 | 0x1A => s.up
  | 0x04 => s.pwr.state == .standby
  | 0x0B => s.up && s.flag F.BND_WDOG_EN
  | 0x0C => s.up && s.bnd.txn == .open_
  | 0x14 | 0x15 => s.pwr.state == .streaming
  | _ => s.analog

/-- The status of a fire. DESIGN CHOICE (log entry 40). -/
def State.fireCheck (s : State) (det arg : Nat) : Nat :=
  if !injRange det arg then Status.range
  else if injAbsent s.part det arg then Status.ok
  else if !s.injState det || s.flt.pending.isSome then Status.state
  else Status.ok

/-! ### What a fire does -/

/-- Detectors whose injection waits for its next occasion (R631); 0x05 waits for step 2 of its own reset. -/
def injWaits (det : Nat) : Bool :=
  det == 0x04 || det == 0x07 || det == 0x08 || det == 0x09 || (0x0D ≤ det && det ≤ 0x11)
    || (0x13 ≤ det && det ≤ 0x15) || (0x17 ≤ det && det ≤ 0x1A)

/-- A condition of a duration is in force. -/
def State.injHolds (s : State) (det : Nat) : State :=
  s.setFlt { s.flt with active := s.flt.active.filter (· != det) ++ [det] }

/-- The effect of an accepted injection in the next tick, or its waiting for its occasion. DESIGN CHOICE (log entries
12 and 40). -/
def State.injectNow (s : State) (det arg : Nat) : State :=
  match det with
  | 0x00 => (s.injHolds 0).injected State.assertWarn
  | 0x01 => (s.injHolds 1).injected fun t => t.droop false false
  | 0x02 => (s.injHolds 2).injected fun t => t.droop true false
  | 0x03 => s.injected fun t => t.startReset .bor false
  | 0x05 =>
    let t := s.injected fun t => t.startReset .soft false
    t.setFlt { t.flt with pending := some (5, 0) }
  | 0x06 => s.injected fun t => t.refclkLoss arg
  | 0x0A => s.spent.injected fun t => t.declareMacro arg Reader.internal.code (Config.freeNat s.free)
  | 0x0B => s.injected State.wdogExpiry
  | 0x0C => s.injected State.txnTimeout
  | 0x12 => s.injected State.staleNow
  | 0x16 => s.injected fun t => t.sticky (bits arg 9 8) (arg % 32)
  | _ => if injWaits det then s.setFlt { s.flt with pending := some (det, arg) } else s

/-- A flag that hardware has set in this tick. -/
def State.freshFlag (s : State) (f : Field) (i : Nat := 0) : Bool := f.of (s.freshBits f.addr i) != 0

/-- The condition of a detector has really occurred in this tick (R632): the flag that it sets is new in this tick.
DEDUCED (log entry 40). -/
def State.realNow (s : State) (det arg : Nat) : Bool :=
  match det with
  | 0x00 => s.pwr.warnReal && s.freshFlag F.PWR_STATUS_WARN_LATCH
  | 0x01 => s.pwr.droop1 == some s.clk.now
  | 0x02 => s.pwr.droop2 == some s.clk.now
  | 0x06 => s.freshFlag F.CLK_STATUS_LOST
  | 0x07 => s.freshFlag F.POS_STATUS_HOLD_LATCH
  | 0x08 => s.freshFlag F.POS_STATUS_QERR
  | 0x09 => s.freshFlag F.POS_STATUS_ZMISS
  | 0x0A => s.mem.declared.contains arg && s.freshFlag F.MEM_STATUS_MACRO
  | 0x0E => (F.AUX_OW_STAT_OPEN_LATCH.of (s.freshBits R.AUX_OW_STAT)).testBit arg
  | 0x0F => s.freshFlag F.AUX_STATUS_QOVF
  | 0x12 => s.freshFlag F.TMP_STATUS_STALE_LATCH
  | 0x13 => s.freshFlag F.CNV_STATUS_BLK_STEP
  | 0x14 => s.freshFlag F.EXP_CTRL_OVERRUN
  | 0x18 => s.freshFlag F.PB_STATUS_STUCK
  | _ => false

/-- A fire of injection `det` with argument `arg`: its status and what it does. DESIGN CHOICE (log entry 40). -/
def State.fire (s : State) (det arg : Nat) : Nat × State :=
  let c := s.fireCheck det arg
  if c ≠ Status.ok then (c, s.setFlag F.INJ_STATUS_REFUSED true)
  else if injAbsent s.part det arg || s.realNow det arg then (Status.ok, s)
  else
    let t := (s.setFld F.INJ_STATUS_LAST det).injected fun u => u.raise 0x70 det arg
    (Status.ok, t.injectNow det arg)

/-- The duration of an injected warning or pump fault ends (Table 19-6). DESIGN CHOICE (log entry 32). -/
def State.injEnd (s : State) (det : Nat) : State :=
  if s.flt.active.contains det then
    let t := s.setFlt { s.flt with active := s.flt.active.filter (· != det) }
    match det with
    | 0 => if t.pwr.warnReal then t else t.deassertWarn.resumeWake
    | 1 => t.setPwr { t.pwr with cp1Ok := t.pwr.rails.vpixh && t.pwr.droop1.isNone }
    | _ => t.setPwr { t.pwr with cp2Ok := t.pwr.rails.vneg && t.pwr.droop2.isNone }
  else s

/-- A pump leaves regulation by itself: an injected fault of it is no longer what holds its flag. -/
def State.realDroop (s : State) (second : Bool) : State :=
  let t := s.droop second true
  t.setFlt { t.flt with active := t.flt.active.filter (· != if second then 2 else 1) }

/-! ### ATTN_N (R190, R625, R626, Table 19-5) -/

/-- The levels of the ATTN_N land: low, or Z. -/
inductive Attn where
  | low | z
  deriving DecidableEq, Repr

/-- ATTN_N in a power state, or in the state left by a wake or a test (R625, R684, Table 02-4). -/
def State.attnIn (s : State) (st : PState) : Attn :=
  match st with
  | .standby | .armed | .streaming => if s.attnPending true then .low else .z
  | .safe => .low
  | _ => .z

/-- ATTN_N; the test of partition 2 holds its level (R602). DESIGN CHOICE (log entry 43). -/
def State.attnN (s : State) : Attn :=
  match s.pwr.state, s.pwr.kind with
  | .waking, .reset _ => if s.pwr.from_ = .safe then .low else .z
  | .waking, _ => s.attnIn s.pwr.from_
  | .testing, _ =>
    if s.partition = some 2 then (if s.bst.run.any TestRun.attn then .low else .z) else s.attnIn s.pwr.from_
  | st, _ => s.attnIn st

end Sys2Proof.Machine
end

