-- ==== Sys2Proof/Machine/RegRead.lean ====
section
/-! DEFINITION.
Reading registers: legacy aliases (R672), unit-select windows (R199), what a register shows, the side effects of a
read (R202, R203), and the view while VCORE is off (R99, R194).
-/
namespace Sys2Proof.Machine

/-! ### Legacy aliases (Table 22-3) -/

/-- A legacy address: the register it reaches, the legacy bits that it has, how far they lie below the field's. -/
structure Alias where
  addr : Nat
  mask : Word
  shift : Nat
  deriving DecidableEq, Repr

/-- The alias at an address. -/
def aliasAt (a : Nat) : Option Alias :=
  match a with
  | 0x02 => some ⟨R.EXP_CTRL, 0x0001, 0⟩
  | 0x03 => some ⟨R.EXP_MODE, 0x0003, 0⟩
  | 0x04 => some ⟨R.EXP_TIME_HI, 0xFFFF, 0⟩
  | 0x05 => some ⟨R.EXP_TIME_LO, 0xFFFF, 0⟩
  | 0x06 => some ⟨R.EXP_PERIOD, 0xFFFF, 0⟩
  | 0x07 => some ⟨R.EXP_SCHED, 0x003F, 0⟩
  | 0x0A => some ⟨R.QR_ROW_START, 0xFFFF, 0⟩
  | 0x0B => some ⟨R.QR_ROW_COUNT, 0xFFFF, 0⟩
  | 0x0C => some ⟨R.QR_MODE, 0x007F, 0⟩
  | 0x0D => some ⟨R.QR_MODE, 0x001F, 7⟩
  | 0x0E => some ⟨R.CNV_MODE, 0x001F, 0⟩
  | 0x0F => some ⟨R.CNV_CORR, 0x003F, 0⟩
  | 0x10 => some ⟨R.CNV_BLK_CTRL, 0xFFFF, 0⟩
  | 0x11 => some ⟨R.CNV_HDR, 0xFFFF, 0⟩
  | 0x12 => some ⟨R.LN_MODE, 0x0003, 0⟩
  | 0x13 => some ⟨R.EXP_CTRL, 0x00FC, 0⟩
  | 0x14 => some ⟨R.EXP_DROPPED, 0xFFFF, 0⟩
  | 0x15 => some ⟨R.CLK_REFDIV, 0x003F, 0⟩
  | _ => none

/-- The bits of the aliased register, as the legacy address shows them. -/
def Alias.show (x : Alias) (w : Word) : Word := (w >>> x.shift) &&& x.mask

/-- Legacy bits, as the aliased register holds them. DEDUCED (log entry 22). -/
def Alias.place (x : Alias) (w : Word) : Word := (w &&& x.mask) <<< x.shift

/-! ### Windows (R199, Table 06-3) -/

/-- The instance of the register at an address that the unit-select registers name. -/
def State.selected (s : State) (a : Nat) : Nat :=
  if a = R.QR_COL_START ∨ a = R.QR_COL_COUNT ∨ a = R.QR_STATUS then s.fld F.QR_SEL_QUIRE
  else if 0xA2 ≤ a ∧ a ≤ 0xA8 then s.fld F.SPN_SEL_CNT
  else if 0xA9 ≤ a ∧ a ≤ 0xAE then s.fld F.SPN_SEL_CMP
  else if a = R.SPN_K_DATA then s.fld F.SPN_SEL_CAP
  else if a = R.TMP_BAND ∨ a = R.TMP_BLK then s.fld F.TMP_SEL_BAND
  else if 0xD1 ≤ a ∧ a ≤ 0xD9 then s.fld F.AGT_SEL_ENGINE
  else if a = R.MEM_SCRUB_RATE then s.fld F.MEM_SEL_BAND
  else if a = R.SLT_RETIRE then s.fld F.MEM_SEL_RGRP
  else 0

/-! ### What registers show -/

/-- SYS_REV (Table 01-6). -/
def sysRev (p : Part) : Nat := 4096 * p.variant + 256 * Config.dieMajor.toNat + Config.dieMinor.toNat

/-- RESP_PREP and RESP_PEND: as they are through the target, 0 through the port that answers (Table 05-14). -/
def State.portLive (s : State) (route : Route) : Nat :=
  match route, s.port.resp with
  | .port, _ => 0
  | .target, .empty => 0
  | .target, .prep _ _ => 2
  | .target, .pend _ => 1

/-- SPN_K_DATA by part (Table 11-19). -/
def Capture.part (c : Capture) (k : Nat) : Nat :=
  match k with
  | 0x0 => part48 c.rise 0
  | 0x1 => part48 c.rise 1
  | 0x2 => part48 c.rise 2
  | 0x3 => part48 c.fall 0
  | 0x4 => part48 c.fall 1
  | 0x5 => part48 c.fall 2
  | 0x6 => c.width / 2 ^ 16 % 2 ^ 16
  | 0x7 => c.width % 2 ^ 16
  | 0x8 => 256 * c.seq + 4 * bit c.opened + 2 * bit c.ovr + bit c.done
  | 0x9 => c.cfg.toNat
  | _ => 0

/-- Two bytes of a byte string, high byte first; 0 beyond its end. -/
def wordOf (b : List Byte) (k : Nat) : Nat := 256 * (b.getD (2 * k) 0).toNat + (b.getD (2 * k + 1) 0).toNat

/-- FLT_DATA: the selected word of the selected head slot (Table 19-15). -/
def State.headWord (s : State) : Nat :=
  match Cells.get none s.flt.head (s.fld F.FLT_PART_SLOT) with
  | some e => wordOf e.bytes (s.fld F.FLT_PART_WORD)
  | none => 0

/-- CNV_STATUS: WAVE_ROM and BLK_VALID (Table 09-12). -/
def State.convLive (s : State) : Nat := 16 * bit s.cnv.rom + bit (s.cnv.allValid s.part s.context.gains)

/-- RUN and SPENT of a counter (Table 11-13). -/
def RunState.live : RunState → Nat
  | .idle => 0 | .running => 1 | .spent => 2

/-- The bits of a register that its unit's own state gives, as a mask and a value (live fields, R11). DEDUCED (log
entry 27). -/
def State.liveBits (s : State) (route : Route) (a i : Nat) : Nat × Nat :=
  match a with
  | 0x00 => (0xFFFF, s.part.code)
  | 0x01 => (0xFFFF, sysRev s.part)
  | 0x60 => (0xFFFF, s.part.units)
  | 0x62 => (0x001F, s.sysLive)
  | 0x67 => (0x001D, s.pwrLive)
  | 0x6C => (0x0078, s.clkLive)
  | 0x6F => (0xFFFF, part48 s.clk.time 0)
  | 0x70 => (0xFFFF, part48 s.clk.time 1)
  | 0x71 => (0xFFFF, part48 s.clk.time 2)
  | 0x74 => (0x0003, s.portLive route)
  | 0x77 => (0xFF83, s.bndLive)
  | 0x88 => (0x000C, s.expLive)
  | 0x96 => (0x0011, s.convLive)
  | 0x97 => (0x4000, 0x4000 * bit s.cnv.compile.isSome)
  | 0x9D => (0x0010, 16 * bit (s.lanes.lanes.any fun e => !e.2.spill.isEmpty))
  | 0xA3 => (0x0003, (s.counter i).run.live)
  | 0xA4 => (0xFFFF, part48 (s.counter i).value 0)
  | 0xA5 => (0xFFFF, part48 (s.counter i).value 1)
  | 0xA6 => (0xFFFF, part48 (s.counter i).value 2)
  | 0xAA => (0xFFFF, part48 (s.compare i).value 0)
  | 0xAB => (0xFFFF, part48 (s.compare i).value 1)
  | 0xAC => (0xFFFF, part48 (s.compare i).value 2)
  | 0xAE => (0x0001, bit ((s.compare i).pending && s.flag F.SPN_M_CFG_MODE i))
  | 0xAF => (0xFFFF, (s.capture i).part (s.fld F.SPN_SEL_KPART))
  | 0xB4 => (0x00F7, s.posLive)
  | 0xB7 => (0xFFFF, s.posPart (s.fld F.POS_PART_PART))
  | 0xC0 => (0x000F, s.auxLive)
  | 0xC2 => (0xFFFF, s.aux.oldest / 2 ^ 16)
  | 0xC3 => (0xFFFF, s.aux.oldest % 2 ^ 16)
  | 0xC4 => (0x007F, s.aux.queue.length)
  | 0xC7 => (0xFFFF, s.auxPart (s.fld F.AUX_SEL_PART) (s.flag F.AUX_SEL_INJ) (s.fld F.AUX_SEL_SLOT)
      (s.fld F.AUX_SEL_CONV))
  | 0xCD => (0x0077, s.tempLive)
  | 0xCF => (0xFFFF, s.tempWord)
  | 0xD5 => (0xFFFF, (s.engine i).core)
  | 0xD6 => (0x07FF, (s.engine i).live)
  | 0xD7 => (0xFFFF, (s.engine i).sr.toNat)
  | 0xD8 => (0xFFFF, match (s.engine i).fifo with
      | w :: _ => w.toNat
      | [] => 0)
  | 0xE4 => (0xFFFF, s.bufferWord)
  | 0xE6 => (0x9800, s.busLive)
  | 0xEB => (0x0C00, s.memLive)
  | 0xEC => (0xFFFF, s.memInfo (s.fld F.MEM_SEL_STORE))
  | 0xF1 => (0xF000, s.bstLive)
  | 0xF3 => (0xFFFF, wordOf s.bst.record (s.fld F.BST_PART_PART))
  | 0xF7 => (0xFFFF, s.headWord)
  | 0xF8 => (0xFFFF, s.attnGroups)
  | 0xF9 => (0x7F7F, 256 * s.flt.events.length + s.uncarried)
  | 0xFF => (0x4000, 0x4000 * bit s.flt.pending.isSome)
  | _ => (0, 0)

/-- What the register at `a` shows without side effects; 0 for an absent instance (R25).  A transactional register
shows its live value (R206). DESIGN CHOICE (log entry 41). -/
def State.view (s : State) (route : Route) (a i : Nat) : Word :=
  if instPresent s.part a i then
    let l := s.liveBits route a i
    BitVec.ofNat 16 (((s.reg a i).toNat &&& (0xFFFF - l.1)) ||| (l.2 &&& l.1))
  else 0

/-- The bits of the fields of a register with an access code. DESIGN CHOICE (log entry 41). -/
def accessMask (a : Nat) (acc : Access) : Word :=
  (fieldsAt a).foldl (fun m f => if f.acc = acc then m ||| f.into 0 0xFFFF else m) 0

/-- The side effects of a read without INSPECT (Table 06-4). -/
def State.readEffect (s : State) (a i : Nat) : State :=
  if !instPresent s.part a i then s
  else if a = R.AUX_Q_HI then s.popQueue.2
  else if a = R.AGT_FIFO then (s.fifoPop i).2
  else if a = R.PB_DATA then s.bufferNext
  else if a = R.MEM_INFO then
    let k := s.fld F.MEM_SEL_STORE
    if k = 2 ∨ k = 3 ∨ k = 6 ∨ k = 7 then s.setMem { s.mem with corrected := Cells.set 0 s.mem.corrected k 0 } else s
  else s.setReg a (s.reg a i &&& ~~~accessMask a .rc) i

/-- A read of the register at `a`: the value, the state.  AUX_Q_LO without INSPECT shows its holding register
(R454). -/
def State.readDirect (s : State) (route : Route) (inspect : Bool) (a : Nat) : Word × State :=
  let i := s.selected a
  if inspect then (s.view route a i, s)
  else (if a = R.AUX_Q_LO then s.aux.hold else s.view route a i, s.readEffect a i)

/-- A read at an address of the map, legacy aliases included. -/
def State.readReg (s : State) (route : Route) (inspect : Bool) (a : Nat) : Word × State :=
  match aliasAt a with
  | some x =>
    let r := s.readDirect route inspect x.addr
    (x.show r.1, r.2)
  | none => s.readDirect route inspect a

/-! ### With VCORE off (R99, R194) -/

/-- The bits of a register that class A holds. -/
def classAMask (a : Nat) : Word :=
  (fieldsAt a).foldl (fun m f => if f.kept = .psfyd then m ||| f.into 0 0xFFFF else m) 0

/-- What a register shows while VCORE is off: class-A fields, the identity registers, SYS_STATUS. -/
def State.viewOff (s : State) (a : Nat) : Word :=
  if a = R.SYS_STATUS then BitVec.ofNat 16 s.sysLive else s.view .port a 0 &&& classAMask a

/-- A host read as the power state has it: no side effect while VCORE is off. -/
def State.hostRead (s : State) (route : Route) (inspect : Bool) (a : Nat) : Word × State :=
  if s.pwr.state = .dormant || !s.pwr.rails.vcore then (s.viewOff a, s) else s.readReg route inspect a

end Sys2Proof.Machine
end

