-- ==== Sys2Proof/Machine/RegWrite.lean ====
section
/-! DEFINITION.
Writing registers: what each bit does with a write under its access code (R12, R181), the values that a field stores,
the transactional registers (Table 06-6, R206, R216), the legacy column window (R260, R261), and the registers whose
write acts (T-).  Every function answers a status and a state.  A write carries a mask: REG_WR and short frames write
every bit, REG_RMW the bits of MASK, an alias the bits of its field.
-/
namespace Sys2Proof.Machine

/-- The bits of `m` taken from `v`, the others from `old` (R181). -/
def merge (old v m : Word) : Word := (old &&& ~~~m) ||| (v &&& m)

/-- A register word after a write: RW bits take the value, W1C bits written 1 clear, the others stay (R12, R13).
DESIGN CHOICE (log entry 41). -/
def storedAfter (a : Nat) (old v m : Word) : Word :=
  merge old v (m &&& accessMask a .rw) &&& ~~~(v &&& m &&& accessMask a .w1c)

/-! ### Values a field stores (R12; the Meaning columns) -/

/-- The values that a field stores, from `lo` to `hi`; a smaller one stores `lo`, a larger one `above`. -/
structure Limit where
  field : Field
  lo : Nat
  hi : Nat
  above : Nat
  deriving DecidableEq, Repr

/-- The limits, by register table. -/
def limits : List Limit :=
  [⟨F.PWR_WARN_LEVEL, 0, 8, 8⟩, ⟨F.PWR_WAKE_TMO_PLL_TMO, 1, 255, 255⟩, ⟨F.PWR_WAKE_TMO_STEP_TMO, 1, 255, 255⟩,
   ⟨F.BND_TXN_TMO_TMO, 1, 65535, 65535⟩, ⟨F.BND_WDOG_PERIOD, 1, 1023, 1023⟩,
   ⟨F.QR_MODE_ROW_SUB, 0, 2, 2⟩, ⟨F.QR_MODE_HBIN, 0, 2, 2⟩, ⟨F.EXP_MODE_SCAN, 0, 2, 0⟩,
   ⟨F.CNV_MODE_GAIN, 0, 2, 0⟩, ⟨F.CNV_MODE_BITS, 0, 2, 0⟩, ⟨F.CNV_BLK_CTRL_CLIP, 0, 12, 12⟩,
   ⟨F.CNV_HDR_BLEND, 0, 10, 10⟩, ⟨F.CNV_HDR_RATIO, 0x100, 0x3FF, 0x3FF⟩,
   ⟨F.LN_RATE_RATE, 0, 2, 2⟩, ⟨F.LN_ANNEX_EVERY_LINES, 1, 65535, 65535⟩] ++
  [⟨F.SPN_C_CFG_SRC, 0, 8, 0⟩, ⟨F.SPN_C_CFG_EDGE, 0, 2, 2⟩, ⟨F.SPN_C_DIV_HI_INT, 1, 65535, 65535⟩,
   ⟨F.SPN_M_INTERVAL_INTERVAL, 1, 65535, 65535⟩, ⟨F.POS_CFG_DECODE, 0, 2, 2⟩, ⟨F.POS_CFG_ZMODE, 0, 2, 2⟩,
   ⟨F.POS_CFG_FILT, 1, 15, 15⟩, ⟨F.POS_LOSS_FACTOR, 2, 15, 15⟩, ⟨F.POS_LOSS_RET_EDGES, 1, 15, 15⟩,
   ⟨F.AUX_OVF_POLICY_WATER, 0, 64, 64⟩, ⟨F.TMP_CFG_CHAN, 0, 8, 8⟩, ⟨F.TMP_CFG_START, 0, 5, 5⟩,
   ⟨F.PB_CFG_SPEED, 0, 2, 1⟩, ⟨F.PB_CFG_BACKOFF, 1, 255, 255⟩]

/-- A word with one limit applied. -/
def Limit.apply (w : Word) (x : Limit) : Word :=
  let n := x.field.of w
  if n < x.lo then x.field.into w x.lo else if x.hi < n then x.field.into w x.above else w

/-- The word that the register at `a` stores for a written word. DEDUCED (log entry 22). -/
def limitWord (a : Nat) (w : Word) : Word := (limits.filter fun x => x.field.addr = a).foldl Limit.apply w

/-! ### Transactional registers -/

/-- A field value in a write that touches the field; 0 where the mask leaves the field out. -/
def Field.written (f : Field) (w m : Word) : Nat := if f.of m = 0 then 0 else f.of w

/-- Whether the value needs a unit that the member lacks (R28, Table 01-4). -/
def needsUnit (p : Part) (a : Nat) (w m : Word) : Bool :=
  if a = R.QR_ENABLE then 2 ^ p.quires ≤ F.QR_ENABLE_EN.written w m
  else if a = R.EXP_MODE then p.pages == 0 && F.EXP_MODE_NEXP.written w m != 0
  else if a = R.EXP_SCHED then p.pages == 0 && F.EXP_SCHED_STAGES.written w m != 0
  else if a = R.CNV_CORR then p.pages == 0 && F.CNV_CORR_FF.written w m != 0
  else if a = R.LN_BUF then p.pages == 0 && F.LN_BUF_PAGES.written w m != 0
  else if a = R.LN_ANNEX then p.quires ≤ F.LN_ANNEX_LANE.written w m
  else if a = R.AUX_CTRL then
    p.converters < 2 && (F.AUX_CTRL_EN1.written w m != 0 || F.AUX_CTRL_LP1.written w m != 0)
  else if a = R.AGT_PINPERM_A ∨ a = R.AGT_PINPERM_B then p.engines < 4 && (w &&& m &&& 0xCCCC) != 0
  else false

/-- The checks of a transactional write after those of the transaction state, in the order of R178. -/
def State.transCheck (s : State) (a : Nat) (old w m : Word) : Nat :=
  let reserved (f : Field) : Bool := f.of m != 0 && reservedAddr (f.of w)
  if (a = R.PB_TGT ∧ reserved F.PB_TGT_ADDR = true) ∨ (a = R.PB_EE ∧ reserved F.PB_EE_ADDR = true) then Status.range
  else if needsUnit s.part a w m then Status.noUnit
  else if a = R.LN_RATE ∧ s.bnd.txn = .idle ∧ s.pwr.state = .streaming ∧ w ≠ old then Status.state
  else Status.ok

/-- Table 06-6 for a write to a transactional register: the refusal, if any. -/
def State.transRefusal (s : State) (route : Route) : Option Nat :=
  match s.bnd.txn, route with
  | .idle, _ => none
  | _, .target => some Status.txnOwner
  | .open_, .port => none
  | .pending, .port => some Status.txnPending
  | .timedOut, .port => some Status.timedOut

/-- The value that a write merges with: the staged one, if the register is staged, else the live one (R206). DEDUCED
(log entry 22). -/
def State.transValue (s : State) (a i : Nat) : Word :=
  if s.bnd.txn = .open_ then (s.bnd.stagedValue a i).getD (s.reg a i) else s.reg a i

/-- Values staged in OPEN, all or none, or made live in IDLE: BND_GEN counts each register that changes (R206,
R216). -/
def State.putTrans (s : State) (ws : List Staged) (divs : List Nat) : Nat × State :=
  if s.bnd.txn = .open_ then
    match s.bnd.stageAll ws with
    | some b => (Status.ok, s.setBnd b)
    | none => (Status.txnFull, s)
  else
    let changed := ws.filter fun w => s.reg w.addr w.inst != w.value
    (Status.ok, changed.foldl (fun t _ => t.nextGen) (s.makeLive ws divs))

/-! ### The legacy column window (R260, R261) -/

/-- The translation of S and E: QR_ENABLE, and the window of every quire reached. DEDUCED (log entry 23). -/
def columnWindow (p : Part) (first last : Nat) : List Staged :=
  let reach := (List.range p.quires).filter fun q => max first (512 * q) ≤ min last (512 * q + 511)
  let reach := if last < first then [] else reach
  let enable := reach.foldl (fun n q => n + 2 ^ q) 0
  ⟨R.QR_ENABLE, 0, BitVec.ofNat 16 enable⟩ :: reach.flatMap fun q =>
    [⟨R.QR_COL_START, q, BitVec.ofNat 16 (max first (512 * q) - 512 * q)⟩,
     ⟨R.QR_COL_COUNT, q, BitVec.ofNat 16 (min last (512 * q + 511) - max first (512 * q) + 1)⟩]

/-- A write of a legacy column-window register: its own value, stored at once and without a staging slot, and the
translation, which an open transaction stages (R261, R270, R681). DEDUCED (log entry 23). -/
def State.writeColumns (s : State) (a : Nat) (w : Word) : Nat × State :=
  let value (b : Nat) : Nat := (if b = a then w else s.reg b).toNat % 2 ^ 13
  let ws := columnWindow s.part (value R.LEG_COL_FIRST) (value R.LEG_COL_LAST)
  if s.bnd.txn = .open_ then
    match s.bnd.stageAll ws with
    | some b => (Status.ok, (s.setBnd b).setReg a w)
    | none => (Status.txnFull, s)
  else s.putTrans (⟨a, 0, w⟩ :: ws) []

/-- A write of a transactional register at instance `i`. DEDUCED (log entry 22). -/
def State.writeTrans (s : State) (route : Route) (a i : Nat) (v m : Word) : Nat × State :=
  match s.transRefusal route with
  | some e => (e, s)
  | none =>
    let old := s.transValue a i
    let w := limitWord a (storedAfter a old v m)
    if a = R.LEG_COL_FIRST ∨ a = R.LEG_COL_LAST then s.writeColumns a w
    else if !instPresent s.part a i then
      (if s.bnd.txn = .open_ then s.putTrans [⟨a, i, w⟩] [] else (Status.ok, s))
    else
      let e := s.transCheck a old w m
      if e ≠ Status.ok then (e, s)
      else s.putTrans [⟨a, i, w⟩] (if a = R.SPN_C_DIV_LO then [i] else [])

/-! ### Registers whose write acts -/

/-- The bits of a mask that a write reaches: not the W1C bits that hardware has set in this tick (R633). -/
def State.reaches (s : State) (a i : Nat) (m : Word) : Word := m &&& ~~~(s.freshBits a i &&& accessMask a .w1c)

/-- The plain write of a T- register; a W1C bit that hardware has set in this tick stays set (R633). -/
def State.storeReg (s : State) (a i : Nat) (v m : Word) : State :=
  s.setReg a (limitWord a (storedAfter a (s.reg a i) v (s.reaches a i m))) i

/-- A write that a hardware update of the tick discards (R633), or its effect: `lost` = the update has been, or the
operand of the row says that it comes with the write. DESIGN CHOICE (log entry 20). -/
def unlessLost (s : State) (lost : Bool) (t : State) : Nat × State :=
  if lost then (Status.lostWrite, s) else (Status.ok, t)

/-- A status, and the effect where it is OK. -/
def ifOk (s : State) (e : Nat) (t : State) : Nat × State := (e, if e = Status.ok then t else s)

/-- Whether a masked write puts 1 into a one-bit field. -/
def Field.hits (f : Field) (v m : Word) : Bool := f.of (v &&& m) == 1

/-- Whether a masked write clears a W1C flag: one that hardware has set in this tick stays (R633). -/
def State.clears (s : State) (f : Field) (v m : Word) : Bool := f.hits v (s.reaches f.addr 0 m)

/-- The blocks SYS_ to BND_, 0x60 to 0x7F. DEDUCED (log entry 25). -/
def State.writeSystem (s : State) (a : Nat) (v m : Word) : Nat × State :=
  let act := v &&& m
  if a = R.SYS_RESET_CAUSE then
    let t := s.storeReg a 0 v m
    (Status.ok, if s.clears F.SYS_RESET_CAUSE_WAKE_FAIL v m then t.setFld F.SYS_RESET_CAUSE_FAIL_STEP 0 else t)
  else if a = R.SYS_SOFT_RESET then (Status.ok, if act = 0xA55A then s.startReset .soft false else s)
  else if a = R.PWR_CTRL then
    let q := F.PWR_CTRL_REQ.of act
    ifOk s (s.reqCheck q) (s.request q)
  else if a = R.CLK_REFDIV then
    let w := merge (s.reg a) v m
    if F.CLK_REFDIV_FREQ.of m = 0 then (Status.ok, s) else ifOk s (s.refdivCheck w) (s.writeRefdiv w)
  else if a = R.CLK_STATUS then
    let t := s.storeReg a 0 v (F.CLK_STATUS_LOST.into m 0)
    (Status.ok, if F.CLK_STATUS_LOST.hits v m then t.openGate else t)
  else if a = R.BND_WDOG then
    (Status.ok, if s.flag F.BND_WDOG_EN then s else s.storeReg a 0 v m)
  else (Status.ok, s.storeReg a 0 v m)

/-- The blocks QR_ to LN_, 0x80 to 0x9F. -/
def State.writeImaging (s : State) (a i : Nat) (v m : Word) : Nat × State :=
  if a = R.EXP_CTRL then
    let r := if F.EXP_CTRL_RUN.of m = 1 then s.writeRun (F.EXP_CTRL_RUN.of v == 1) else (Status.ok, s)
    (r.1, if r.1 = Status.ok then r.2.storeReg a 0 v (F.EXP_CTRL_RUN.into m 0) else s)
  else if a = R.CNV_DEF_STATUS then
    if F.CNV_DEF_STATUS_DEF_LOAD.hits v m = false then (Status.ok, s)
    else ifOk s (if s.pwr.state = .streaming then Status.state else Status.ok) s.startCompile
  else (Status.ok, s.storeReg a i v m)

/-- A write of SPN_K_DATA: part 9 is SPN_K_CFG, part 8 clears OVR and DONE. -/
def State.writeCapture (s : State) (k : Nat) (v m : Word) : State :=
  let c := s.capture k
  match s.fld F.SPN_SEL_KPART with
  | 0x8 =>
    let act := v &&& m &&& ~~~s.freshBits R.SPN_K_DATA k
    s.setCapture k { c with ovr := c.ovr && !act.getLsbD 1, done := c.done && !act.getLsbD 0 }
  | 0x9 => s.writeCaptureCfg k (merge c.cfg v m)
  | _ => s

/-- The block SPN_, 0xA0 to 0xAF. -/
def State.writeSpine (s : State) (a i : Nat) (v m : Word) (lost : Bool) : Nat × State :=
  let w := merge (s.view .port a i) v m
  if a = R.SPN_GO then
    let go := F.SPN_GO_GO.of (v &&& m)
    let halt := F.SPN_GO_HALT.of (v &&& m)
    ifOk s (if s.goNeedsRef go halt then Status.needsRef else Status.ok) (s.spnGo go halt)
  else if a = R.SPN_C_STAT then
    (if F.SPN_C_STAT_ARM.hits v m then unlessLost s (lost || s.spn.spentNow.getLsbD i) (s.arm i) else (Status.ok, s))
  else if a = R.SPN_C_HI then (Status.ok, s.setCounter i { s.counter i with holdHi := w })
  else if a = R.SPN_C_MID then (Status.ok, s.setCounter i { s.counter i with holdMid := w })
  else if a = R.SPN_C_LO then
    (if s.locked i then (Status.state, s) else unlessLost s (lost || s.spn.stepped.getLsbD i) (s.loadCounter i w))
  else if a = R.SPN_M_HI then (Status.ok, s.setCompare i { s.compare i with holdHi := w })
  else if a = R.SPN_M_MID then (Status.ok, s.setCompare i { s.compare i with holdMid := w })
  else if a = R.SPN_M_LO then (Status.ok, s.loadCompare i w lost)
  else if a = R.SPN_K_DATA then (Status.ok, s.writeCapture i v m)
  else (Status.ok, s.storeReg a i v m)

/-- A write of POS_DATA: part 2 presets the position (R423). -/
def State.writePosition (s : State) (v m : Word) (lost : Bool) : Nat × State :=
  let part := s.fld F.POS_PART_PART
  let w := merge (s.view .port R.POS_DATA 0) v m
  if part = 2 then unlessLost s lost (s.preset (join48 s.pos.holdHi s.pos.holdMid w)).atPosition
  else (Status.ok, s.posWrite part w)

/-- The blocks POS_, AUX_ and TMP_, 0xB0 to 0xCF. -/
def State.writeSensing (s : State) (a i : Nat) (v m : Word) (lost : Bool) : Nat × State :=
  if a = R.POS_DATA then s.writePosition v m lost
  else if a = R.AUX_STATUS then
    let t := s.storeReg a 0 v m
    (Status.ok, if F.AUX_STATUS_ROUND_NOW.hits v m then t.askRound else t)
  else if a = R.TMP_TEMP then
    if s.flag F.TMP_CFG_HOST then
      unlessLost s lost (s.useTemp (signed 16 (merge (s.view .port a 0) v m).toNat))
    else (Status.state, s)
  else (Status.ok, s.storeReg a i v m)

/-- The status of a write of AGT_GO (R502, R518). -/
def State.goCheck (s : State) (act : Word) : Nat :=
  let start := F.AGT_GO_START.of act
  let step := F.AGT_GO_STEP.of act
  if 2 ^ s.part.engines ≤ max (max start step) (F.AGT_GO_HALT.of act) then Status.noUnit
  else if (start ≠ 0 ∨ step ≠ 0) ∧ s.analog = false then Status.state
  else Status.ok

/-- The block AGT_, 0xD0 to 0xDF. -/
def State.writeEngine (s : State) (a i : Nat) (v m : Word) (lost : Bool) : Nat × State :=
  let act := v &&& m
  let w := merge (s.view .port a i) v m
  if a = R.AGT_SEL then (Status.ok, (s.storeReg a 0 v m).clearParts)
  else if a = R.AGT_CORE then unlessLost s (lost || (s.engine i).flagged) (s.writeCore i w)
  else if a = R.AGT_SR then unlessLost s (lost || (s.engine i).shifted) (s.setEngine i { s.engine i with sr := w })
  else if a = R.AGT_FIFO then (Status.ok, s.fifoPush i w)
  else if a = R.AGT_INJECT then (Status.ok, s.injectPart i act)
  else if a = R.AGT_GO then
    ifOk s (s.goCheck act) (s.agtGo (F.AGT_GO_START.of act) (F.AGT_GO_HALT.of act) (F.AGT_GO_STEP.of act))
  else if a = R.AGT_FORCE_HALT then
    let f := F.AGT_FORCE_HALT_FORCE.of act
    ifOk s (if 2 ^ s.part.engines ≤ f then Status.noUnit else Status.ok) (s.forceHalt f)
  else (Status.ok, s.storeReg a i v m)

/-- The block PB_, 0xE0 to 0xE7. -/
def State.writeBus (s : State) (a : Nat) (v m : Word) : Nat × State :=
  let w := merge (s.view .port a 0) v m
  if a = R.PB_XADDR then
    (if F.PB_XADDR_TADDR.of m ≠ 0 ∧ reservedAddr (F.PB_XADDR_TADDR.of w) = true then (Status.range, s)
     else (Status.ok, s.storeReg a 0 v m))
  else if a = R.PB_DATA then (Status.ok, s.bufferWrite w)
  else if a = R.PB_XFER then
    (Status.ok, if F.PB_XFER_OP.of m = 0 then s.storeReg a 0 v m else s.writeXfer w)
  else if a = R.PB_STATUS then
    let t := s.storeReg a 0 v m
    (Status.ok, if s.clears F.PB_STATUS_TGT_REF v m then t.setFld F.PB_STATUS_TGT_STATUS 0 else t)
  else (Status.ok, s.storeReg a 0 v m)

/-- The blocks MEM_, SLT_, BST_, FLT_ and INJ_, 0xE8 to 0xFF. -/
def State.writeIntegrity (s : State) (a i : Nat) (v m : Word) : Nat × State :=
  let w := merge (s.view .port a i) v m
  if a = R.MEM_FLIP_MASK then ifOk s (s.flipCheck w) (s.writeFlip w)
  else if a = R.MEM_RAW then ifOk s (s.rawCheck w) (s.writeRaw w)
  else if a = R.SLT_RETIRE then (Status.ok, s.writeRetire w)
  else if a = R.INJ_FIRE then
    (if v &&& m = 0xC3A5 then s.fire (s.fld F.INJ_SEL_DET) (s.fld F.INJ_ARG_ARG) else (Status.ok, s))
  else if a = R.INJ_STATUS then
    let t := s.storeReg a 0 v m
    (Status.ok, if F.INJ_STATUS_CANCEL.hits v m then t.injDone else t)
  else (Status.ok, s.storeReg a i v m)

/-- A write of a T- register at instance `i`; none where the instance is absent (R25). -/
def State.writeThrough (s : State) (a i : Nat) (v m : Word) (lost : Bool) : Nat × State :=
  if !instPresent s.part a i then (Status.ok, s)
  else if a < 0x80 then s.writeSystem a v m
  else if a < 0xA0 then s.writeImaging a i v m
  else if a < 0xB0 then s.writeSpine a i v m lost
  else if a < 0xD0 then s.writeSensing a i v m lost
  else if a < 0xE0 then s.writeEngine a i v m lost
  else if a < 0xE8 then s.writeBus a v m
  else s.writeIntegrity a i v m

/-! ### One register write (R180, R546) -/

/-- A write of the bits `m` of the register at `a`, no alias. DESIGN CHOICE (log entry 20). -/
def State.writeDirect (s : State) (route : Route) (a : Nat) (v m : Word) (lost : Bool) : Nat × State :=
  let i := s.selected a
  if isTrans a then s.writeTrans route a i v m
  else s.writeThrough a i v m lost

/-- A write of the bits `m` at an address of the map, legacy aliases included; an unassigned address ignores it
(R13). DEDUCED (log entry 22). -/
def State.writeMasked (s : State) (route : Route) (a : Nat) (v m : Word) (lost : Bool) : Nat × State :=
  match aliasAt a with
  | some x => s.writeDirect route x.addr (x.place v) (x.place m) lost
  | none => s.writeDirect route a v m lost

/-- A write of the register at `a`: its status, the state. -/
def State.writeReg (s : State) (route : Route) (a : Nat) (v : Word) (lost : Bool) : Nat × State :=
  s.writeMasked route a v 0xFFFF lost

/-- REG_RMW's read: the staged value of a staged register, else what an INSPECT read gives (R181, R206). -/
def State.rmwValue (s : State) (route : Route) (a : Nat) : Word :=
  let value (b : Nat) : Word :=
    let i := s.selected b
    if s.bnd.txn = .open_ ∧ isTrans b = true then (s.bnd.stagedValue b i).getD (s.view route b i) else s.view route b i
  match aliasAt a with
  | some x => x.show (value x.addr)
  | none => value a

end Sys2Proof.Machine
end

