-- ==== Sys2Proof/Machine/Bulk.lean ====
section
/-! DEFINITION.
Bulk access to the stores (R182, R207 to R209, R569, R571, R587, R588), and the commands that act on registers (R180,
R181) and on the event log (R620).  Each answers a status, data bytes and a state.
-/
namespace Sys2Proof.Machine

/-- What a command answers: status, data, state. -/
structure Answer where
  status : Nat
  data : List Byte
  state : State
  deriving DecidableEq, Repr

/-- A refusal with no data. -/
def State.refuse (s : State) (e : Nat) : Answer := ⟨e, [], s⟩

/-- An answer without data. -/
def Answer.of (r : Nat × State) : Answer := ⟨r.1, [], r.2⟩

/-! ### Where a bulk access falls -/

/-- A bulk access: store ID, byte offset, length. -/
structure Extent where
  store : Nat
  offset : Nat
  len : Nat
  deriving DecidableEq, Repr

/-- Offset bit 23. -/
def Extent.high (x : Extent) : Bool := x.offset.testBit 23

/-- The offset inside a bank. -/
def Extent.low (x : Extent) : Nat := x.offset % 2 ^ 23

/-- Whether the access uses the raw image (R587). -/
def State.rawAccess (s : State) (x : Extent) : Bool := s.rawStore == some x.store

/-- RANGE, then NO_UNIT, of a bulk access: `bankBit` says that bit 23 selects a bank (R27, R182, R209, R587). DEDUCED
(log entry 17). -/
def State.extentCheck (s : State) (x : Extent) (bankBit : Bool) : Nat :=
  let off := if bankBit then x.low else x.offset
  let size := storeSize s.part x.store
  if !storePresent s.part x.store then Status.noUnit
  else if s.rawAccess x then
    let r := rawSize x.store
    let z := wordSize x.store
    if off % r ≠ 0 ∨ x.len % r ≠ 0 ∨ size / z * r < off + x.len then Status.range
    else if absentRange s.part x.store (off / r * z) (x.len / r * z) then Status.noUnit else Status.ok
  else if size < off + x.len then Status.range
  else if absentRange s.part x.store off x.len then Status.noUnit
  else Status.ok

/-! ### BULK_RD -/

/-- Raw words as the cells stand. -/
def Memory.rawBytes (m : Memory) (id : Nat) (bank : Bool) (k : Nat) : Nat → List Byte
  | 0 => []
  | n + 1 => m.raw ⟨id, bank, k⟩ ++ Memory.rawBytes m id bank (k + 1) n

/-- A bulk read (R182, R209, R569, R587, R588). -/
def State.bulkRead (s : State) (x : Extent) (inspect : Bool) : Answer :=
  let e := s.extentCheck x (banked x.store)
  if e ≠ Status.ok then s.refuse e
  else if x.store = Store.slate ∧ s.pwr.state = .standby then s.refuse Status.state
  else if x.store = Store.colophon then ⟨Status.ok, (s.shadow.drop x.offset).take x.len, s⟩
  else if s.rawAccess x then
    let r := rawSize x.store
    ⟨Status.ok, s.mem.rawBytes x.store (banked x.store && x.high) (x.low / r) (x.len / r), s⟩
  else
    let bank := match bankedOf x.store with
      | some b => if x.high then !s.activeBank b else s.activeBank b
      | none => false
    match s.readBytes .hostRead inspect x.store bank x.low x.len with
    | (some r, t) => ⟨Status.ok, r.1, t⟩
    | (none, t) => ⟨Status.ok, [], t⟩

/-! ### BULK_WR -/

/-- The Bindery codes of a write to a banked store (Table 06-6, R207, R208, R218): SYNC_BUSY comes first, in every
transaction state and whether or not the device is Streaming. DEDUCED (log entry 17). -/
def State.bankCheck (s : State) (b : BankedStore) : Nat :=
  if s.bnd.sync b ≠ .none then Status.syncBusy
  else match s.bnd.txn with
  | .pending => Status.txnPending
  | .timedOut => Status.timedOut
  | .idle => if s.pwr.state = .streaming then Status.liveBank else Status.ok
  | .open_ => Status.ok

/-- Slate pages that a write may reach while Streaming: flat-field pages in force, retired pages (R571). -/
def State.writablePage (s : State) (p : Nat) : Bool :=
  decide (s.part.pages ≤ p + s.context.ffPages s.part) || s.retired p

/-- STATE of a bulk write: the Slate in Standby and while Streaming, AGATE under a running engine (R504, R569,
R571). -/
def State.unitRefuses (s : State) (x : Extent) : Bool :=
  let last := x.offset + x.len - 1
  if x.store = Store.slate then
    s.pwr.state == .standby ||
      (s.pwr.state == .streaming &&
        (List.range (last / 2048 + 1 - x.offset / 2048)).any fun k => !s.writablePage (x.offset / 2048 + k))
  else if x.store = Store.agate then
    let z := if s.rawAccess x then 320 else 256
    (List.range 4).any fun e =>
      decide (x.offset / z ≤ e) && decide (e ≤ last / z) && (s.engine e).run != .halted
  else false

/-- The status of a bulk write, in the order of R178. DEDUCED (log entry 17). -/
def State.bulkWriteCheck (s : State) (x : Extent) : Nat :=
  let raw := s.rawAccess x
  let b := match bankedOf x.store with
    | some b => s.bankCheck b
    | none => Status.ok
  let e := s.extentCheck x (raw && banked x.store)
  if b ≠ Status.ok then b
  else if e ≠ Status.ok then e
  else if x.store = Store.colophon then Status.readOnly
  else if s.unitRefuses x then Status.state
  else Status.ok

/-- Raw words stored exactly as given, with their valid bits (R588). -/
def Memory.writeRawWords (m : Memory) (id : Nat) (bank : Bool) (k : Nat) (d : List Byte) : Nat → Memory
  | 0 => m
  | n + 1 =>
    let r := rawSize id
    (m.putRaw ⟨id, bank, k⟩ (d.take r)).writeRawWords id bank (k + 1) (d.drop r) n

/-- The effect of an accepted bulk write. DEDUCED (log entry 17). -/
def State.bulkStore (s : State) (x : Extent) (d : List Byte) : State :=
  if s.rawAccess x then
    let r := rawSize x.store
    s.setMem (s.mem.writeRawWords x.store (banked x.store && x.high) (x.low / r) d (x.len / r))
  else match bankedOf x.store with
    | none => s.writeBytes x.store false x.offset d
    | some b =>
      if s.bnd.txn = .open_ then
        let t := s.writeBytes x.store (!s.activeBank b) x.low d
        t.setBnd (t.bnd.setWrote b)
      else (s.writeBytes x.store false x.low d).writeBytes x.store true x.low d

/-- The words of both banks that a bulk write may reach, as they stand (R124). -/
def State.undoOf (s : State) (x : Extent) : List (WordAddr × List Byte × Bool) :=
  let z := if s.rawAccess x then rawSize x.store else wordSize x.store
  let off := if banked x.store then x.low else x.offset
  let banks := if banked x.store then [false, true] else [false]
  banks.flatMap fun b => (List.range ((off + x.len - 1) / z + 1 - off / z)).map fun k =>
    let w : WordAddr := ⟨x.store, b, off / z + k⟩
    (w, s.mem.raw w, s.mem.isValid w)

/-- A bulk write, in progress until its response is ready; in IDLE the sets of WAVE are checked after it (R124, R328). -/
def State.bulkWrite (s : State) (x : Extent) (d : List Byte) : Answer :=
  let e := s.bulkWriteCheck x
  if e ≠ Status.ok then s.refuse e
  else
    let t := s.bulkStore x d
    let t := { t with port := { t.port with undo := s.undoOf x } }
    ⟨Status.ok, [], if x.store = Store.wave ∧ s.bnd.txn = .idle then t.checkWaves else t⟩

/-! ### Register bursts (R180, R181) -/

/-- The device is in a reset, or in the wake sequence that follows one; a retry from Safe is neither (R684). DEDUCED
(log entry 19). -/
def State.resetting (s : State) : Bool :=
  match s.pwr.state, s.pwr.kind with
  | .off, _ => true
  | .waking, .reset _ => s.pwr.from_ != .safe
  | _, _ => false

/-- Words of a payload, most significant byte first. -/
def payloadWords : List Byte → List Word
  | a :: b :: d => BitVec.ofNat 16 (a.toNat * 256 + b.toNat) :: payloadWords d
  | _ => []

/-- The next register of a REG_RD or REG_WR burst: its status, what it adds to the answer, and the state (R180). -/
def State.burstAccess (s : State) (b : Burst) : Answer :=
  let a := b.packet.addr.toNat + b.done
  if b.packet.opcode = 0x81 then
    let r := s.hostRead .port b.packet.inspect a
    ⟨Status.ok, wordBytes r.1.toNat, r.2⟩
  else
    let r := s.writeReg .port a ((payloadWords b.packet.payload).getD b.done 0) (b.lost.getLsbD b.done)
    ⟨r.1, [BitVec.ofNat 8 r.1], r.2⟩

/-- REG_RMW: MASK, VALUE; it answers the value before the write. -/
def State.regModify (s : State) (a : Nat) (d : List Byte) (lost : Bool) : Answer :=
  if 0xFF < a then s.refuse Status.range
  else match payloadWords d with
    | mask :: value :: _ =>
      let old := s.rmwValue .port a
      let r := s.writeMasked .port a value mask lost
      ⟨r.1, wordBytes old.toNat, r.2⟩
    | _ => s.refuse Status.length

/-! ### EVENT_RD (R620) -/

/-- Whole entries of the event log, oldest first; removed unless `inspect`. -/
def State.eventRead (s : State) (len : Nat) (inspect : Bool) : Answer :=
  let n := len / 8
  let d := (s.flt.events.take n).flatMap Event.bytes
  ⟨Status.ok, d, if inspect then s else { s with flt := { s.flt with events := s.flt.events.drop n } }⟩

end Sys2Proof.Machine
end

