-- ==== Sys2Proof/Machine/Port.lean ====
section
/-! DEFINITION.
The control port (chapter 05): slots and their classes, the order of checks, what each packet executes, the response
pipeline, repeated packets, short frames.
-/
namespace Sys2Proof.Machine

/-- The state with the port replaced. -/
def State.setPort (s : State) (x : Port) : State := { s with port := x }

/-! ### Slots (R161, R163, R171, R193) -/

/-- Whether the port takes part in slots: it has a clock, no reset holds it, and it is not under test (R96, R98, R192,
R602). DEDUCED (log entry 18). -/
def State.portAnswers (s : State) : Bool :=
  !s.pwr.mute && s.pwr.state != .off && !(s.resetting && s.pwr.step ≤ 2) && s.partition != some 3

/-- The port clock of Table 04-4: SCLK, or the RC oscillator. DEDUCED (log entry 18). -/
def PState.onSclk : PState → Bool
  | .standby | .armed | .streaming | .testing => true
  | _ => false

/-- The PORT byte of a delivery that begins now (Table 05-7). -/
def State.portByte (s : State) (r : Response) : Nat :=
  128 * bit (s.attnPending false) + 64 * bit r.repeated + 32 * bit r.refused.isSome
    + 16 * bit (!s.flt.events.isEmpty) + r.refused.getD 0

/-- SCS_N falls: SDO carries a pending response from its byte 0, or 0xFE or 0xFF; RESP_READY ends; with no response in
preparation, no BULK_WR is in progress. DESIGN CHOICE (log
entry 14). -/
def State.slotBegin (s : State) : State :=
  if s.port.inSlot || !s.portAnswers then s
  else
    let p := { s.port with
      inSlot := true, ready := false, readyBefore := s.port.ready, prepAtBegin := false, pendAtBegin := false, sdo := [], sdoFill := 0xFF }
    s.setPort (match s.port.resp with
      | .empty => { p with undo := [] }
      | .prep _ _ => { p with prepAtBegin := true, sdoFill := 0xFE }
      | .pend r => { p with pendAtBegin := true, sdo := r.bytes (s.portByte r) })

/-- SCS_N has risen: the SPI mode and the port clock that are due (R163, R193).  A CP_MODE.SPI that no slot wrote, as by
the target, takes effect at the end of the next slot. DESIGN CHOICE (log entry 14). -/
def State.closeSlot (s : State) : State :=
  s.setPort { s.port with
    inSlot := false, readyBefore := false, prepAtBegin := false, pendAtBegin := false, sdo := [], sdoFill := 0xFF
    mode3 := s.flag F.CP_MODE_SPI, onSclk := s.pwr.state.onSclk }

/-- A slot without an SCK edge ends: it has changed no state (R161).  RESP_READY, which R190 ends when a slot begins, is
pending again; the port clock that is due comes with the edge of SCS_N (R163). DESIGN CHOICE (log entry 14). -/
def State.ignoreSlot (s : State) : State :=
  { s.closeSlot with port := { s.closeSlot.port with
      mode3 := s.port.mode3, ready := s.port.ready || s.port.readyBefore } }

/-- A pending response shifted out in full is released (R171). -/
def Port.release (p : Port) : Port :=
  match p.resp with
  | .pend r => if p.pendAtBegin then { p with resp := .empty } else { p with resp := .pend r }
  | _ => p

/-! ### Responses and errors (R172, R174, R191) -/

/-- A response goes into preparation. DEDUCED (log entry 6); DESIGN CHOICE (log entry 15). -/
def State.prepare (s : State) (r : Response) (bulk : Bool) : State := s.setPort { s.port with resp := .prep r bulk }

/-- A packet that does not execute is answered with its failing status, whatever RESP holds. DEDUCED (log entry 16). -/
def State.fail (s : State) (p : Packet) (e : Nat) : State := s.prepare (Response.of p e []) false

/-- A CRC failure, a SHORT packet or a framing error: its count, and ERR. -/
def State.portError (s : State) (f : Field) : State := (s.count f).setFlag F.CP_STATUS_ERR true

/-- An IMMEDIATE commit that waits for its tick has applied by the time of the access (R210). DESIGN CHOICE (log entry
5). -/
def State.dueApply (s : State) : State :=
  if s.bnd.txn = .pending ∧ s.bnd.point = .immediate then s.applyTxn else s

/-- A packet refused because of a response still held (R172). -/
def State.refusePacket (s : State) (seq : Nat) : State :=
  let p := s.port
  let resp := match p.resp with
    | .prep r b => RespState.prep { r with refused := some seq } b
    | .pend r => RespState.pend { r with refused := some seq }
    | .empty => .empty
  (s.setPort { p with resp := resp }).count F.CP_REFUSED_COUNT

/-! ### The power state's check (check 6 of R178) -/

/-- The register address that a packet names. -/
def Packet.reg (p : Packet) : Nat := p.addr.toNat
/-- The store ID that a packet names. -/
def Packet.store (p : Packet) : Nat := p.addr.toNat / 2 ^ 24
/-- The store range that a packet names. -/
def Packet.extent (p : Packet) : Extent := ⟨p.store, p.addr.toNat % 2 ^ 24, p.len⟩

/-- The reset key: a single-register REG_WR of 0xA55A to SYS_SOFT_RESET (R685). -/
def Packet.isKey (p : Packet) : Bool :=
  p.opcode == 0x82 && p.reg == R.SYS_SOFT_RESET && p.len == 2 && natBE p.payload == 0xA55A

/-- Every register of a burst is one of `l`. -/
def Packet.within (p : Packet) (l : List Nat) : Bool := (List.range (p.len / 2)).all fun k => l.contains (p.reg + k)

/-- The registers that the port shows during Waking (R96). DEDUCED (log entry 18). -/
def wakingRegs : List Nat := [R.SYS_CHIP_ID, R.SYS_REV, R.SYS_UNITS, R.SYS_STATUS, R.SYS_RESET_CAUSE]

/-- A BULK_RD of the Colophon, and one of the Colophon or the LOG. -/
def Packet.readsColophon (p : Packet) : Bool := p.opcode == 0x84 && p.store == Store.colophon
/-- A BULK_RD of the Colophon or the LOG. -/
def Packet.readsLog (p : Packet) : Bool := p.opcode == 0x84 && (p.store == Store.colophon || p.store == Store.log)

/-- Table 03-6, and R99. DEDUCED (log entry 18). -/
def State.safeCheck (s : State) (p : Packet) : Nat :=
  let lockout := s.pwr.safeWhy == .lockout
  if p.opcode = 0x80 || p.opcode = 0x81 || p.opcode = 0x89 || p.readsLog then Status.ok
  else if p.opcode = 0x8A then s.shutdownCheck
  else if p.opcode = 0x8B then s.retryCheck
  else if p.opcode = 0x8C then s.bstRunCheck
  else if p.isKey then (if lockout then Status.lockout else Status.ok)
  else Status.safe

/-- What Dormant executes (R194): of REG_WR, single writes of the two registers, for a burst has none of the key's
exceptions (R685).  In lockout no SOFT reset starts, and WAKE_RETRY and BST_RUN are refused with LOCKOUT, which comes
before STATE (R101, R178). DEDUCED (log entry 18). -/
def State.dormantCheck (s : State) (p : Packet) : Nat :=
  if p.opcode = 0x80 || p.opcode = 0x81 || p.readsColophon then Status.ok
  else if s.flag F.SYS_RESET_CAUSE_LOCKOUT && (p.isKey || p.opcode == 0x8B || p.opcode == 0x8C) then Status.lockout
  else if p.opcode = 0x82 && p.len == 2 && (p.reg == R.PWR_CTRL || p.reg == R.SYS_SOFT_RESET) then Status.ok
  else Status.state

/-- The check of the power and clock state (check 6 of R178). DEDUCED (log entry 18). -/
def State.powerCheck (s : State) (p : Packet) : Nat :=
  match s.pwr.state with
  | .safe => s.safeCheck p
  | .waking | .off =>
    if (p.opcode = 0x81 && p.within wakingRegs) || p.readsColophon then Status.ok else Status.busy
  | .testing =>
    if p.opcode = 0x80 || p.opcode = 0x81 || p.opcode = 0x89 || p.readsLog || p.isKey then Status.ok else Status.busy
  | .dormant => s.dormantCheck p
  | _ =>
    if p.opcode = 0x8A then s.shutdownCheck
    else if p.opcode = 0x8B then s.retryCheck
    else if p.opcode = 0x8C then s.bstRunCheck
    else Status.ok

/-! ### What each opcode executes (Table 05-5) -/

/-- The apply point of TXN_COMMIT, by ADDR[1:0]. -/
def pointOf (a : Nat) : ApplyPoint :=
  match a % 4 with
  | 0 => .immediate
  | 1 => .nextLine
  | 2 => .nextFrame
  | _ => .atPosition

/-- TXN_COMMIT: the transaction state first, then ADDR[31:2], then the apply point (R168, R178, R210). -/
def State.commitPacket (s : State) (p : Packet) : Answer :=
  if s.bnd.txn = .open_ ∧ p.addr.toNat / 4 ≠ 0 then s.refuse Status.range
  else .of (s.txnCommit (pointOf p.addr.toNat) (BitVec.ofNat 48 (natBE p.payload)))

/-- WAKE_RETRY. -/
def State.retryPacket (s : State) (p : Packet) : Answer :=
  ⟨Status.ok, [], s.retryWake (if p.len = 0 then none else some (natBE p.payload))⟩

/-- A packet that passed checks 1 to 6 executes; of REG_RD and REG_WR, one whose last address would exceed 0xFF
(R180). -/
def State.execPacket (s : State) (p : Packet) (lost : Bool) : Answer :=
  match p.opcode with
  | 0x81 => s.refuse Status.range
  | 0x82 => s.refuse Status.range
  | 0x83 => s.regModify p.reg p.payload lost
  | 0x84 => s.bulkRead p.extent p.inspect
  | 0x85 => s.bulkWrite p.extent p.payload
  | 0x86 => .of s.txnBegin
  | 0x87 => s.commitPacket p
  | 0x88 => .of s.txnAbort
  | 0x89 => s.eventRead p.len p.inspect
  | 0x8A => ⟨Status.ok, [], s.shutdown⟩
  | 0x8B => s.retryPacket p
  | 0x8C => ⟨Status.ok, [], s.bstRun⟩
  | _ => ⟨Status.ok, [], s⟩

/-- The opcodes that write registers, and so can start a reset: REG_WR and REG_RMW. -/
def Packet.writes (p : Packet) : Bool := p.opcode == 0x82 || p.opcode == 0x83

/-- What follows an executed packet: LAST_SEQ, the kept copy, the response; none after a write that starts a reset,
after an uncorrectable read, and after a SHUTDOWN that entered Dormant (R118, R173 to R175, R575, R685). DEDUCED (log
entry 19). -/
def Answer.finish (r : Answer) (p : Packet) : State :=
  let t := r.state
  if p.writes && t.resetting then t
  else
    let u := t.setFld F.CP_STATUS_LAST_SEQ p.seq
    if !u.mem.failing.isEmpty || (p.opcode = 0x8A && u.pwr.state == .dormant) then u
    else
      let answer := Response.of p r.status r.data
      let u := u.setPort { u.port with
        kept := some (p.bytes, if p.wantsResponse then some answer else none) }
      if p.wantsResponse || r.status != Status.ok then u.prepare answer (p.opcode == 0x84 || p.opcode == 0x85) else u

/-- REG_RD or REG_WR, whose registers lie within the map. -/
def Packet.isBurst (p : Packet) : Bool := (p.opcode == 0x81 || p.opcode == 0x82) && decide (p.reg + p.len / 2 ≤ 0x100)

/-- The next register of the burst `b` (R180): the burst goes on in the next tick, with its response in preparation,
or it ends. A write that starts a reset ends it, and an uncorrectable read. The header status is that of the first
register that is not OK; a refusal since its start stands in the response (R172). -/
def State.burstNext (s : State) (b : Burst) : State :=
  let r := s.burstAccess b
  let b := { b with
    done := b.done + 1, status := if b.status = Status.ok then r.status else b.status, data := b.data ++ r.data }
  let refused (x : RespState) : RespState := match s.port.resp, x with
    | .prep o _, .prep n k => .prep { n with refused := o.refused } k
    | _, x => x
  let t := r.state
  if b.packet.writes && t.resetting then t
  else if b.done < b.packet.len / 2 ∧ t.mem.failing = [] then
    t.setPort { t.port with
      burst := some b
      resp := if b.packet.wantsResponse then refused (.prep (Response.of b.packet Status.ok []) false) else .empty }
  else
    let t := Answer.finish ⟨b.status, b.data, t.setPort { t.port with burst := none, resp := .empty }⟩ b.packet
    t.setPort { t.port with resp := refused t.port.resp }

/-- The burst under way takes its next register. -/
def State.burstStep (s : State) : State :=
  match s.port.burst with
  | some b => s.burstNext b
  | none => s

/-- The registers that are left of a burst, where its response is ready or the next packet is there. DESIGN CHOICE (log
entry 15). -/
def State.endBurst (s : State) : State :=
  match s.port.burst with
  | some b => (List.range (b.packet.len / 2 - b.done)).foldl (fun t _ => t.burstStep) s
  | none => s

/-- RESP_READY: the response becomes pending and raises its attention cause (R173, R190). DESIGN CHOICE (log entry
15). -/
def State.respReady (s : State) : State :=
  let t := s.dueApply.endBurst
  match t.port.resp with
  | .prep r _ => t.setPort { t.port with resp := .pend r, ready := true, undo := [] }
  | _ => t

/-- A packet that is no repeat: checks 4 to 6, then it executes. -/
def State.freshPacket (s : State) (p : Packet) (lost : BitVec 32) : State :=
  match p.check with
  | some e => s.fail p e
  | none =>
    if s.powerCheck p ≠ Status.ok then s.fail p (s.powerCheck p)
    else if p.isBurst then s.burstNext ⟨p, 0, Status.ok, [], lost⟩
    else (s.execPacket p (lost.getLsbD 0)).finish p

/-- A packet whose CRC is right: a repeated one is answered again and does not execute (R175). DEDUCED (log entry
16). -/
def State.runPacket (s : State) (p : Packet) (lost : BitVec 32) : State :=
  let s := s.dueApply
  match s.port.kept with
  | some (b, some r) =>
    if b = p.bytes then s.prepare { r with repeated := true, refused := none } false else s.freshPacket p lost
  | some (b, none) => if b = p.bytes then s else s.freshPacket p lost
  | none => s.freshPacket p lost

/-! ### A slot's end (R164, R172, R178, R191) -/

/-- A response is in preparation (R172). -/
def RespState.isPrep : RespState → Bool
  | .prep _ _ => true
  | _ => false

/-- The state in which a packet meets the response pipeline: a burst without a response has ended by then. DESIGN CHOICE
(log entry 15). -/
def State.atPacket (s : State) : State := if s.port.prepAtBegin then s else s.endBurst

/-- A response was in preparation when the slot began, or one pending then is still held (R172); or a burst without a
response that the slot has met now has one, for its failure. DEDUCED (log entry 16). -/
def State.pipelineFull (s : State) : Bool :=
  s.port.prepAtBegin || s.port.resp.isPrep || s.port.pendAtBegin && s.port.resp != .empty

/-- A packet with the right length reaches the device: it is refused, fails its CRC, or runs.  The reset key executes
past a held response, where the checks let it (R172, R685). DEDUCED (log entry 16). -/
def State.takePacket (s : State) (p : Packet) (crcOk : Bool) (lost : BitVec 32) : State :=
  let s := s.atPacket
  let injected := (s.injArg 0x0D).isSome
  let keyActs := p.isKey && crcOk && !injected && p.check == none && s.powerCheck p == Status.ok
  if s.pipelineFull && !keyActs then s.refusePacket p.seq
  else if hasPayload p.opcode && maxPayload < p.len then s.fail p Status.length
  else if !crcOk || injected then
    ((if injected then s.injDone else s).portError F.CP_ERR_CRC_ERRS).fail p Status.crc
  else s.runPacket p lost

/-- A packet cut short (R191): OPCODE and FLAGS as received, 0 for a byte not received in full. -/
def State.takeShort (s : State) (b : List Byte) : State :=
  let p : Packet := { opcode := (b.getD 0 0).toNat, flags := b.getD 1 0, addr := 0, len := 0, payload := [] }
  let s := s.atPacket
  if s.pipelineFull then s.refusePacket p.seq
  else (s.portError F.CP_ERR_FRAME_ERRS).fail p Status.short

/-- A slot whose bits are a packet. -/
def State.packetBits (s : State) (sdi : List Bool) : State :=
  let b := wholeBytes (sdi.length / 8) sdi
  let p := Packet.ofBytes b
  let size := 10 + (if hasPayload p.opcode then p.len else 0)
  if sdi.length % 8 ≠ 0 ∨ b.length < 8 ∨ b.length < size then s.takeShort b
  else s.takePacket p (crc16 (b.take (size - 2)) == BitVec.ofNat 16 (natBE ((b.drop (size - 2)).take 2))) 0

/-! ### Short frames (R185 to R189) -/

/-- Why a short frame has no effect, the equivalent packet being `p` (R186, R188). -/
def State.shortRefused (s : State) (p : Packet) : Bool :=
  (match s.port.resp with
    | .prep _ bulk => bulk
    | _ => false) || s.powerCheck p != Status.ok

/-- The packet that is equivalent to a short frame. -/
def shortPacket (op : Nat) (a : BitVec 7) : Packet :=
  { opcode := op, flags := 0, addr := a.setWidth 32, len := 2, payload := [] }

/-- SDO of a short-frame read: bit 23 is undefined, the address bits are 0, then the value (Table 05-10).  A response
under delivery is cut off. DESIGN CHOICE (log entry 12). -/
def State.sendShort (s : State) (n : Nat) : State :=
  s.spent.setPort { s.port with pendAtBegin := false, sdo := (if Config.freeBool s.free then 0x80 else 0) :: wordBytes n }

/-- A short-frame read at its 8th SDI bit: SDO carries the value in the same frame. DESIGN CHOICE (log entry 14). -/
def State.shortRead (s : State) (a : BitVec 7) : State :=
  let s := s.slotBegin
  if !s.port.inSlot || !s.flag F.CP_MODE_LEGACY_EN then s
  else
    let s := s.dueApply
    if 0x60 ≤ a.toNat then s.sendShort 0
    else if s.shortRefused (shortPacket 0x81 a) then (s.setFlag F.CP_STATUS_SF_REFUSED true).sendShort 0
    else
      let r := s.hostRead .port false a.toNat
      r.2.sendShort r.1.toNat

/-- A short-frame write when SCS_N rises. -/
def State.shortWrite (s : State) (a : BitVec 7) (v : Word) (lost : Bool) : State :=
  if !s.flag F.CP_MODE_LEGACY_EN then s.portError F.CP_ERR_FRAME_ERRS
  else if 0x60 ≤ a.toNat then s
  else
    let s := s.dueApply
    if s.shortRefused (shortPacket 0x82 a) then s.setFlag F.CP_STATUS_SF_REFUSED true
    else
      let r := s.writeReg .port a.toNat v lost
      if r.1 = Status.ok then r.2 else r.2.setFlag F.CP_STATUS_SF_REFUSED true

/-! ### Whole slots -/

/-- The pending response released where the slot's `n` bits have shifted it out in full (R171). -/
def State.shiftedOut (s : State) (n : Nat) : State :=
  if s.port.pendAtBegin && decide (8 * s.port.sdo.length ≤ n) then s.setPort s.port.release else s

/-- What a slot whose first bit is 1 holds (R164): a short-frame write, a fetch, or a packet. -/
def State.slotBits (s : State) (sdi : List Bool) : State :=
  let s := s.shiftedOut sdi.length
  if sdi.length = 24 then
    s.shortWrite (BitVec.ofNat 7 (byteOf (sdi.take 8)).toNat)
      (BitVec.ofNat 16 (natBE (wholeBytes 2 (sdi.drop 8)))) false
  else if (sdi.take 8).all id then s
  else s.packetBits sdi

/-- SCS_N rises: the slot is classified by its first bit and its count of SCK edges. DESIGN CHOICE (log entry 14). -/
def State.slotEnd (s : State) (sdi : List Bool) : State :=
  if !s.port.inSlot then s
  else match sdi with
    | [] => s.ignoreSlot
    | false :: _ =>
      let s := if s.flag F.CP_MODE_LEGACY_EN then s else s.shiftedOut sdi.length
      (if sdi.length = 24 ∧ s.flag F.CP_MODE_LEGACY_EN = true then s
        else s.portError F.CP_ERR_FRAME_ERRS).closeSlot
    | true :: _ => (s.slotBits sdi).closeSlot

/-- A whole slot that carries the packet, and collects any pending response in full. DESIGN CHOICE (log entries 5 and
14). -/
def State.packetSlot (s : State) (p : Packet) (lost : BitVec 32) : State :=
  let t := s.slotBegin
  if !t.port.inSlot then s
  else ((t.setPort t.port.release).takePacket p true lost).closeSlot

/-- A whole slot that carries a short-frame write. DESIGN CHOICE (log entry 14). -/
def State.shortWriteSlot (s : State) (a : BitVec 7) (v : Word) (lost : Bool) : State :=
  let t := s.slotBegin
  if !t.port.inSlot then s else (t.shortWrite a v lost).closeSlot

end Sys2Proof.Machine
end

