-- ==== Sys2Proof/Machine/Tick.lean ====
section
/-! DEFINITION.
One tick of SCLK in which no command comes: what the spec moves on in every tick, and what falls due in the tick after
a command.  Everything else that time brings has a command of its own.  The commands between two ticks belong to the
tick that the one before them opened.
-/
namespace Sys2Proof.Machine

/-- A FAULT reset that no watchdog period started (R574). DEDUCED (log entry 6). -/
def State.faultReset (s : State) : State := s.startReset .fault false

/-- CLK_TIME counts once the device has reached Armed, except while it holds (R139, R142, R150); `now` counts every
tick. -/
def Clock.tick (x : Clock) : Clock :=
  { x with now := x.now + 1, time := if x.started && !x.held then x.time + 1 else x.time }

/-- A pending injection 0x07 declares its loss in a tick of TRACK (Table 19-6). DESIGN CHOICE (log entry 40). -/
def State.injectedLoss (s : State) : State :=
  if (s.injArg 0x07).isSome && s.analog && s.pos.state == .track && !s.still then s.injDone.encHold true else s

/-- The scrubber's pass grows by a tick while it is not paused (R579). -/
def State.passTick (s : State) : State :=
  if s.scrubs then s.setMem { s.mem with elapsed := s.mem.elapsed + 1 } else s

/-! ### The end of a tick -/

/-- Line `n`, if it can carry events, carried one in the lines `ls`. -/
def State.carried (s : State) (ls : BitVec 64) (n : Nat) : Bool := s.lineExists n && ls.getLsbD n

/-- The end of a tick: what the position unit decides (R425, R426), what its events do in it to the aux converters
(R447, R462), and what later ticks need of it (R146, R506). DESIGN CHOICE (log entry 2). -/
def State.closeTick (s : State) : State :=
  let t := s.posClose
  let t := t.injEvents t.lines
  let t := (if t.carried t.lines (t.fld F.AUX_FLASH_STOP) then t.stopNow else t).agtClose
  { t with past := (t.nowPast :: t.past).take 3 }

/-! ### The beginning of a tick -/

/-- The marks of the tick before are gone, and the events of the engines' rows come in (R509, R633). -/
def State.openTick (s : State) : State :=
  let t := { s with
    fresh := [], spn := s.spn.newTick, exp := { s.exp with fired := false }, pos := { s.pos with was := none }
    aux := { s.aux with taken := 0 } }
  t.agtOpen

/-- The synchronised edges of AG0 to AG7 in this tick (R384): rising, falling.  One with 2 tk at each level counts; a
shorter one may or may not. DESIGN CHOICE (log entry 12). -/
def State.landEdges (s : State) : Byte × Byte × State :=
  let x (k : Nat) : Byte := s.agt.samples.getD k 0
  let new := s.levels
  let old := x 2
  let change := new ^^^ old
  let short := change &&& ((x 0 ^^^ new) ||| (x 3 ^^^ old))
  let seen := (change &&& ~~~short) ||| (short &&& (Config.freeWord s.free).setWidth 8)
  (seen &&& new, seen &&& old, if short = 0 then s else s.spent)

/-- Lines 48 to 55 carry the rising edges of AG0 to AG7 (R401, Table 11-7). -/
def State.raiseLands (s : State) (rise : Byte) : State := { s with lines := s.lines ||| (rise.setWidth 64 <<< 48) }

/-- What the events of three ticks ago bring to the exposure and the flash monitor (R146, R278, R462), and the timers'
own. -/
def State.lateEvents (s : State) : State :=
  let ls := (s.past[2]?.map Past.lines).getD 0
  let event := s.fld F.EXP_SCHED_EVENT
  let t := if s.carried ls (s.fld F.AUX_FLASH_STOP) then s.stopPast else s
  let t := if t.carried ls ((event + 1) % 64) then t.legacyEnd else t
  let t := if t.carried ls event then t.trigger else t
  t.freeTrigger.timerTick

/-- The units' work of a tick (R210, R379 to R402, R419, R425): `ls` are the lines of the tick before, which counters
and captures take now; an apply comes first, and the steps of its tick use the old settings (R391); the host comes
last, with the next register of a burst (R180, R632). -/
def State.unitTick (s : State) (ls : BitVec 64) : State :=
  let t := s.dueApply.injectedLoss.agtDrive
  let e := t.landEdges
  let t := e.2.2.raiseLands e.1
  let p := s.pos.p
  let t := t.posTick.spineTick s p ls e.1 e.2.1
  (t.atPosition.lateEvents.tempTick.passTick.compileStep).drained.burstStep

/-- One tick ends and the next begins: the FAULT reset that an uncorrectable error has left due (R574), or the units'
work. DESIGN CHOICE (log entries 2 and 5); DEDUCED (log entry 6). -/
def State.tick (s : State) : State :=
  let t := s.closeTick
  let t := t.setClk t.clk.tick
  if t.mem.failing.isEmpty then t.openTick.unitTick t.lines else t.faultReset

end Sys2Proof.Machine
end

