-- ==== Sys2Proof/Machine/HostAccess.lean ====
section
/-! DEFINITION.
The accesses that the commands of register writes and reads make: through the control port or through the
peripheral-bus target, as the power state lets them, and the target's own transfers (R545, R546).
-/
namespace Sys2Proof.Machine

/-! ### Packets named by commands -/

/-- A packet without payload. -/
def plainPacket (op : Nat) (flags : Byte) (addr : BitVec 32) (len : Word) : Packet :=
  { opcode := op, flags := flags, addr := addr, len := len.toNat, payload := [] }

/-- A packet with its payload. -/
def dataPacket (op : Nat) (flags : Byte) (addr : BitVec 32) (payload : List Byte) : Packet :=
  { opcode := op, flags := flags, addr := addr, len := payload.length, payload := payload }

/-! ### Where the routes are open (Table 03-6, R96, R101, R194, R534, R595) -/

/-- A write of the reset key starts a SOFT reset: not while Waking, not in lockout, not through a mute port (R98). -/
def State.keyOpen (s : State) : Bool :=
  !s.pwr.mute && match s.pwr.state with
  | .safe => s.pwr.safeWhy != .lockout
  | .dormant => !s.flag F.SYS_RESET_CAUSE_LOCKOUT
  | .waking | .off => false
  | _ => true

/-- A write to the register at `a` by the route reaches the registers. -/
def State.writeOpen (s : State) (route : Route) (a : Nat) : Bool :=
  match route with
  | .port => (s.up || (s.pwr.state == .dormant && a == R.PWR_CTRL) || (a == R.SYS_SOFT_RESET && s.keyOpen)) && !s.pwr.mute
  | .target => s.busOn

/-- A read by the port reaches the registers with their side effects; a mute port has none (R98). -/
def State.readOpen (s : State) : Bool := (s.up || s.pwr.state == .testing || s.pwr.state == .safe) && !s.pwr.mute

/-- A target write that is not OK: TGT_REF, and its code (R546). DESIGN CHOICE (log entry 24). -/
def State.targetRefused (s : State) (e : Nat) : State :=
  (s.setFlag F.PB_STATUS_TGT_REF true).setFld F.PB_STATUS_TGT_STATUS e

/-- A write of the bits `m` of the register at `a`; what it answers beside its effect is dropped, but for a refusal by
the target route. DESIGN CHOICE (log entry 24). -/
def State.hostWrite (s : State) (route : Route) (a : Nat) (v m : Word) (lost : Bool) : State :=
  if s.writeOpen route a then
    let r := s.dueApply.writeMasked route a v m lost
    if route = .target ∧ r.1 ≠ Status.ok then r.2.targetRefused r.1 else r.2
  else s

/-- A write of a whole register by the port. DESIGN CHOICE (log entry 24). -/
def State.portWrite (s : State) (a : Nat) (v : Word) (lost : Bool) : State := s.hostWrite .port a v 0xFFFF lost

/-- A read without INSPECT of the register at `a` by the port. DESIGN CHOICE (log entry 24). -/
def State.portRead (s : State) (a : Nat) : State :=
  if s.readOpen then (s.dueApply.hostRead .port false a).2 else s

/-- Whether the register at an address, legacy aliases included, has an RC field (Table 06-4). -/
def readClears (a : Nat) : Bool :=
  let b := match aliasAt a with
    | some x => x.addr
    | none => a
  accessMask b .rc != 0 || b == R.MEM_INFO

/-- A WRITE of PB_XFER with the operation `op`. -/
def xferWord (op : Nat) (wlen rlen : BitVec 6) : Word := BitVec.ofNat 16 (op * 2 ^ 14 + wlen.toNat * 2 ^ 8 + rlen.toNat)

/-! ### The position part of POS_DATA and the capture part of SPN_K_DATA, as their commands name them -/

/-- A write of POS_DATA part 2 (R423). DESIGN CHOICE (log entry 24). -/
def State.presetWrite (s : State) (v : Word) (lost : Bool) : State :=
  if s.up && !lost then (s.dueApply.preset (join48 s.pos.holdHi s.pos.holdMid v)).atPosition else s

/-- A write of SPN_K_CFG of the pair that SPN_SEL.CAP names (R406). DESIGN CHOICE (log entry 24). -/
def State.captureWrite (s : State) (v : Word) : State :=
  if s.up then s.dueApply.writeCaptureCfg (s.fld F.SPN_SEL_CAP) v else s

/-! ### Injections by command (R627 to R631) -/

/-- An injection fired with its argument. -/
def State.injectRow (s : State) (det : Nat) (arg : Word) : State :=
  if s.up then (s.dueApply.fire det arg.toNat).2 else s

/-! ### Target transfers (Table 16-4) -/

/-- A register write by the target at the pointer: acknowledged where its status is OK; the pointer advances; after a
low byte that is not acknowledged nothing more is until the next START. DEDUCED (log entry 39). -/
def State.targetWrite (s : State) (v : Word) (lost : Bool) : State :=
  if !s.targetOn || s.pb.target == .written true then s
  else if 0x100 ≤ s.pb.pointer then s.setPB { s.pb with target := .written true }
  else
    let r := s.dueApply.writeReg .target s.pb.pointer v lost
    if !r.2.busOn then r.2
    else if r.1 = Status.ok then r.2.setPB { r.2.pb.advance with target := .written false }
    else (r.2.targetRefused r.1).setPB { r.2.pb.advance with target := .written true }

/-- A register read by the target at the pointer, which advances; past the end nothing happens. DEDUCED (log entry
39). -/
def State.targetRead (s : State) : State :=
  if !s.targetOn then s
  else
    let t := if s.pb.pointer < 0x100 then (s.dueApply.readReg .target false s.pb.pointer).2 else s
    t.setPB { t.pb.advance with target := .readOut }

/-! ### REFCLK (R140) -/

/-- A relock that has not locked 2.0 ms after it began. -/
def State.relockTimeout (s : State) : State := if s.clk.relocking then s.refclkLoss lossFrequency else s

/-- A committed transaction whose apply point has come applies (R210, R211, R214); NEXT_LINE and NEXT_FRAME apply with
the exposure start that they wait for, and stay pending until then (R212, R213). -/
def State.applyDue (s : State) : State :=
  match s.bnd.point with
  | .immediate => s.dueApply
  | .atPosition => s.atPosition
  | _ => s

end Sys2Proof.Machine
end

