-- ==== Sys2Proof/Machine/BinderyCommands.lean ====
section
/-! DEFINITION.
The commands of transactions, bank syncs, the watchdog and the legacy column window (chapters 06 and 07).
-/
namespace Sys2Proof.Machine

/-- BND_TXN_TMO_EXPIRY (R219): The transaction timeout expires in OPEN: the transaction is rolled back and the state
becomes TIMED_OUT. -/
def execBndTxnTmoExpiry (s : State) : Host.Outcome State Fault Refusal :=
  .next (s.txnTimeout)

/-- TXN_APPLY (R211): In the apply tick all staged values go live at once, banked stores swap and BND_GEN
increments. -/
def execTxnApply (s : State) : Host.Outcome State Fault Refusal :=
  .next (s.applyDue)

/-- BANK_SYNC_START (R218): Once no frame context uses the old active bank, the bank sync copy begins. -/
def execBankSyncStart (store : BankedStore) (s : State) : Host.Outcome State Fault Refusal :=
  .next (s.syncStart store)

/-- BANK_SYNC_DONE (R218): The bank sync copy ends and BND_STATUS.SYNC clears. -/
def execBankSyncDone (store : BankedStore) (s : State) : Host.Outcome State Fault Refusal :=
  .next (s.syncDone store)

/-- BND_WDOG_ENABLE (R225): A write of 1 to BND_WDOG.EN starts the first watchdog period. -/
def execBndWdogEnable (period : BitVec 10) (s : State) : Host.Outcome State Fault Refusal :=
  .next (s.portWrite R.BND_WDOG (BitVec.ofNat 16 (0x8000 + period.toNat)) false)

/-- BND_WDOG_KICK (R224): A write of 0xC3C3 restarts the watchdog period. -/
def execBndWdogKick (s : State) : Host.Outcome State Fault Refusal :=
  .next (s.portWrite R.BND_WDOG_KICK 0xC3C3 false)

/-- BND_WDOG_EXPIRY (R224): A period ends without a kick: a WATCHDOG fault-log entry is written and a FAULT reset
starts. -/
def execBndWdogExpiry (s : State) : Host.Outcome State Fault Refusal :=
  .next (s.wdogExpiry)

/-- LEG_COL_WINDOW_WRITE (R260): A write of a legacy column-window register translates S and E into QR_ENABLE and
each quire's column window. -/
def execLegColWindowWrite (last : Bool) (value : Word) (s : State) : Host.Outcome State Fault Refusal :=
  .next (s.portWrite (if last then R.LEG_COL_LAST else R.LEG_COL_FIRST) value false)

end Sys2Proof.Machine
end

