-- ==== Sys2Proof/Machine/BusCommands.lean ====
section
/-! DEFINITION.
The commands of the peripheral bus (chapter 16); a test run that waits for the bus goes on after it (R599).
-/
namespace Sys2Proof.Machine

/-- PB_XFER_WRITE (R537): PB_XFER OP WRITE starts a host controller write of WLEN buffer bytes. -/
def execPbXferWrite (wlen : BitVec 6) (rlen : BitVec 6) (s : State) : Host.Outcome State Fault Refusal :=
  .next (s.portWrite R.PB_XFER (xferWord 1 wlen rlen) false)

/-- PB_XFER_READ (R537): PB_XFER OP READ starts a host controller read of RLEN bytes into the buffer. -/
def execPbXferRead (wlen : BitVec 6) (rlen : BitVec 6) (s : State) : Host.Outcome State Fault Refusal :=
  .next (s.portWrite R.PB_XFER (xferWord 2 wlen rlen) false)

/-- PB_XFER_WRITE_READ (R537): PB_XFER OP WRITE_READ starts a write, repeated START and read. -/
def execPbXferWriteRead (wlen : BitVec 6) (rlen : BitVec 6) (s : State) : Host.Outcome State Fault Refusal :=
  .next (s.portWrite R.PB_XFER (xferWord 3 wlen rlen) false)

/-- PB_XFER_ABORT (R543): PB_XFER OP = 0 aborts a running host transfer after the current byte. -/
def execPbXferAbort (wlen : BitVec 6) (rlen : BitVec 6) (s : State) : Host.Outcome State Fault Refusal :=
  .next (s.portWrite R.PB_XFER (xferWord 0 wlen rlen) false)

/-- PB_DATA_WRITE (R537): A write of PB_DATA stores two buffer bytes and advances PTR. -/
def execPbDataWrite (value : Word) (s : State) : Host.Outcome State Fault Refusal :=
  .next (s.portWrite R.PB_DATA value false)

/-- PB_DATA_POP (R537): A read of PB_DATA returns two buffer bytes and advances PTR. -/
def execPbDataPop (s : State) : Host.Outcome State Fault Refusal :=
  .next (s.portRead R.PB_DATA)

/-- PB_BUS_FREE (R538): The bus is free, so a waiting controller transfer sends its START. -/
def execPbBusFree (s : State) : Host.Outcome State Fault Refusal :=
  .next (s.busFree.afterBus)

/-- PB_ARB_LOST (R540): The device loses arbitration in a bit, abandons the attempt and may become the target. -/
def execPbArbLost (winner : Option Byte) (s : State) : Host.Outcome State Fault Refusal :=
  .next ((s.arbLost winner).afterBus)

/-- PB_BACKOFF_END (R540): The backoff after bus free ends and the transfer starts again. -/
def execPbBackoffEnd (s : State) : Host.Outcome State Fault Refusal :=
  .next (s.backoffEnd.afterBus)

/-- PB_ARB_SR (R541): Arbitration is lost at a STOP or repeated START, and the transfer ends without retry. -/
def execPbArbSr (s : State) : Host.Outcome State Fault Refusal :=
  .next (s.arbSr.afterBus)

/-- PB_DONE (R537): A controller transfer ends: BUSY clears, DONE sets and ERR takes the outcome. -/
def execPbDone (outcome : BusEnd) (s : State) : Host.Outcome State Fault Refusal :=
  .next ((s.busDone outcome).afterBus)

/-- PB_ACK_POLL (R556): After a write to the EEPROM the device polls until it acknowledges, or 25 ms pass. -/
def execPbAckPoll (acknowledged : Bool) (s : State) : Host.Outcome State Fault Refusal :=
  .next ((s.pollEnd acknowledged).afterBus)

/-- PB_BUS_RECOVERY (R555): With SDA low, the device sends up to nine SCL pulses and a STOP, or reports SDA_STUCK. -/
def execPbBusRecovery (freed : Bool) (s : State) : Host.Outcome State Fault Refusal :=
  .next ((s.recovered freed).afterBus)

/-- SCL_STUCK (R557): SCL held low for 25 ms ends the transfer with SCL_STUCK. -/
def execSclStuck (s : State) : Host.Outcome State Fault Refusal :=
  .next (s.sclStuck.afterBus)

/-- PB_TARGET_WRITE (R545): A byte pair from another controller executes a register write at the pointer. -/
def execPbTargetWrite (high : Byte) (low : Byte) (lost : Bool) (s : State) : Host.Outcome State Fault Refusal :=
  .next (s.targetWrite (high ++ low) lost)

/-- PB_TARGET_READ (R545): A target read executes a register read at the pointer and advances it. -/
def execPbTargetRead (s : State) : Host.Outcome State Fault Refusal :=
  .next (s.targetRead)

/-- PB_TARGET_POINTER (R545): The first byte of a target write sets the register pointer. -/
def execPbTargetPointer (pointer : Byte) (s : State) : Host.Outcome State Fault Refusal :=
  .next (s.targetPointer pointer)

/-- PB_TARGET_STOP (R545): Another controller sends a STOP or repeated START after a lone high byte of a target
write, and the device discards the held byte and ends the target transfer. -/
def execPbTargetStop (s : State) : Host.Outcome State Fault Refusal :=
  .next (s.targetStop)

end Sys2Proof.Machine
end

