-- ==== Sys2Proof/Machine/EngineCommands.lean ====
section
/-! DEFINITION.
The commands of the Agate engines (chapter 15).
-/
namespace Sys2Proof.Machine

/-- AGT_START (R501): AGT_GO START makes a halted engine RUNNING from the next tick. -/
def execAgtStart (mask : BitVec 4) (s : State) : Host.Outcome State Fault Refusal :=
  .next (s.hostWrite .port R.AGT_GO (mask.setWidth 16) 0x000F false)

/-- AGT_STEP (R501): AGT_GO STEP gives a halted engine exactly one row slot. -/
def execAgtStep (mask : BitVec 4) (s : State) : Host.Outcome State Fault Refusal :=
  .next (s.hostWrite .port R.AGT_GO (mask.setWidth 16 <<< 8) 0x0F00 false)

/-- AGT_HALT (R517): AGT_GO HALT requests a halt, which takes effect at the first unlocked row or after 32 rows. -/
def execAgtHalt (mask : BitVec 4) (s : State) : Host.Outcome State Fault Refusal :=
  .next (s.hostWrite .port R.AGT_GO (mask.setWidth 16 <<< 4) 0x00F0 false)

/-- AGT_FORCE_HALT (R518): A write of AGT_FORCE_HALT halts the engine at once, breaking a lock if needed. -/
def execAgtForceHalt (mask : BitVec 4) (s : State) : Host.Outcome State Fault Refusal :=
  .next (s.portWrite R.AGT_FORCE_HALT (mask.setWidth 16) false)

/-- AGT_CYCLE (R506): At each cycle tick the row at PC waits or executes and chooses the next PC. -/
def execAgtCycle (engine : Fin 4) (pins edges : Byte) (s : State) : Host.Outcome State Fault Refusal :=
  .next ((s.atPins pins edges).engineCycle engine.val false)

/-- AGT_WAIT_LIMIT (R507): A row's wait limit expires: the row executes, sets WAIT_TMO and goes to TARGET. -/
def execAgtWaitLimit (engine : Fin 4) (pins edges : Byte) (s : State) : Host.Outcome State Fault Refusal :=
  .next ((s.atPins pins edges).waitLimit engine.val)

/-- AGT_INJECT_PART (R520): A write of AGT_INJECT adds one quarter of an injected row, and the fourth makes it
pending. -/
def execAgtInjectPart (value : Word) (s : State) : Host.Outcome State Fault Refusal :=
  .next (s.portWrite R.AGT_INJECT value false)

/-- AGT_INJECTED_ROW (R520): A pending injected row executes once at the first unlocked cycle tick, or in a halted
engine. -/
def execAgtInjectedRow (engine : Fin 4) (pins : Byte) (s : State) : Host.Outcome State Fault Refusal :=
  .next ((s.atPins pins 0).injectedRow engine.val)

/-- AGT_SEL_WRITE (R520): A write of AGT_SEL selects the engine and clears held injection parts. -/
def execAgtSelWrite (value : Word) (s : State) : Host.Outcome State Fault Refusal :=
  .next (s.portWrite R.AGT_SEL value false)

/-- AGT_FIFO_PUSH (R521): A host write of AGT_FIFO appends an entry, or sets FIFO_OVER. -/
def execAgtFifoPush (value : Word) (s : State) : Host.Outcome State Fault Refusal :=
  .next (s.portWrite R.AGT_FIFO value false)

/-- AGT_FIFO_POP (R521): A host read of AGT_FIFO removes the oldest entry, or sets FIFO_UNDER. -/
def execAgtFifoPop (s : State) : Host.Outcome State Fault Refusal :=
  .next (s.portRead R.AGT_FIFO)

end Sys2Proof.Machine
end

