-- ==== Sys2Proof/Machine/ImagingCommands.lean ====
section
/-! DEFINITION.
The commands of exposure, readout, lanes and the defect table (chapters 08 to 10).
-/
namespace Sys2Proof.Machine

/-- RUN_START (R272): EXP_CTRL.RUN = 1 in Armed moves the device to Streaming, or is refused. -/
def execRunStart (s : State) : Host.Outcome State Fault Refusal :=
  .next (s.hostWrite .port R.EXP_CTRL 1 1 false)

/-- RUN_STOP (R273): EXP_CTRL.RUN = 0 stops accepting triggers while frames in progress complete. -/
def execRunStop (s : State) : Host.Outcome State Fault Refusal :=
  .next (s.hostWrite .port R.EXP_CTRL 0 1 false)

/-- STREAM_DRAINED (R273): The last folio of the last frame has been handed: BUSY clears and STATE returns to Armed.
-/
def execStreamDrained (s : State) : Host.Outcome State Fault Refusal :=
  .next (s.drained)

/-- FREE_RUN_EXPIRY (R276): The free-run timer expires, gives a trigger and reloads from EXP_PERIOD. -/
def execFreeRunExpiry (s : State) : Host.Outcome State Fault Refusal :=
  .next (s.freeRun)

/-- TRIGGER (R285): An event on the trigger line reaches the quires and is decided once: start, drop, stretch or
hold. -/
def execTrigger (s : State) : Host.Outcome State Fault Refusal :=
  .next (s.trigger)

/-- EXPOSURE_END (R285): The exposure duration or stretch ends: charge moves to the storage nodes and readout
begins. -/
def execExposureEnd (s : State) : Host.Outcome State Fault Refusal :=
  .next (s.exposureEnd)

/-- LEGACY_END_EVENT (R278): In LEGACY mode an event on line EVENT + 1 ends the running exposure, no sooner than 250
tk. -/
def execLegacyEndEvent (s : State) : Host.Outcome State Fault Refusal :=
  .next (s.legacyEnd)

/-- SUB_EXPOSURE_START (R290): The next sub-exposure of a multi-exposure frame starts once its transfer cannot wait
for the storage nodes. -/
def execSubExposureStart (s : State) : Host.Outcome State Fault Refusal :=
  .next (s.subStart)

/-- PAIR_CONVERSION_END (R259): A row pair finishes converting, its digital path runs and the next pair starts in
the same tick. -/
def execPairConversionEnd (samples : Samples) (s : State) : Host.Outcome State Fault Refusal :=
  .next (s.pairEnd samples)

/-- FOLIO_HANDED (R361): A folio's EOF has been sent: a marker follows and the next folio or spilled folio may
leave. -/
def execFolioHanded (lane : Fin 12) (s : State) : Host.Outcome State Fault Refusal :=
  .next (s.handed lane.val)

/-- MARKER_ORDERED_SET (R346): A lane sends a /M/ marker with its state and number, where a changed lane bias takes
effect. -/
def execMarkerOrderedSet (lane : Fin 12) (s : State) : Host.Outcome State Fault Refusal :=
  .next (s.marker lane.val)

/-- DEF_LOAD (R323): A write of CNV_DEF_STATUS.DEF_LOAD = 1 starts a compile of the DEFECT store. -/
def execDefLoad (s : State) : Host.Outcome State Fault Refusal :=
  .next (s.hostWrite .port R.CNV_DEF_STATUS 0x8000 0x8000 false)

/-- DEF_COMPILE_DONE (R323): The defect compile ends and the compiled table goes into force. -/
def execDefCompileDone (s : State) : Host.Outcome State Fault Refusal :=
  .next (s.compileDone)

end Sys2Proof.Machine
end

