-- ==== Sys2Proof/Machine/IntegrityCommands.lean ====
section
/-! DEFINITION.
The commands of memory integrity, self-test and injections (chapters 17 to 19).
-/
namespace Sys2Proof.Machine

/-- SCRUB_VISIT (R579): The scrubber interval ends and the scrubber reads the next word of its walk. -/
def execScrubVisit (s : State) : Host.Outcome State Fault Refusal :=
  .next (s.scrubVisit)

/-- CORRECTED_WRITEBACK (R573): The corrected word is written back at scrubber priority, unless a write cancels it. -/
def execCorrectedWriteback (s : State) : Host.Outcome State Fault Refusal :=
  .next (s.writeBack)

/-- MEM_FLIP_MASK_WRITE (R586): A write of MEM_FLIP_MASK arms or disarms a flip for the selected store. -/
def execMemFlipMaskWrite (value : Word) (s : State) : Host.Outcome State Fault Refusal :=
  .next (s.portWrite R.MEM_FLIP_MASK value false)

/-- MEM_RAW_WRITE (R588): A write of MEM_RAW switches raw mode for a store on or off. -/
def execMemRawWrite (value : Word) (s : State) : Host.Outcome State Fault Refusal :=
  .next (s.portWrite R.MEM_RAW value false)

/-- SLT_RETIRE_WRITE (R584): A write of SLT_RETIRE retires or returns pages of the selected group. -/
def execSltRetireWrite (value : Word) (s : State) : Host.Outcome State Fault Refusal :=
  .next (s.portWrite R.SLT_RETIRE value false)

/-- TEST_STEP_END (R596): A test run step ends and the next starts; after step 7 the run ends in Armed, Safe or
Dormant. -/
def execTestStepEnd (found : Measured) (s : State) : Host.Outcome State Fault Refusal :=
  .next (s.testStep found)

/-- INJ_SUPPLY_WARN (R628): Injection 0x00 asserts the supply warning for ARG µs. -/
def execInjSupplyWarn (arg : Word) (s : State) : Host.Outcome State Fault Refusal :=
  .next (s.injectRow 0x00 arg)

/-- INJ_CP1 (R628): Injection 0x01 makes CP1_OK read 0 for ARG µs. -/
def execInjCp1 (arg : Word) (s : State) : Host.Outcome State Fault Refusal :=
  .next (s.injectRow 0x01 arg)

/-- INJ_CP2 (R628): Injection 0x02 makes CP2_OK read 0 for ARG µs. -/
def execInjCp2 (arg : Word) (s : State) : Host.Outcome State Fault Refusal :=
  .next (s.injectRow 0x02 arg)

/-- INJ_DURATION_END (R628): The ARG µs of an injected warning or pump fault end. -/
def execInjDurationEnd (det : Fin 3) (s : State) : Host.Outcome State Fault Refusal :=
  .next (s.injEnd det.val)

/-- INJ_BROWN_OUT (R628): Injection 0x03 starts a BOR in the next tick. -/
def execInjBrownOut (arg : Word) (s : State) : Host.Outcome State Fault Refusal :=
  .next (s.injectRow 0x03 arg)

/-- INJ_WAKE_TIMEOUT (R628): Injection 0x04 makes a wake step time out at the next request for Armed. -/
def execInjWakeTimeout (arg : Word) (s : State) : Host.Outcome State Fault Refusal :=
  .next (s.injectRow 0x04 arg)

/-- INJ_COLOPHON_CRC (R628): Injection 0x05 starts a SOFT reset whose step 2 fails. -/
def execInjColophonCrc (arg : Word) (s : State) : Host.Outcome State Fault Refusal :=
  .next (s.injectRow 0x05 arg)

/-- INJ_REFCLK_LOSS (R628): Injection 0x06 declares a REFCLK loss in the next tick. -/
def execInjRefclkLoss (arg : Word) (s : State) : Host.Outcome State Fault Refusal :=
  .next (s.injectRow 0x06 arg)

/-- INJ_ENC_LOSS (R628): Injection 0x07 declares an encoder loss at the next TRACK tick. -/
def execInjEncLoss (arg : Word) (s : State) : Host.Outcome State Fault Refusal :=
  .next (s.injectRow 0x07 arg)

/-- INJ_QERR (R628): Injection 0x08 makes the next decoded edge a quadrature error. -/
def execInjQerr (arg : Word) (s : State) : Host.Outcome State Fault Refusal :=
  .next (s.injectRow 0x08 arg)

/-- INJ_INDEX_SPAN (R628): Injection 0x09 makes the next accepted index pulse raise ENC_ZMISS. -/
def execInjIndexSpan (arg : Word) (s : State) : Host.Outcome State Fault Refusal :=
  .next (s.injectRow 0x09 arg)

/-- INJ_MACRO_FAIL (R628): Injection 0x0A declares a Slate macro failed. -/
def execInjMacroFail (arg : Word) (s : State) : Host.Outcome State Fault Refusal :=
  .next (s.injectRow 0x0A arg)

/-- INJ_WATCHDOG (R628): Injection 0x0B ends the watchdog period in the next tick. -/
def execInjWatchdog (arg : Word) (s : State) : Host.Outcome State Fault Refusal :=
  .next (s.injectRow 0x0B arg)

/-- INJ_TXN_TIMEOUT (R628): Injection 0x0C makes BND_TXN_TMO expire in the next tick. -/
def execInjTxnTimeout (arg : Word) (s : State) : Host.Outcome State Fault Refusal :=
  .next (s.injectRow 0x0C arg)

/-- INJ_PACKET_CRC (R628): Injection 0x0D makes the next packet fail its CRC check. -/
def execInjPacketCrc (arg : Word) (s : State) : Host.Outcome State Fault Refusal :=
  .next (s.injectRow 0x0D arg)

/-- INJ_OPEN_WIRE (R628): Injection 0x0E makes the next open-wire check of a land find it open. -/
def execInjOpenWire (arg : Word) (s : State) : Host.Outcome State Fault Refusal :=
  .next (s.injectRow 0x0E arg)

/-- INJ_AUX_QUEUE_FULL (R628): Injection 0x0F makes the next aux result find the queue full. -/
def execInjAuxQueueFull (arg : Word) (s : State) : Host.Outcome State Fault Refusal :=
  .next (s.injectRow 0x0F arg)

/-- INJ_SLOT_COLLISION (R628): Injection 0x10 drops the next request of an I-slot. -/
def execInjSlotCollision (arg : Word) (s : State) : Host.Outcome State Fault Refusal :=
  .next (s.injectRow 0x10 arg)

/-- INJ_TEMP_RESULT (R628): Injection 0x11 replaces the next used temperature result with ARG. -/
def execInjTempResult (arg : Word) (s : State) : Host.Outcome State Fault Refusal :=
  .next (s.injectRow 0x11 arg)

/-- INJ_TEMP_STALE (R628): Injection 0x12 expires the stale timer in the next tick. -/
def execInjTempStale (arg : Word) (s : State) : Host.Outcome State Fault Refusal :=
  .next (s.injectRow 0x12 arg)

/-- INJ_BLACK_STEP (R628): Injection 0x13 makes the next valid black update set BLK_STEP. -/
def execInjBlackStep (arg : Word) (s : State) : Host.Outcome State Fault Refusal :=
  .next (s.injectRow 0x13 arg)

/-- INJ_EXPOSURE_OVERRUN (R628): Injection 0x14 drops the next trigger that would start an exposure. -/
def execInjExposureOverrun (arg : Word) (s : State) : Host.Outcome State Fault Refusal :=
  .next (s.injectRow 0x14 arg)

/-- INJ_LANE_FIFO (R628): Injection 0x15 drops the next line folio of a lane. -/
def execInjLaneFifo (arg : Word) (s : State) : Host.Outcome State Fault Refusal :=
  .next (s.injectRow 0x15 arg)

/-- INJ_AGT_FLAGS (R628): Injection 0x16 sets sticky AGT_STATUS flags of an engine. -/
def execInjAgtFlags (arg : Word) (s : State) : Host.Outcome State Fault Refusal :=
  .next (s.injectRow 0x16 arg)

/-- INJ_BUS_ARBITRATION (R628): Injection 0x17 makes the next controller transfer lose arbitration or end with
PB_ARB_SR. -/
def execInjBusArbitration (arg : Word) (s : State) : Host.Outcome State Fault Refusal :=
  .next (s.injectRow 0x17 arg)

/-- INJ_BUS_STUCK (R628): Injection 0x18 makes the next controller transfer end with SDA_STUCK. -/
def execInjBusStuck (arg : Word) (s : State) : Host.Outcome State Fault Refusal :=
  .next (s.injectRow 0x18 arg)

/-- INJ_LBIST (R628): Injection 0x19 makes a partition's signature fail in the next test run. -/
def execInjLbist (arg : Word) (s : State) : Host.Outcome State Fault Refusal :=
  .next (s.injectRow 0x19 arg)

/-- INJ_ANALOG_CHECK (R628): Injection 0x1A makes a step's first measurement fail in the next test run. -/
def execInjAnalogCheck (arg : Word) (s : State) : Host.Outcome State Fault Refusal :=
  .next (s.injectRow 0x1A arg)

/-- INJ_CANCEL (R631): A write of 1 to INJ_STATUS.CANCEL ends a pending injection without effect. -/
def execInjCancel (s : State) : Host.Outcome State Fault Refusal :=
  .next (s.hostWrite .port R.INJ_STATUS 0x2000 0x2000 false)

end Sys2Proof.Machine
end

