-- ==== Sys2Proof/Machine/PortCommands.lean ====
section
/-! DEFINITION.
The commands of the control port: packets, each in a slot of its own, short frames, slots, single register accesses.
-/
namespace Sys2Proof.Machine

/-- NOP (R168): Command that does nothing and answers with no data. -/
def execNop (flags : Byte) (addr : BitVec 32) (len : Word) (s : State) : Host.Outcome State Fault Refusal :=
  .next (s.packetSlot (plainPacket 0x80 flags addr len) 0)

/-- REG_RD (R180): Command that reads 1 to 32 consecutive registers, one per tick, with their read side effects
unless INSPECT is set. -/
def execRegRd (flags : Byte) (addr : BitVec 32) (len : Word) (s : State) : Host.Outcome State Fault Refusal :=
  .next (s.packetSlot (plainPacket 0x81 flags addr len) 0)

/-- REG_WR (R180): Command that writes 1 to 32 consecutive registers, one per tick, and answers with one status byte
per register. -/
def execRegWr (flags : Byte) (addr : BitVec 32) (payload : List Byte) (lost : BitVec 32) (s : State) :
    Host.Outcome State Fault Refusal :=
  .next (s.packetSlot (dataPacket 0x82 flags addr payload) lost)

/-- REG_RMW (R181): Command that reads a register, merges VALUE under MASK and writes the result in the next tick,
with no host access in between. -/
def execRegRmw (flags : Byte) (addr : BitVec 32) (payload : List Byte) (lost : Bool) (s : State) :
    Host.Outcome State Fault Refusal :=
  .next (s.packetSlot (dataPacket 0x83 flags addr payload) (if lost then 1 else 0))

/-- BULK_RD (R182): Command that reads up to 1024 bytes of a store by ID and offset. -/
def execBulkRd (flags : Byte) (addr : BitVec 32) (len : Word) (s : State) : Host.Outcome State Fault Refusal :=
  .next (s.packetSlot (plainPacket 0x84 flags addr len) 0)

/-- BULK_WR (R182): Command that writes up to 1024 bytes of a store, with staging, banking and refusal rules. -/
def execBulkWr (flags : Byte) (addr : BitVec 32) (payload : List Byte) (s : State) :
    Host.Outcome State Fault Refusal :=
  .next (s.packetSlot (dataPacket 0x85 flags addr payload) 0)

/-- TXN_BEGIN (R205): Command that opens a Bindery transaction, or acknowledges a timed-out one. -/
def execTxnBegin (flags : Byte) (addr : BitVec 32) (len : Word) (s : State) : Host.Outcome State Fault Refusal :=
  .next (s.packetSlot (plainPacket 0x86 flags addr len) 0)

/-- TXN_COMMIT_IMMEDIATE (R210): Commit whose staged writes apply in the tick after it executes. -/
def execTxnCommitImmediate (flags : Byte) (payload : List Byte) (s : State) : Host.Outcome State Fault Refusal :=
  .next (s.packetSlot (dataPacket 0x87 flags 0 payload) 0)

/-- TXN_COMMIT_NEXT_LINE (R210): Commit that goes PENDING until the next line exposure-start event that starts an
exposure. -/
def execTxnCommitNextLine (flags : Byte) (payload : List Byte) (s : State) : Host.Outcome State Fault Refusal :=
  .next (s.packetSlot (dataPacket 0x87 flags 1 payload) 0)

/-- TXN_COMMIT_NEXT_FRAME (R210): Commit that goes PENDING until the next frame exposure-start event that starts an
exposure. -/
def execTxnCommitNextFrame (flags : Byte) (payload : List Byte) (s : State) : Host.Outcome State Fault Refusal :=
  .next (s.packetSlot (dataPacket 0x87 flags 2 payload) 0)

/-- TXN_COMMIT_AT_POSITION (R210): Commit that is checked for a reference and a target strictly ahead, then goes
PENDING until the position reaches the target. -/
def execTxnCommitAtPosition (flags : Byte) (payload : List Byte) (s : State) : Host.Outcome State Fault Refusal :=
  .next (s.packetSlot (dataPacket 0x87 flags 3 payload) 0)

/-- TXN_ABORT (R217): Command that discards staged writes or cancels a pending commit, then starts bank syncs of the
written stores. -/
def execTxnAbort (flags : Byte) (addr : BitVec 32) (len : Word) (s : State) : Host.Outcome State Fault Refusal :=
  .next (s.packetSlot (plainPacket 0x88 flags addr len) 0)

/-- EVENT_RD (R620): Command that returns whole event-log entries, oldest first, and removes them unless INSPECT is
set. -/
def execEventRd (flags : Byte) (addr : BitVec 32) (len : Word) (s : State) : Host.Outcome State Fault Refusal :=
  .next (s.packetSlot (plainPacket 0x89 flags addr len) 0)

/-- SHUTDOWN (R593): Command that starts the shut-down self-test, or goes straight to Dormant from Safe after a wake
failure or in lockout. -/
def execShutdown (flags : Byte) (addr : BitVec 32) (len : Word) (s : State) : Host.Outcome State Fault Refusal :=
  .next (s.packetSlot (plainPacket 0x8A flags addr len) 0)

/-- WAKE_RETRY (R100): Command that restarts the wake sequence at the failed step, optionally writing PWR_WAKE_TMO
first. -/
def execWakeRetry (flags : Byte) (addr : BitVec 32) (payload : List Byte) (s : State) :
    Host.Outcome State Fault Refusal :=
  .next (s.packetSlot (dataPacket 0x8B flags addr payload) 0)

/-- BST_RUN (R594): Command that starts a full test run that ends in Armed, or in Safe on FAIL. -/
def execBstRun (flags : Byte) (addr : BitVec 32) (len : Word) (s : State) : Host.Outcome State Fault Refusal :=
  .next (s.packetSlot (plainPacket 0x8C flags addr len) 0)

/-- SHORT_FRAME_READ (R186): Legacy 24-bit read that executes at the 8th SDI bit and returns the register value in
the same frame. -/
def execShortFrameRead (addr : BitVec 7) (s : State) : Host.Outcome State Fault Refusal :=
  .next (s.shortRead addr)

/-- SHORT_FRAME_WRITE (R186): Legacy 24-bit write that executes when SCS_N rises. -/
def execShortFrameWrite (addr : BitVec 7) (value : Word) (lost : Bool) (s : State) :
    Host.Outcome State Fault Refusal :=
  .next (s.shortWriteSlot addr value lost)

/-- SLOT_BEGIN (R171): SCS_N falls: the device shifts out a pending response from byte 0, or 0xFE or 0xFF. -/
def execSlotBegin (s : State) : Host.Outcome State Fault Refusal :=
  .next (s.slotBegin)

/-- SLOT_END (R164): SCS_N rises: the device classifies the slot by its first bit and edge count, and switches SPI
mode or port clock if one is due. -/
def execSlotEnd (sdi : List Bool) (s : State) : Host.Outcome State Fault Refusal :=
  .next (s.slotEnd sdi)

/-- RESP_READY (R173): A response in preparation becomes ready and pending, and raises the RESP_READY attention
cause. -/
def execRespReady (s : State) : Host.Outcome State Fault Refusal :=
  .next (s.respReady)

/-- REGISTER_WRITE (R216): Write of a register that has no row of its own: it goes live, is staged, or writes
through under the transaction state. -/
def execRegisterWrite (route : Route) (addr : Byte) (value : Word) (lost : Bool) (s : State) :
    Host.Outcome State Fault Refusal :=
  .next (s.hostWrite route addr.toNat value 0xFFFF lost)

/-- READ_CLEAR (R202): A read without INSPECT of an RC field returns the value and clears the field. -/
def execReadClear (addr : Byte) (s : State) : Host.Outcome State Fault Refusal :=
  .next (if readClears addr.toNat then s.portRead addr.toNat else s)

/-- SOFT_RESET (R113): A write of 0xA55A to SYS_SOFT_RESET starts a SOFT reset once its packet has passed its CRC
check. -/
def execSoftReset (route : Route) (s : State) : Host.Outcome State Fault Refusal :=
  .next (s.hostWrite route R.SYS_SOFT_RESET 0xA55A 0xFFFF false)

end Sys2Proof.Machine
end

