-- ==== Sys2Proof/Machine/PowerCommands.lean ====
section
/-! DEFINITION.
The commands of power states, the wake sequence, resets, supplies and clocks (chapters 03 and 04).
-/
namespace Sys2Proof.Machine

/-- PWR_REQ_STANDBY (R85): PWR_CTRL.REQ = Standby moves the device from Armed to Standby, or is refused. -/
def execPwrReqStandby (s : State) : Host.Outcome State Fault Refusal :=
  .next (s.hostWrite .port R.PWR_CTRL 1 3 false)

/-- PWR_REQ_ARMED (R85): PWR_CTRL.REQ = Armed starts the wake steps from Standby or Dormant. -/
def execPwrReqArmed (s : State) : Host.Outcome State Fault Refusal :=
  .next (s.hostWrite .port R.PWR_CTRL 2 3 false)

/-- PWR_REQ_DORMANT (R85): PWR_CTRL.REQ = Dormant switches off every rail except the always-on domain. -/
def execPwrReqDormant (s : State) : Host.Outcome State Fault Refusal :=
  .next (s.hostWrite .port R.PWR_CTRL 3 3 false)

/-- WAKE_SUPPLY_WAIT_END (R92): VDD has risen above the warning level plus 20 mV, so the wake sequence starts step
1. -/
def execWakeSupplyWaitEnd (s : State) : Host.Outcome State Fault Refusal :=
  .next (s.supplyWaitEnd)

/-- WAKE_STEP_DONE (R90): A wake step meets its completion condition, and the next step starts or the finish stage
begins. -/
def execWakeStepDone (s : State) : Host.Outcome State Fault Refusal :=
  .next (s.stepCompletes)

/-- WAKE_STEP_TIMEOUT (R97): A wake step reaches its timeout: the device enters Safe, records WAKE_FAIL and switches
off the later rails. -/
def execWakeStepTimeout (s : State) : Host.Outcome State Fault Refusal :=
  .next (s.stepTimesOut)

/-- FINISH_STAGE (R93): After step 8, spare rows are switched in, banks are synced and the record decision leads to
Armed, Safe or the start-up self-test. -/
def execFinishStage (s : State) : Host.Outcome State Fault Refusal :=
  .next (s.finishStage)

/-- STARTUP_RECORD_READ (R553): After a POR, once step 3 completes, the device reads the 64-byte record from the
EEPROM on the RC oscillator. -/
def execStartupRecordRead (outcome : RecordRead) (s : State) : Host.Outcome State Fault Refusal :=
  .next (s.startRead outcome)

/-- POR (R112): VDD falls below 1.00 V: every storage class returns to defaults and the straps are sampled at
release. -/
def execPor (s : State) : Host.Outcome State Fault Refusal :=
  .next (s.por)

/-- POR_RELEASE (R112): VDD rises above 1.05 V and the power-on reset releases. -/
def execPorRelease (cfgsel : BitVec 2) (spiMode3 : Bool) (s : State) : Host.Outcome State Fault Refusal :=
  .next (s.porRelease cfgsel.toNat spiMode3)

/-- BOR (R111): VDD stays below the brown-out threshold for 1 µs and a BOR starts. -/
def execBor (s : State) : Host.Outcome State Fault Refusal :=
  .next (s.bor)

/-- BOR_RELEASE (R111): VDD stays above 1.60 V for 1 µs and the BOR releases. -/
def execBorRelease (s : State) : Host.Outcome State Fault Refusal :=
  .next (s.borRelease)

/-- PIN_RESET (R113): RESET_N held low for at least 1 µs starts a PIN reset. -/
def execPinReset (s : State) : Host.Outcome State Fault Refusal :=
  .next (s.pinReset)

/-- RESET_N_RELEASE (R113): RESET_N returns high and the wake sequence starts. -/
def execResetNRelease (s : State) : Host.Outcome State Fault Refusal :=
  .next (s.resetNRelease)

/-- FAULT_RESET (R574): In the tick after an uncorrectable error or a watchdog expiry, a FAULT reset starts. -/
def execFaultReset (s : State) : Host.Outcome State Fault Refusal :=
  .next (s.faultReset)

/-- SUPPLY_WARN (R103): VDD stays below the warning level for 1 µs: the warning asserts and HOLD begins under HOLD. -/
def execSupplyWarn (s : State) : Host.Outcome State Fault Refusal :=
  .next (s.supplyWarn)

/-- SUPPLY_WARN_DEASSERT (R104): VDD stays above the level plus 20 mV for 1 µs and the warning deasserts. -/
def execSupplyWarnDeassert (s : State) : Host.Outcome State Fault Refusal :=
  .next (s.supplyReturns)

/-- DIP_HOLD_END (R107): 2,500 tk after the warning deasserts, the exposure hold ends. -/
def execDipHoldEnd (s : State) : Host.Outcome State Fault Refusal :=
  .next (s.holdEnd)

/-- CP_DROOP (R109): VPIXH or VNEG leaves regulation while Armed or Streaming. -/
def execCpDroop (second : Bool) (s : State) : Host.Outcome State Fault Refusal :=
  .next (s.realDroop second)

/-- CLK_REFDIV_WRITE (R138): A write of CLK_REFDIV starts a relock at the full ratio for the written grid value. -/
def execClkRefdivWrite (value : Word) (s : State) : Host.Outcome State Fault Refusal :=
  .next (s.portWrite R.CLK_REFDIV value false)

/-- CLK_RELOCKED (R140): The PLL locks at the target ratio: held counters and CLK_TIME resume. -/
def execClkRelocked (s : State) : Host.Outcome State Fault Refusal :=
  .next (s.relocked)

/-- RELOCK_TIMEOUT (R140): The PLL has not locked 2.0 ms after a relock began, so a FREQUENCY loss is declared. -/
def execRelockTimeout (s : State) : Host.Outcome State Fault Refusal :=
  .next (s.relockTimeout)

/-- REFCLK_MISSING (R148): No REFCLK edge for 16 RC periods: a MISSING loss is declared, the VCO coasts and the
stream gate closes. -/
def execRefclkMissing (s : State) : Host.Outcome State Fault Refusal :=
  .next (s.refclkLoss lossMissing)

/-- REFCLK_FREQUENCY_LOSS (R148): The lock detector finds REFCLK outside its window: a FREQUENCY loss is declared. -/
def execRefclkFrequencyLoss (s : State) : Host.Outcome State Fault Refusal :=
  .next (s.refclkLoss lossFrequency)

/-- REF_PRESENT (R151): 256 good REFCLK periods are seen and the PLL starts to relock. -/
def execRefPresent (s : State) : Host.Outcome State Fault Refusal :=
  .next (s.refReturned)

/-- CLK_LOST_ACK (R152): A write of 1 to CLK_STATUS.LOST while locked opens the stream gate. -/
def execClkLostAck (s : State) : Host.Outcome State Fault Refusal :=
  .next (s.hostWrite .port R.CLK_STATUS 4 4 false)

end Sys2Proof.Machine
end

