-- ==== Sys2Proof/Machine/SensingCommands.lean ====
section
/-! DEFINITION.
The commands of the aux converters and the temperature (chapters 13 and 14).
-/
namespace Sys2Proof.Machine

/-- AUX_ROUND_TIMER (R446): The round timer expires and starts a round, or sets ROUND_LATE. -/
def execAuxRoundTimer (s : State) : Host.Outcome State Fault Refusal :=
  .next (s.askRound)

/-- ROUND_NOW (R445): A write of AUX_STATUS.ROUND_NOW = 1 starts a regular round. -/
def execRoundNow (s : State) : Host.Outcome State Fault Refusal :=
  .next (s.hostWrite .port R.AUX_STATUS 0x8000 0x8000 false)

/-- AUX_SLOT_START (R445): A slot whose converters are free waits its DELAY and any open-wire check, then starts
converting its block. -/
def execAuxSlotStart (s : State) : Host.Outcome State Fault Refusal :=
  .next (s.startSlot)

/-- AUX_INJ_TRIGGER (R447): An event on an I-slot's TRIG line is accepted and its delay starts counting. -/
def execAuxInjTrigger (line : BitVec 6) (s : State) : Host.Outcome State Fault Refusal :=
  .next (s.injLine line.toNat)

/-- AUX_INJ_REQUEST (R448): The delay ends and the request is decided: run, abort a regular slot, wait or drop. -/
def execAuxInjRequest (slot : Fin 4) (s : State) : Host.Outcome State Fault Refusal :=
  .next (s.injRequest slot.val)

/-- AUX_FLASH_STOP (R462): The stop event ends an INTEGRATE flash run. -/
def execAuxFlashStop (going : BitVec 2) (s : State) : Host.Outcome State Fault Refusal :=
  .next (s.flashStop going)

/-- AUX_REF_SETTLED (R467): A converter's reference has settled and its first conversion may start. -/
def execAuxRefSettled (converter : Fin 2) (s : State) : Host.Outcome State Fault Refusal :=
  .next (s.refSettled converter.val)

/-- AUX_CONVERSION_END (R439): An aux conversion ends, autorange decides, and the next conversion starts in the same
VCO period. -/
def execAuxConversionEnd (converter : Fin 2) (nanovolts : Int) (s : State) : Host.Outcome State Fault Refusal :=
  .next (s.conversionEnd converter.val nanovolts)

/-- AUX_Q_POP (R454): A read of AUX_Q_HI removes the oldest queue entry and snapshots its lower half. -/
def execAuxQPop (s : State) : Host.Outcome State Fault Refusal :=
  .next (s.portRead R.AUX_Q_HI)

/-- TMP_TEMP_WRITE (R479): A host write of TMP_TEMP is a used result with HOST = 1, or is refused. -/
def execTmpTempWrite (value : Word) (lost : Bool) (s : State) : Host.Outcome State Fault Refusal :=
  .next (s.portWrite R.TMP_TEMP value lost)

/-- TEMP_STALE (R494): The stale timer reaches its period without a used result. -/
def execTempStale (s : State) : Host.Outcome State Fault Refusal :=
  .next (s.tempStale)

end Sys2Proof.Machine
end

