-- ==== Sys2Proof/Machine/SpineCommands.lean ====
section
/-! DEFINITION.
The commands of the counters, compares and captures, and the position (chapters 11 and 12).
-/
namespace Sys2Proof.Machine

/-- SPN_GO_RELEASE (R386): SPN_GO GO bits release IDLE counters, or the write is refused with NEEDS_REF. -/
def execSpnGoRelease (mask : Byte) (s : State) : Host.Outcome State Fault Refusal :=
  .next (s.hostWrite .port R.SPN_GO (mask.setWidth 16) 0x00FF false)

/-- SPN_GO_HALT (R386): SPN_GO HALT bits halt running or spent counters, keeping value and remainder. -/
def execSpnGoHalt (mask : Byte) (s : State) : Host.Outcome State Fault Refusal :=
  .next (s.hostWrite .port R.SPN_GO (mask.setWidth 16 <<< 8) 0xFF00 false)

/-- COUNTER_LOAD (R389): A write of SPN_C_LO loads the counter from the holding registers and clears its remainder. -/
def execCounterLoad (value : Word) (lost : Bool) (s : State) : Host.Outcome State Fault Refusal :=
  .next (s.portWrite R.SPN_C_LO value lost)

/-- COUNTER_ARM (R388): A write of SPN_C_STAT.ARM makes a SPENT counter RUNNING again. -/
def execCounterArm (s : State) : Host.Outcome State Fault Refusal :=
  .next (s.hostWrite .port R.SPN_C_STAT 4 4 false)

/-- COMPARE_LOAD (R396): A write of SPN_M_LO loads the 48-bit compare value from the next tick. -/
def execCompareLoad (value : Word) (lost : Bool) (s : State) : Host.Outcome State Fault Refusal :=
  .next (s.portWrite R.SPN_M_LO value lost)

/-- COUNTER_STEP (R380): The prescaler remainder reaches D, or falls below 0, and the counter steps by one. `pulses`
is how many the source has had since the last tick: it gives at most one of them. -/
def execCounterStep (counter : Fin 8) (pulses : Nat) (s : State) : Host.Outcome State Fault Refusal :=
  .next (if pulses = 0 then s else s.countInput counter.val)

/-- CAPTURE_PULSE_START (R403): A capture pair stores RISE, sets OPEN and raises line 24 + k. -/
def execCapturePulseStart (pair : Fin 4) (s : State) : Host.Outcome State Fault Refusal :=
  .next (s.pulseStart pair.val)

/-- CAPTURE_PULSE_END (R403): A capture pair stores FALL and WIDTH, sets DONE, advances SEQ and raises line 28 + k. -/
def execCapturePulseEnd (pair : Fin 4) (s : State) : Host.Outcome State Fault Refusal :=
  .next (s.pulseEnd pair.val)

/-- CAPTURE_CFG_WRITE (R406): A write of SPN_K_CFG clears OPEN and keeps the captured values. -/
def execCaptureCfgWrite (value : Word) (s : State) : Host.Outcome State Fault Refusal :=
  .next (s.captureWrite value)

/-- ENC_EDGE (R414): An accepted encoder edge changes C and updates the estimator, acquisition or return. -/
def execEncEdge (a b : PinLevel) (s : State) : Host.Outcome State Fault Refusal :=
  .next ((s.encLevels (s.accepted s.pos.a a) (s.accepted s.pos.b b)).atPosition)

/-- ENC_Z (R421): An accepted index pulse sets C and P to Z_VALUE, sets REF and raises line 35. -/
def execEncZ (level : PinLevel) (s : State) : Host.Outcome State Fault Refusal :=
  .next (if s.accepts level.held then (s.encZ level.high).atPosition else s)

/-- POS_PRESET (R423): A write of POS_DATA part 0x2 presets P, moves C and the anchor, and sets REF. -/
def execPosPreset (value : Word) (lost : Bool) (s : State) : Host.Outcome State Fault Refusal :=
  .next (s.presetWrite value lost)

/-- ENC_HOLD (R425): No edge within FACTOR × T: the state becomes HOLDOVER and P steps ahead. -/
def execEncHold (s : State) : Host.Outcome State Fault Refusal :=
  .next (if s.lossDue then (s.encHold false).atPosition else s)

/-- ENC_LOST (R426): Holdover ends after its line count or 65,535 ec: P freezes and the state becomes LOST. -/
def execEncLost (s : State) : Host.Outcome State Fault Refusal :=
  .next (if s.holdOver then s.encLose.atPosition else s)

/-- ENC_RELOCKED (R430): A SLEW closes the phase error below 1/16 ec and the state returns to TRACK. -/
def execEncRelocked (s : State) : Host.Outcome State Fault Refusal :=
  .next (s.encRelocked.atPosition)

end Sys2Proof.Machine
end

