-- ==== Sys2Proof/Machine/Dispatch.lean ====
section
/-! DEFINITION.
One arm per command.
-/
namespace Sys2Proof.Machine

/-- What a command does to everything but the queue. -/
def exec (i : Instr) (s : State) : Host.Outcome State Fault Refusal :=
  match i with
  | .nop flags addr len => Sys2Proof.Machine.execNop flags addr len s
  | .regRd flags addr len => Sys2Proof.Machine.execRegRd flags addr len s
  | .regWr flags addr payload lost => Sys2Proof.Machine.execRegWr flags addr payload lost s
  | .regRmw flags addr payload lost => Sys2Proof.Machine.execRegRmw flags addr payload lost s
  | .bulkRd flags addr len => Sys2Proof.Machine.execBulkRd flags addr len s
  | .bulkWr flags addr payload => Sys2Proof.Machine.execBulkWr flags addr payload s
  | .txnBegin flags addr len => Sys2Proof.Machine.execTxnBegin flags addr len s
  | .txnCommitImmediate flags payload => Sys2Proof.Machine.execTxnCommitImmediate flags payload s
  | .txnCommitNextLine flags payload => Sys2Proof.Machine.execTxnCommitNextLine flags payload s
  | .txnCommitNextFrame flags payload => Sys2Proof.Machine.execTxnCommitNextFrame flags payload s
  | .txnCommitAtPosition flags payload => Sys2Proof.Machine.execTxnCommitAtPosition flags payload s
  | .txnAbort flags addr len => Sys2Proof.Machine.execTxnAbort flags addr len s
  | .eventRd flags addr len => Sys2Proof.Machine.execEventRd flags addr len s
  | .shutdown flags addr len => Sys2Proof.Machine.execShutdown flags addr len s
  | .wakeRetry flags addr payload => Sys2Proof.Machine.execWakeRetry flags addr payload s
  | .bstRun flags addr len => Sys2Proof.Machine.execBstRun flags addr len s
  | .shortFrameRead addr => Sys2Proof.Machine.execShortFrameRead addr s
  | .shortFrameWrite addr value lost => Sys2Proof.Machine.execShortFrameWrite addr value lost s
  | .slotBegin => Sys2Proof.Machine.execSlotBegin s
  | .slotEnd sdi => Sys2Proof.Machine.execSlotEnd sdi s
  | .respReady => Sys2Proof.Machine.execRespReady s
  | .registerWrite route addr value lost => Sys2Proof.Machine.execRegisterWrite route addr value lost s
  | .readClear addr => Sys2Proof.Machine.execReadClear addr s
  | .softReset route => Sys2Proof.Machine.execSoftReset route s
  | .pwrReqStandby => Sys2Proof.Machine.execPwrReqStandby s
  | .pwrReqArmed => Sys2Proof.Machine.execPwrReqArmed s
  | .pwrReqDormant => Sys2Proof.Machine.execPwrReqDormant s
  | .wakeSupplyWaitEnd => Sys2Proof.Machine.execWakeSupplyWaitEnd s
  | .wakeStepDone => Sys2Proof.Machine.execWakeStepDone s
  | .wakeStepTimeout => Sys2Proof.Machine.execWakeStepTimeout s
  | .finishStage => Sys2Proof.Machine.execFinishStage s
  | .startupRecordRead outcome => Sys2Proof.Machine.execStartupRecordRead outcome s
  | .por => Sys2Proof.Machine.execPor s
  | .porRelease cfgsel spiMode3 => Sys2Proof.Machine.execPorRelease cfgsel spiMode3 s
  | .bor => Sys2Proof.Machine.execBor s
  | .borRelease => Sys2Proof.Machine.execBorRelease s
  | .pinReset => Sys2Proof.Machine.execPinReset s
  | .resetNRelease => Sys2Proof.Machine.execResetNRelease s
  | .faultReset => Sys2Proof.Machine.execFaultReset s
  | .supplyWarn => Sys2Proof.Machine.execSupplyWarn s
  | .supplyWarnDeassert => Sys2Proof.Machine.execSupplyWarnDeassert s
  | .dipHoldEnd => Sys2Proof.Machine.execDipHoldEnd s
  | .cpDroop second => Sys2Proof.Machine.execCpDroop second s
  | .clkRefdivWrite value => Sys2Proof.Machine.execClkRefdivWrite value s
  | .clkRelocked => Sys2Proof.Machine.execClkRelocked s
  | .relockTimeout => Sys2Proof.Machine.execRelockTimeout s
  | .refclkMissing => Sys2Proof.Machine.execRefclkMissing s
  | .refclkFrequencyLoss => Sys2Proof.Machine.execRefclkFrequencyLoss s
  | .refPresent => Sys2Proof.Machine.execRefPresent s
  | .clkLostAck => Sys2Proof.Machine.execClkLostAck s
  | .bndTxnTmoExpiry => Sys2Proof.Machine.execBndTxnTmoExpiry s
  | .txnApply => Sys2Proof.Machine.execTxnApply s
  | .bankSyncStart store => Sys2Proof.Machine.execBankSyncStart store s
  | .bankSyncDone store => Sys2Proof.Machine.execBankSyncDone store s
  | .bndWdogEnable period => Sys2Proof.Machine.execBndWdogEnable period s
  | .bndWdogKick => Sys2Proof.Machine.execBndWdogKick s
  | .bndWdogExpiry => Sys2Proof.Machine.execBndWdogExpiry s
  | .legColWindowWrite last value => Sys2Proof.Machine.execLegColWindowWrite last value s
  | .runStart => Sys2Proof.Machine.execRunStart s
  | .runStop => Sys2Proof.Machine.execRunStop s
  | .streamDrained => Sys2Proof.Machine.execStreamDrained s
  | .freeRunExpiry => Sys2Proof.Machine.execFreeRunExpiry s
  | .trigger => Sys2Proof.Machine.execTrigger s
  | .exposureEnd => Sys2Proof.Machine.execExposureEnd s
  | .legacyEndEvent => Sys2Proof.Machine.execLegacyEndEvent s
  | .subExposureStart => Sys2Proof.Machine.execSubExposureStart s
  | .pairConversionEnd samples => Sys2Proof.Machine.execPairConversionEnd samples s
  | .folioHanded lane => Sys2Proof.Machine.execFolioHanded lane s
  | .markerOrderedSet lane => Sys2Proof.Machine.execMarkerOrderedSet lane s
  | .defLoad => Sys2Proof.Machine.execDefLoad s
  | .defCompileDone => Sys2Proof.Machine.execDefCompileDone s
  | .spnGoRelease mask => Sys2Proof.Machine.execSpnGoRelease mask s
  | .spnGoHalt mask => Sys2Proof.Machine.execSpnGoHalt mask s
  | .counterLoad value lost => Sys2Proof.Machine.execCounterLoad value lost s
  | .counterArm => Sys2Proof.Machine.execCounterArm s
  | .compareLoad value lost => Sys2Proof.Machine.execCompareLoad value lost s
  | .counterStep counter pulses => Sys2Proof.Machine.execCounterStep counter pulses s
  | .capturePulseStart pair => Sys2Proof.Machine.execCapturePulseStart pair s
  | .capturePulseEnd pair => Sys2Proof.Machine.execCapturePulseEnd pair s
  | .captureCfgWrite value => Sys2Proof.Machine.execCaptureCfgWrite value s
  | .encEdge a b => Sys2Proof.Machine.execEncEdge a b s
  | .encZ level => Sys2Proof.Machine.execEncZ level s
  | .posPreset value lost => Sys2Proof.Machine.execPosPreset value lost s
  | .encHold => Sys2Proof.Machine.execEncHold s
  | .encLost => Sys2Proof.Machine.execEncLost s
  | .encRelocked => Sys2Proof.Machine.execEncRelocked s
  | .auxRoundTimer => Sys2Proof.Machine.execAuxRoundTimer s
  | .roundNow => Sys2Proof.Machine.execRoundNow s
  | .auxSlotStart => Sys2Proof.Machine.execAuxSlotStart s
  | .auxInjTrigger line => Sys2Proof.Machine.execAuxInjTrigger line s
  | .auxInjRequest slot => Sys2Proof.Machine.execAuxInjRequest slot s
  | .auxFlashStop going => Sys2Proof.Machine.execAuxFlashStop going s
  | .auxRefSettled converter => Sys2Proof.Machine.execAuxRefSettled converter s
  | .auxConversionEnd converter nanovolts => Sys2Proof.Machine.execAuxConversionEnd converter nanovolts s
  | .auxQPop => Sys2Proof.Machine.execAuxQPop s
  | .tmpTempWrite value lost => Sys2Proof.Machine.execTmpTempWrite value lost s
  | .tempStale => Sys2Proof.Machine.execTempStale s
  | .agtStart mask => Sys2Proof.Machine.execAgtStart mask s
  | .agtStep mask => Sys2Proof.Machine.execAgtStep mask s
  | .agtHalt mask => Sys2Proof.Machine.execAgtHalt mask s
  | .agtForceHalt mask => Sys2Proof.Machine.execAgtForceHalt mask s
  | .agtCycle engine pins edges => Sys2Proof.Machine.execAgtCycle engine pins edges s
  | .agtWaitLimit engine pins edges => Sys2Proof.Machine.execAgtWaitLimit engine pins edges s
  | .agtInjectPart value => Sys2Proof.Machine.execAgtInjectPart value s
  | .agtInjectedRow engine pins => Sys2Proof.Machine.execAgtInjectedRow engine pins s
  | .agtSelWrite value => Sys2Proof.Machine.execAgtSelWrite value s
  | .agtFifoPush value => Sys2Proof.Machine.execAgtFifoPush value s
  | .agtFifoPop => Sys2Proof.Machine.execAgtFifoPop s
  | .pbXferWrite wlen rlen => Sys2Proof.Machine.execPbXferWrite wlen rlen s
  | .pbXferRead wlen rlen => Sys2Proof.Machine.execPbXferRead wlen rlen s
  | .pbXferWriteRead wlen rlen => Sys2Proof.Machine.execPbXferWriteRead wlen rlen s
  | .pbXferAbort wlen rlen => Sys2Proof.Machine.execPbXferAbort wlen rlen s
  | .pbDataWrite value => Sys2Proof.Machine.execPbDataWrite value s
  | .pbDataPop => Sys2Proof.Machine.execPbDataPop s
  | .pbBusFree => Sys2Proof.Machine.execPbBusFree s
  | .pbArbLost winner => Sys2Proof.Machine.execPbArbLost winner s
  | .pbBackoffEnd => Sys2Proof.Machine.execPbBackoffEnd s
  | .pbArbSr => Sys2Proof.Machine.execPbArbSr s
  | .pbDone outcome => Sys2Proof.Machine.execPbDone outcome s
  | .pbAckPoll acknowledged => Sys2Proof.Machine.execPbAckPoll acknowledged s
  | .pbBusRecovery freed => Sys2Proof.Machine.execPbBusRecovery freed s
  | .sclStuck => Sys2Proof.Machine.execSclStuck s
  | .pbTargetWrite high low lost => Sys2Proof.Machine.execPbTargetWrite high low lost s
  | .pbTargetRead => Sys2Proof.Machine.execPbTargetRead s
  | .pbTargetPointer pointer => Sys2Proof.Machine.execPbTargetPointer pointer s
  | .scrubVisit => Sys2Proof.Machine.execScrubVisit s
  | .correctedWriteback => Sys2Proof.Machine.execCorrectedWriteback s
  | .memFlipMaskWrite value => Sys2Proof.Machine.execMemFlipMaskWrite value s
  | .memRawWrite value => Sys2Proof.Machine.execMemRawWrite value s
  | .sltRetireWrite value => Sys2Proof.Machine.execSltRetireWrite value s
  | .testStepEnd found => Sys2Proof.Machine.execTestStepEnd found s
  | .injSupplyWarn arg => Sys2Proof.Machine.execInjSupplyWarn arg s
  | .injCp1 arg => Sys2Proof.Machine.execInjCp1 arg s
  | .injCp2 arg => Sys2Proof.Machine.execInjCp2 arg s
  | .injDurationEnd det => Sys2Proof.Machine.execInjDurationEnd det s
  | .injBrownOut arg => Sys2Proof.Machine.execInjBrownOut arg s
  | .injWakeTimeout arg => Sys2Proof.Machine.execInjWakeTimeout arg s
  | .injColophonCrc arg => Sys2Proof.Machine.execInjColophonCrc arg s
  | .injRefclkLoss arg => Sys2Proof.Machine.execInjRefclkLoss arg s
  | .injEncLoss arg => Sys2Proof.Machine.execInjEncLoss arg s
  | .injQerr arg => Sys2Proof.Machine.execInjQerr arg s
  | .injIndexSpan arg => Sys2Proof.Machine.execInjIndexSpan arg s
  | .injMacroFail arg => Sys2Proof.Machine.execInjMacroFail arg s
  | .injWatchdog arg => Sys2Proof.Machine.execInjWatchdog arg s
  | .injTxnTimeout arg => Sys2Proof.Machine.execInjTxnTimeout arg s
  | .injPacketCrc arg => Sys2Proof.Machine.execInjPacketCrc arg s
  | .injOpenWire arg => Sys2Proof.Machine.execInjOpenWire arg s
  | .injAuxQueueFull arg => Sys2Proof.Machine.execInjAuxQueueFull arg s
  | .injSlotCollision arg => Sys2Proof.Machine.execInjSlotCollision arg s
  | .injTempResult arg => Sys2Proof.Machine.execInjTempResult arg s
  | .injTempStale arg => Sys2Proof.Machine.execInjTempStale arg s
  | .injBlackStep arg => Sys2Proof.Machine.execInjBlackStep arg s
  | .injExposureOverrun arg => Sys2Proof.Machine.execInjExposureOverrun arg s
  | .injLaneFifo arg => Sys2Proof.Machine.execInjLaneFifo arg s
  | .injAgtFlags arg => Sys2Proof.Machine.execInjAgtFlags arg s
  | .injBusArbitration arg => Sys2Proof.Machine.execInjBusArbitration arg s
  | .injBusStuck arg => Sys2Proof.Machine.execInjBusStuck arg s
  | .injLbist arg => Sys2Proof.Machine.execInjLbist arg s
  | .injAnalogCheck arg => Sys2Proof.Machine.execInjAnalogCheck arg s
  | .injCancel => Sys2Proof.Machine.execInjCancel s
  | .pbTargetStop => Sys2Proof.Machine.execPbTargetStop s

end Sys2Proof.Machine
end

