-- ==== Sys2Proof/Machine/Step.lean ====
section
/-! DEFINITION.
One step of the block: the command at the front of the queue, or, with nothing queued, one tick of SCLK.
-/
namespace Sys2Proof.Machine

/-- One step.  On an empty queue the block idles for one tick. DESIGN CHOICE (log entries 1, 2
and 21). -/
def step (s : State) : Host.Outcome State Fault Refusal :=
  match s.pending with
  | [] => .next s.tick
  | c :: rest => exec c { s with pending := rest }

/-- The command that a table word spells, put at the front of the queue; no word spells one. DESIGN CHOICE (log entry
1). -/
def State.withFetchWord (s : State) (nbits w : Nat) : State :=
  match decodeTableWord nbits w with
  | some c => { s with pending := c :: s.pending }
  | none => s

end Sys2Proof.Machine
end

