-- ==== Sys2Proof/Machine/Lands.lean ====
section
/-! DEFINITION.
The signal lands and lane lands as functions of the state (Table 02-4, R56 to R60, R63, R65, R528, R601, R684).
-/
namespace Sys2Proof.Machine

/-! ### Lands and their states -/

/-- A column of Table 02-4. -/
inductive Column where
  | off | reset | safe | dormant | standby | armed | streaming
  deriving DecidableEq, Repr

/-- A signal land or a lane land (Table 02-3). -/
inductive Land where
  | ln (q : Nat) | sck | scsN | sdi | sdo | attnN | resetN | refclk | pscl | psda
  | encA | encB | encZ | ag (n : Nat) | ain (n : Nat) | tdP | tdN | cfgsel0 | cfgsel1 | spimode | test
  deriving DecidableEq, Repr

/-- What a land does (Table 02-4). -/
inductive LandState where
  /-- Neither drives nor is read -/
  | z
  /-- An enabled input with no pull -/
  | input
  /-- A Z input whose level the device ignores -/
  | ignored
  /-- An enabled input with the pull-up of R57 -/
  | pullUp
  /-- Driven to this level; an open-drain land is only ever driven low (R63) -/
  | driven (level : Bool)
  /-- SDO in a slot: the bytes of the delivery, and the byte that follows them (R171) -/
  | serial (bytes : List Byte) (fill : Byte)
  /-- Open-drain, as controller or target -/
  | bus
  /-- Connected: its converter samples it (R60) -/
  | sampled
  /-- Under the open-wire pull current: up, or down (R60, R465) -/
  | pulled (up : Bool)
  /-- A strap at its sampling -/
  | strap
  /-- A lane with idle symbols -/
  | idle
  /-- A lane with folios and idle symbols -/
  | folios
  deriving DecidableEq, Repr

/-! ### The column in force -/

/-- The column of a power state; a wake that is part of a reset has the Reset column (R684). -/
def PState.column : PState → Column
  | .off => .off
  | .safe => .safe
  | .dormant => .dormant
  | .standby => .standby
  | .armed => .armed
  | .streaming => .streaming
  | .waking => .reset
  | .testing => .reset

/-- VDD in a POR that has not released: 0 = 0 V, 1 = below 1.0 V, 2 = at or above it (R56, R57); it is 2 in every other
state.  The supply is outside the model: free. DESIGN CHOICE (log entry 12). -/
def State.vdd (s : State) : Nat := if s.pwr.inReset = some .por then (Config.vddAt s.clk.now).val else 2

/-- The column of the lands but for the lanes: that of the power state, in a wake outside a reset or a test that of the
state left, Reset while a reset is held or its wake sequence runs, and Off at 0 V (R56, R80, R684). DESIGN CHOICE (log
entry 43). -/
def State.column (s : State) : Column :=
  if s.vdd = 0 then .off
  else if s.pwr.inReset.isSome || s.pwr.resetLow || s.pwr.testHigh then .reset
  else match s.pwr.state, s.pwr.kind with
    | .waking, .reset _ => if s.pwr.from_ = .safe then .safe else .reset
    | .waking, _ => s.pwr.from_.column
    | .testing, _ => s.pwr.from_.column
    | st, _ => st.column

/-- The column of the control port's lands: in the wake sequence of a reset they are handed over at the end of step 2
(R56, R96). DEDUCED (log entry 43). -/
def State.portColumn (s : State) : Column :=
  if s.column = .reset ∧ s.pwr.state = .waking ∧ 3 ≤ s.pwr.step then .safe else s.column

/-- Whether a test run is in the step `k` (Table 18-2). -/
def State.testIn (s : State) (k : Nat) : Bool := match s.bst.run with
  | some r => s.pwr.state == .testing && r.step == k
  | none => false

/-! ### Each land -/

/-- The lane of quire `q`: Z unless its quire is present and its driver biased; in a test idle symbols, and Z in step 5
(Table 02-4, R601, R684). -/
def State.laneLand (s : State) (q : Nat) : LandState :=
  if !s.biased q then .z
  else if s.pwr.state = .streaming then .folios else .idle

/-- SDO: driven in a slot only (R65), and not in the test of partition 3 (R602). -/
def State.sdoLand (s : State) : LandState := match s.portColumn with
  | .off | .reset => .z
  | _ => if s.port.inSlot && s.partition != some 3 then .serial s.port.sdo s.port.sdoFill else .z

/-- ATTN_N, open-drain: low or Z (R63, Table 02-4). -/
def State.attnLand (s : State) : LandState :=
  if s.column ≠ .reset ∧ s.attnN = .low then .driven false else .z

/-- REFCLK: ignored in Dormant, throughout a wake from it (R684), and in Reset until the wake sequence locks the PLL
to it in step 4 (Table 02-4, Table 03-5). DEDUCED (log entry 43). -/
def State.refclkLand (s : State) : LandState := match s.column with
  | .off => .z
  | .reset => if s.pwr.state = .waking ∧ 4 ≤ s.pwr.step then .input else .ignored
  | .dormant => .ignored
  | _ => .input

/-- AG land `n`: as an engine drives it in this tick, else Z; in a test as AGT_BIST_PINS left it (R59, R509, R528). -/
def State.agLand (s : State) (n : Nat) : LandState :=
  if (s.column = .armed ∨ s.column = .streaming) ∧ s.agt.own.1.getLsbD n = true then .driven (s.agt.own.2.getLsbD n)
  else .z

/-- The wake sequence of a POR reads the record, from the end of step 3 until the read has ended (R58, R553). -/
def State.readsRecord (s : State) : Bool :=
  s.pwr.state == .waking && s.pwr.kind == .reset .por && decide (4 ≤ s.pwr.step) && s.bst.start == .notRead

/-- PSCL and PSDA: the bus in Standby, Armed and Streaming, but for the test of partition 3 (R602), and for the wake
sequence's own read of the record (R58). -/
def State.busLand (s : State) : LandState :=
  if s.readsRecord then .bus
  else match s.column with
  | .standby | .armed | .streaming => if s.partition = some 3 then .z else .bus
  | _ => .z

/-- AIN `n`: connected while a run's block converts it, under the pull current of an open-wire check, else Z (R60,
R465); Z where the test DAC takes its place, and in step 6 of a test (R466, R602). -/
def State.ainLand (s : State) (n : Nat) : LandState :=
  if (s.flag F.AUX_DAC_EN ∧ s.fld F.AUX_DAC_CHAN = n) ∨ s.testIn 6 = true then .z
  else match (s.aux.injected ++ s.aux.regular.toList).find? fun r => r.slot.chan == n && r.phase != .settling with
    | some r => (match r.phase with | .owUp => .pulled true | .owDown _ => .pulled false | _ => .sampled)
    | none => .z

/-- TD_P and TD_N: biased while a run's block converts channel 8, and in step 0 of a test that measures the diode (R60,
R600, R602). -/
def State.diodeLand (s : State) : LandState :=
  if ((s.aux.injected ++ s.aux.regular.toList).any fun r => r.slot.chan == 8 && r.phase == .block)
      || s.bst.run.any fun r => r.step == 0 && r.wake == 0 && !s.flag F.BST_CTRL_TD_EXT then .sampled
  else .z

/-- The state of a land by its row of Table 02-4. DESIGN CHOICE (log entry 43). -/
def State.land (s : State) : Land → LandState
  | .ln q => s.laneLand q
  | .sck | .scsN | .sdi => (match s.portColumn with | .off => .z | .reset => .ignored | _ => .input)
  | .sdo => s.sdoLand
  | .attnN => s.attnLand
  | .resetN => if s.vdd = 0 then .z else if s.vdd = 1 then .input else .pullUp
  | .refclk => s.refclkLand
  | .pscl | .psda => s.busLand
  | .encA | .encB | .encZ => (match s.column with | .off => .z | .armed | .streaming => .input | _ => .ignored)
  | .ag n => s.agLand n
  | .ain n => s.ainLand n
  | .tdP | .tdN => s.diodeLand
  | .cfgsel0 | .cfgsel1 | .spimode => (match s.column with
    | .off => .z
    | .reset => if s.pwr.kind = .reset .por ∧ s.pwr.step ≤ 1 then .strap else .ignored
    | _ => .ignored)
  | .test => if s.column = .off then .z else .input

end Sys2Proof.Machine
end

