-- ==== Sys2Proof/Safety.lean ====
section
/-! DEFINITION.
What a safe run is, in the terms that claims use: the invariants of every state that a run from reset reaches, what a
command leaves alone, and when the port is free for a packet.
-/
namespace Sys2Proof.Machine

/-! ### Invariants -/

/-- The registers and the memories are in canonical form. -/
def State.canonical (s : State) : Bool := Cells.wf 0 s.regs && s.mem.wf

/-- No queue exceeds its size: 64 event-log entries (R619), 128 staging slots (R206), 64 aux results (R456). -/
def State.bounded (s : State) : Bool :=
  decide (s.flt.events.length ≤ 64) && decide (s.bnd.staged.length ≤ stagingSlots)
    && decide (s.aux.queue.length ≤ 64)

/-- No uncorrectable error waits for its FAULT reset (R574). -/
def State.faultFree (s : State) : Bool := s.mem.failing.isEmpty

/-! ### Frames of registers -/

/-- A whole register, as a field. -/
def Field.word (a : Nat) : Field := ⟨a, 15, 0, .rw, 0, .none⟩

/-- A bit of a register instance lies in one of the fields listed, each with its instance. -/
def inFields (l : List (Field × Nat)) (a i b : Nat) : Prop :=
  ∃ x ∈ l, x.1.addr = a ∧ x.2 = i ∧ x.1.lo ≤ b ∧ b ≤ x.1.hi

/-- Every bit of every stored register instance is as before, and so is its mark of R633, but for the fields listed. -/
def State.regsKept (s t : State) (l : List (Field × Nat)) : Prop :=
  ∀ a i b, i < 256 → ¬inFields l a i b →
    (t.reg a i).getLsbD b = (s.reg a i).getLsbD b ∧ (t.freshBits a i).getLsbD b = (s.freshBits a i).getLsbD b

/-! ### When a host access meets no other effect -/

/-- A commit at IMMEDIATE is still due: it applies before the next host access (R210). -/
def State.commitDue (s : State) : Bool := s.bnd.txn == .pending && s.bnd.point == .immediate

/-- The port and the registers are open to a write, and nothing falls due before it (Table 03-3, R98, R210). -/
def State.live (s : State) : Bool := s.up && !s.commitDue && !s.pwr.mute

/-- What a write of the bits `m` of the register at `a` leaves of a stored bit, by its access code (R12, R13, R181,
R633): an RW bit takes the value, a W1C bit written 1 clears unless hardware has set it in this tick, every other bit
stays. -/
def State.storedBit (s : State) (a : Nat) (v m : Word) (b : Nat) : Bool :=
  if m.getLsbD b && (accessMask a .rw).getLsbD b then v.getLsbD b
  else (s.reg a).getLsbD b &&
    !(m.getLsbD b && v.getLsbD b && (accessMask a .w1c).getLsbD b && !(s.freshBits a).getLsbD b)

/-- Registers that are not transactional and have one instance, whose write only stores: every value is allowed, and
nothing else follows. -/
def plainRegs : List Nat :=
  [R.SYS_STATUS, R.SYS_STORE_LOST, R.PWR_STATUS, R.PWR_DIP_POLICY, R.CLK_CTRL, R.CP_MODE, R.CP_CTRL,
   R.BND_STATUS, R.BND_CTRL, R.QR_SEL, R.CNV_STATUS, R.LN_STATUS, R.SPN_SEL, R.POS_STATUS, R.POS_PART] ++
  [R.AUX_SEL, R.AUX_OW_STAT, R.TMP_SEL, R.TMP_STATUS, R.AGT_TRACE, R.MEM_SEL, R.MEM_CTRL, R.MEM_STATUS, R.BST_STATUS,
   R.BST_PART, R.FLT_CTRL, R.FLT_STATUS, R.FLT_PART, R.FLT_LOG_WR, R.INJ_SEL, R.INJ_ARG]

/-- Transactional registers whose new value does nothing at once beside being the value that their unit uses. -/
def quietTrans (a : Nat) : Bool :=
  isTrans a && !inContext a &&
    !List.contains [R.SPN_C_CFG, R.SPN_C_DIV_HI, R.SPN_C_DIV_LO, R.SPN_M_CFG, R.POS_CFG, R.AUX_CTRL, R.TMP_CFG,
      R.TMP_GAIN, R.TMP_OFS, R.AGT_PINPERM_A, R.AGT_PINPERM_B] a

/-! ### What the counters do with the position (R381, R382) -/

/-- Channel `m` counts in a grid of its own: enabled, in WINDOW mode, with auto-add (R399). -/
def State.inGrid (s : State) (m : Nat) : Bool :=
  s.flag F.SPN_M_CFG_EN m && s.flag F.SPN_M_CFG_MODE m && s.flag F.SPN_M_CFG_AUTO m

/-- `t` is `s`, whose P has just changed, but for what the counters do about it: a running position-locked counter has
the value of P (R382), one that does not run or has no encoder source is as it was (R381, R386), none changes its run
state, and no compare channel moves but those in a grid (R399). -/
def State.followsP (s t : State) : Prop :=
  t = { s with spn := { s.spn with counters := t.spn.counters, compares := t.spn.compares, stepped := t.spn.stepped } } ∧
    (∀ n < 8,
      (t.counter n).run = (s.counter n).run ∧
      ((s.counter n).run ≠ .running ∨ (s.source n).weight = 0 → t.counter n = s.counter n) ∧
      ((s.counter n).run = .running → s.locked n = true →
        (t.counter n).value = BitVec.ofNat 48 (64 * (s.source n).weight * s.pos.p.toNat / (s.counter n).div))) ∧
    ∀ m < 16, s.inGrid m = false → t.compare m = s.compare m

/-! ### Stores read without an error -/

/-- A word was never written, or its code is right. -/
def State.wordClean (s : State) (w : WordAddr) : Prop :=
  s.mem.isValid w = true →
    decodeWord w.store s.mem.erased (s.mem.raw w) = .clean ((s.mem.raw w).take (wordSize w.store))

/-! ### Engines and the bus -/

/-- `t` is `s` with engine `e` replaced by `x`. -/
def State.engineBecomes (s t : State) (e : Nat) (x : Engine) : Prop :=
  t = { s with agt := { s.agt with engines := t.agt.engines } } ∧ ∀ k, t.engine k = if k = e then x else s.engine k

/-- The host transfer has ended with the outcome `code` (R537, Table 16-7): DONE, its event, the buffer `b`; registers
of `more` beside. -/
def State.transferEnds (s t : State) (code : Nat) (b : Cells Byte) (more : List (Field × Nat)) : Prop :=
  t = { s with
    regs := t.regs, fresh := t.fresh, pb := { s.pb with xfer := s.pb.next, next := none, buffer := b }
    flt := { s.flt with
      events := s.flt.events ++ [⟨0x40, s.flt.mark, noUnit, code, s.timeBits 32, false⟩] } } ∧
  t.flag F.PB_STATUS_DONE = true ∧ t.fld F.PB_STATUS_ERR = code ∧
  s.regsKept t ([(F.PB_STATUS_DONE, 0), (F.PB_STATUS_ERR, 0)] ++ more)

/-! ### Injections (Table 19-6) -/

/-- The rows of injections that wait for their occasion, with their detector numbers. -/
def waitingInjections (arg : Word) : List (Instr × Nat) :=
  [(.injWakeTimeout arg, 0x04), (.injEncLoss arg, 0x07), (.injQerr arg, 0x08), (.injIndexSpan arg, 0x09),
    (.injPacketCrc arg, 0x0D), (.injOpenWire arg, 0x0E), (.injAuxQueueFull arg, 0x0F), (.injSlotCollision arg, 0x10),
    (.injTempResult arg, 0x11), (.injBlackStep arg, 0x13), (.injExposureOverrun arg, 0x14), (.injLaneFifo arg, 0x15),
    (.injBusArbitration arg, 0x17), (.injBusStuck arg, 0x18), (.injLbist arg, 0x19), (.injAnalogCheck arg, 0x1A)]

/-- The rows of injections that act in the next tick. -/
def actingInjections (arg : Word) : List (Instr × Nat) :=
  [(.injSupplyWarn arg, 0x00), (.injCp1 arg, 0x01), (.injCp2 arg, 0x02), (.injBrownOut arg, 0x03),
    (.injColophonCrc arg, 0x05), (.injRefclkLoss arg, 0x06), (.injMacroFail arg, 0x0A), (.injWatchdog arg, 0x0B),
    (.injTxnTimeout arg, 0x0C), (.injTempStale arg, 0x12), (.injAgtFlags arg, 0x16)]

/-- `t` is `s` with the injection accepted: INJ_STATUS.LAST names it and its event is in the log, marked. -/
def State.injectionLogged (s t : State) (det : Nat) (arg : Word) : Prop :=
  t = { s with
    regs := t.regs
    flt := { s.flt with events := s.flt.events ++ [⟨0x70, true, det, arg.toNat, s.timeBits 32, false⟩] } } ∧
  t.fld F.INJ_STATUS_LAST = det ∧ s.regsKept t [(F.INJ_STATUS_LAST, 0)]

/-- A fire of `det` with `arg` is accepted and acts (R628, R630, R631): its argument in range, its unit present, its
state given, no other injection pending, no real occurrence in this tick (R632). -/
def State.injReady (s : State) (det : Nat) (arg : Word) : Prop :=
  injRange det arg.toNat = true ∧ injAbsent s.part det arg.toNat = false ∧ s.injState det = true ∧ s.flt.pending = none ∧
    s.realNow det arg.toNat = false

/-- `s` with every event that follows marked INJ. -/
def State.markedInj (s : State) (b : Bool) : State := { s with flt := { s.flt with mark := b } }

/-! ### What counts and triggers do -/

/-- The count in `f` goes up by one, or stays at its maximum. -/
def State.counts (s t : State) (f : Field) (i : Nat := 0) : Prop :=
  t.fld f i = min (2 ^ (f.hi + 1 - f.lo) - 1) (s.fld f i + 1)

/-- A trigger is served: RUN is 1, its source is not the timer, the line can carry events, none has come in this tick
(R279), and no holdover counts it now (R426). -/
def State.serves (s : State) : Bool :=
  s.running && s.fld F.EXP_MODE_TRIG != 0 && s.lineExists (s.fld F.EXP_SCHED_EVENT)
    && s.exp.trigTick != some s.clk.now
    && (s.pos.state != .holdover || s.eventPast.lines.getLsbD (s.fld F.EXP_SCHED_EVENT))

/-- GAP for the next line folio of every enabled quire. -/
def State.gapMarked (s : State) : BitVec 12 := s.exp.gap ||| BitVec.ofNat 12 (s.fld F.QR_ENABLE_EN)

/-- The exposure control after a trigger that started nothing. -/
def State.missed (s : State) : Exposure := { s.exp with gap := s.gapMarked, trigTick := some s.clk.now }

/-- The CAL words that hold anything. -/
def Memory.calWords (m : Memory) : Cells Bool :=
  m.valid.filter fun e => bankBase Store.cal false ≤ e.1 && e.1 < bankBase Store.cal false + 2 ^ 23

/-! ### What power changes and resets leave -/

/-- Nothing of a stream is left: no exposure, readout, sub-exposure, TDI line or spilled folio. -/
def State.idleStream (s : State) : Bool :=
  s.exp.exposing.isNone && s.exp.reading.isNone && s.exp.between.isNone && s.exp.tdiLines.isEmpty
    && s.lanes.lanes.all fun e => e.2.spill.isEmpty

/-- Nothing is due in a tick: no command waits, no error, commit, compile or burst; the analogue units are off and
nothing of a stream, a holdover or an injected run is left; no engine has run, no land moves and none of its past
ticks brought an event. -/
def State.quiet (s : State) : Prop :=
  s.pending = [] ∧ s.mem.failing = [] ∧ s.bnd.txn ≠ .pending ∧ s.cnv.compile = none ∧ s.port.burst = none ∧ s.analog = false ∧
    s.pwr.state ≠ .testing ∧ s.exp.exposing = none ∧ s.pos.state ≠ .holdover ∧ s.aux.injected = [] ∧
    s.agt.engines = [] ∧ s.agt.pins = 0 ∧ s.agt.own = (0, 0) ∧ (∀ b ∈ s.agt.samples, b = 0) ∧
    ∀ e ∈ s.past, e.lines = 0 ∧ e.timer = false

/-- No bank sync is pending or running. -/
def State.noSyncs (s : State) : Bool := !s.syncing

/-- Register bits after an event of Table 03-10: kept where the Kept through column says so, else at the Reset value;
`except` names the registers that the event itself writes. -/
def State.retains (s t : State) (r : Retention) (cfgsel : Nat) (spi : Bool) (except : List Nat) : Prop :=
  ∀ a i b, (a, i) ∈ allRegs → a ∉ except → b < 16 →
    (t.reg a i).getLsbD b =
      if (keptMask r a).testBit b then (s.reg a i).getLsbD b else (resetWord s.part cfgsel spi a i).testBit b

/-- What the first tick of a reset of class `c` leaves (Tables 03-9 and 03-10, R118, R192): the units, the port, the
transaction and every runtime value at their reset, the event log empty, no injection pending or in force, every rail
off, and SYS_RESET_CAUSE naming the class. -/
def State.wasReset (s t : State) (c : ResetClass) : Prop :=
  t = { s with
    regs := t.regs, pwr := t.pwr, clk := s.clk.off, port := Port.init (t.flag F.CP_MODE_SPI) false, bnd := t.bnd
    exp := Exposure.init, cnv := Conversion.init, lanes := t.lanes, spn := Spine.init, pos := Position.init
    aux := Aux.init, tmp := Temperature.init, agt := Agate.init, pb := PBus.init, mem := t.mem
    bst := { record := if c = .por then [] else s.bst.record, start := .notRead, run := none }, flt := t.flt, lines := 0
    past := [], fresh := [], free := s.free + 13 } ∧
  t.bnd.txn = .idle ∧ t.bnd.staged = [] ∧ t.flt.events = [] ∧ t.flt.pending = none ∧ t.flt.active = [] ∧
  t.fld F.SYS_RESET_CAUSE_CLASS = c.code ∧ t.flag F.SYS_RESET_CAUSE_FROM_DORMANT = false ∧
  t.pwr.rails = Rails.off ∧ t.pwr.kind = .reset c ∧ t.pwr.toArmed = true ∧ t.pwr.safeWhy = .notSafe

/-! ### Packets -/

/-- Nothing stands in a packet's way: the port answers, no slot is open (R161), no response is held and no burst runs
(R172, R180), nothing falls due before the packet (R210, R574) or is injected into it (Table 19-6), it repeats no kept
packet (R175), and it passes checks 4 to 6 of R178. -/
def State.portFree (s : State) (p : Packet) : Bool :=
  s.portAnswers && s.faultFree && !s.port.inSlot && s.port.resp == .empty && s.port.burst == none && !s.commitDue
    && (s.injArg 0x0D).isNone
    && (match s.port.kept with
      | some k => k.1 != p.bytes
      | none => true)
    && p.len ≤ maxPayload && p.check == none && s.powerCheck p == Status.ok

/-- The port after the slot of a packet that executed: its response is in preparation where one is due (R173, R174),
packet and response are kept (R175), and SCS_N is high. -/
def Port.answered (p : Packet) (status : Nat) (data : List Byte) (mode3 onSclk : Bool)
    (undo : List (WordAddr × List Byte × Bool)) : Port :=
  { resp := if p.wantsResponse || status != Status.ok
      then .prep (Response.of p status data) (p.opcode == 0x84 || p.opcode == 0x85) else .empty
    burst := none, kept := some (p.bytes, if p.wantsResponse then some (Response.of p status data) else none)
    inSlot := false, prepAtBegin := false, pendAtBegin := false, sdo := [], sdoFill := 0xFF, ready := false
    readyBefore := false, undo := undo, mode3 := mode3, onSclk := onSclk }

/-- The packet `p` has executed and is answered with `status` and `data`; LAST_SEQ names it; `undo` holds what a BULK_WR
in progress replaces. -/
def State.answers (t : State) (p : Packet) (status : Nat) (data : List Byte)
    (undo : List (WordAddr × List Byte × Bool) := []) : Prop :=
  t.port = Port.answered p status data (t.flag F.CP_MODE_SPI) t.pwr.state.onSclk undo ∧
    t.fld F.CP_STATUS_LAST_SEQ = p.seq

end Sys2Proof.Machine
end

