-- ==== Sys2Proof/Certificates/Slice0/Obligations.lean ====
section
/-! DEFINITION.
The statements for the provers, family by family.  A statement about a command concludes that `exec` answers a next
state and says what that state holds; `t = { s with … }` is its frame: every part of the state not named is as before.
-/
open Sys2Proof Sys2Proof.Machine

/-! ### The queue -/

/-- A step takes the command at the front of the queue and executes it with the queue's rest. The queue is the model's
own (log entry 1). -/
def Obligations.StepRunsFront : Prop :=
  ∀ (c : Instr) (rest : List Instr) (s : State),
    step { s with pending := c :: rest } = exec c { s with pending := rest }

/-- A step on an empty queue is one tick (the model's choice, log entry 2): in a quiet state, with every compare
channel and capture pair off and no counter on a source other than SCLK running, it counts the tick, feeds the running
SCLK counters one pulse unless the clocks hold, moves the engines' raised lines on, and clears the marks of the tick
before. -/
def Obligations.StepIdles : Prop :=
  ∀ s : State, s.quiet → (∀ k < 4, (s.capture k).en = false) → (∀ m < 16, s.flag F.SPN_M_CFG_EN m = false) →
    (∀ n < 8, (s.counter n).run = .running → s.source n = .sclk ∨ s.source n = .off) →
    ∃ t, step s = .next t ∧
      t = { s with
        clk := s.clk.tick, agt := t.agt, lines := s.agt.raised, mem := { s.mem with elapsed := s.mem.elapsed + bit s.scrubs }
        exp := { s.exp with fired := false }, pos := { s.pos with was := none }, aux := { s.aux with taken := 0 }
        spn := { s.spn.newTick with counters := t.spn.counters, stepped := t.spn.stepped }
        past := (s.nowPast :: s.past).take 3, fresh := [] } ∧
      t.agt = { s.agt with raised := 0, samples := 0 :: s.agt.samples.take 3, lastEvent := t.agt.lastEvent } ∧
      (s.lines = 0 → t.agt.lastEvent = s.agt.lastEvent) ∧
      t.clk.now = s.clk.now + 1 ∧
      t.clk.time = (if s.clk.started && !s.clk.held then s.clk.time + 1 else s.clk.time) ∧
      ∀ n, t.counter n =
        if n < 8 ∧ (s.counter n).run = .running then
          ((s.counter n).feed (if s.source n = .sclk ∧ s.clk.held = false then 65536 else 0)).1
        else s.counter n

/-- Every command is answered with a next state, in every state. That an event which cannot occur in the present state
changes nothing is the model's choice (log entry 3). -/
def Obligations.EveryCommandAnswers : Prop := ∀ (c : Instr) (s : State), ∃ t, exec c s = .next t

/-- From every state in canonical form whose queues are within their sizes, a command executes without touching the
queue of commands, and the member stays what it is. The queue is the model's own (log entry 1). -/
def Obligations.StepTakesOneCommand : Prop :=
  ∀ (c : Instr) (rest : List Instr) (s : State), s.pending = c :: rest → s.canonical = true → s.bounded = true →
    ∃ t, step s = .next t ∧ t.pending = rest ∧ t.part = s.part

/-- The invariant: the canonical form of registers and memories, and the sizes of the queues (64 event-log entries of
R619, 128 staging slots of R206, 64 aux results of R456), is kept by every step, of a command or of an idle tick. -/
def Obligations.StepKeepsInvariant : Prop :=
  ∀ s t : State, s.canonical = true → s.bounded = true → step s = .next t → t.canonical = true ∧ t.bounded = true

/-- The state after reset is canonical, its queues are within their sizes, and no command waits in it. The empty
memories and the queue are the model's choice (log entries 1 and 9). -/
def Obligations.ResetInvariant : Prop :=
  State.reset.canonical = true ∧ State.reset.bounded = true ∧ State.reset.faultFree = true ∧ State.reset.pending = []

/-- The state after reset as the Reset columns give it: Armed, at the boot ratio, no transaction, no response, every
counter, compare channel, capture pair and the position at 0, no queue entry, and the registers whose reset value
depends on the member or the instance. That this state holds every field at its Reset column, of the member NL-2612,
is the model's choice (log entries 7 and 10). -/
def Obligations.ResetValues : Prop :=
  let s := State.reset
  s.pwr.state = .armed ∧ s.clk.boot = true ∧ s.clk.time = 0 ∧ s.bnd.txn = .idle ∧ s.port.resp = .empty ∧
  s.spn = Spine.init ∧ s.pos = Position.init ∧ s.aux.queue = [] ∧ s.flt.events = [] ∧ s.agt.engines = [] ∧
  s.mem.valid = [] ∧ s.reg R.QR_ENABLE = 0x0FFF ∧ s.reg R.LEG_COL_LAST = 0x17FF ∧
  (∀ q < 12, s.reg R.QR_COL_COUNT q = 512) ∧ (∀ m < 16, s.fld F.SPN_M_CFG_LINE m = m) ∧
  s.fld F.PB_TGT_ADDR = 0x2C ∧ s.fld F.BND_GEN_GEN = 0 ∧ s.reg R.SYS_RESET_CAUSE = 1

/-! ### The control port (chapter 05) -/

/-- NOP does nothing and is answered with no data. REG_RD with INSPECT answers the words of 1 to 32 registers in
address order, as they show when the slot has begun, and leaves the device unchanged but for the port; of several
registers the packet's slot ends with the first one read, the others are read in turn, one per tick, at the latest as
the response becomes ready, and CP_STATUS.LAST_SEQ names the packet when the last is. A packet row is one whole slot
by the model's choice (log entry 14), and so is that RESP_READY takes the registers that are left (log entry 15). -/
def Obligations.NopAndReadsAnswer : Prop :=
  (∀ (flags : Byte) (addr : BitVec 32) (len : Word) (s : State),
     let p := plainPacket 0x80 flags addr len
     s.portFree p = true →
     ∃ t, exec (.nop flags addr len) s = .next t ∧ t.answers p Status.ok [] ∧
       t = { s with regs := t.regs, port := t.port } ∧ s.regsKept t [(F.CP_STATUS_LAST_SEQ, 0)]) ∧
  (∀ (flags : Byte) (addr : BitVec 32) (n : Nat) (s : State),
     let p := plainPacket 0x81 flags addr (BitVec.ofNat 16 (2 * n))
     let word (k : Nat) := wordBytes (s.slotBegin.hostRead .port true (addr.toNat + k)).1.toNat
     1 ≤ n → n ≤ 32 → addr.toNat + n ≤ 0x100 → flags.getLsbD 7 = true → s.portFree p = true →
     (n = 1 →
       ∃ t, exec (.regRd flags addr (BitVec.ofNat 16 (2 * n))) s = .next t ∧ t.answers p Status.ok (word 0) ∧
         t = { s with regs := t.regs, port := t.port } ∧ s.regsKept t [(F.CP_STATUS_LAST_SEQ, 0)]) ∧
     (n ≠ 1 →
       ∃ t u, exec (.regRd flags addr (BitVec.ofNat 16 (2 * n))) s = .next t ∧ t = { s with port := t.port } ∧
         t.port.burst = some ⟨p, 1, Status.ok, word 0, 0⟩ ∧ t.port.resp = .prep (Response.of p Status.ok []) false ∧
         exec .respReady t = .next u ∧ u = { s with regs := u.regs, port := u.port } ∧ u.port.burst = none ∧
         u.port.resp = .pend (Response.of p Status.ok ((List.range n).flatMap word)) ∧ u.port.ready = true ∧
         u.fld F.CP_STATUS_LAST_SEQ = p.seq ∧ s.regsKept u [(F.CP_STATUS_LAST_SEQ, 0)]))

/-- A burst whose last address would exceed 0xFF is refused whole with status RANGE: nothing is read and nothing is
written. A packet row is one whole slot by the model's choice (log entry 14). -/
def Obligations.BurstRangeRefused : Prop :=
  ∀ (flags : Byte) (addr : BitVec 32) (n : Nat) (d : List Byte) (lost : BitVec 32) (s : State),
    0x100 < addr.toNat + n → 1 ≤ n → n ≤ 32 → d.length = 2 * n →
    (s.portFree (plainPacket 0x81 flags addr (BitVec.ofNat 16 (2 * n))) = true →
      ∃ t, exec (.regRd flags addr (BitVec.ofNat 16 (2 * n))) s = .next t ∧
        t.answers (plainPacket 0x81 flags addr (BitVec.ofNat 16 (2 * n))) Status.range [] ∧
        t = { s with regs := t.regs, port := t.port } ∧ s.regsKept t [(F.CP_STATUS_LAST_SEQ, 0)]) ∧
    (s.portFree (dataPacket 0x82 flags addr d) = true →
      ∃ t, exec (.regWr flags addr d lost) s = .next t ∧
        t.answers (dataPacket 0x82 flags addr d) Status.range [] ∧
        t = { s with regs := t.regs, port := t.port } ∧ s.regsKept t [(F.CP_STATUS_LAST_SEQ, 0)])

/-- REG_WR and REG_RMW of a register whose write only stores: every bit follows its access code (under MASK, for
REG_RMW), a flag that hardware has set in the same tick stays set, REG_WR answers one status byte and REG_RMW the word
before the write, and no other register changes. Of a REG_WR of two registers the second is written after the first,
here as the response becomes ready. A packet row is one whole slot by the model's choice (log entry 14), and so is
that RESP_READY takes what is left (log entry 15). -/
def Obligations.RegisterPacketsStore : Prop :=
  ∀ (flags : Byte) (a : Nat) (v m : Word) (lost : BitVec 32) (lost1 : Bool) (s : State), a ∈ plainRegs →
    (let d := bytesBE 2 v.toNat
     let p := dataPacket 0x82 flags (BitVec.ofNat 32 a) d
     s.portFree p = true →
     ∃ t, exec (.regWr flags (BitVec.ofNat 32 a) d lost) s = .next t ∧ t.answers p Status.ok [0] ∧
       t = { s with regs := t.regs, port := t.port } ∧
       (∀ b < 16, (t.reg a).getLsbD b = s.storedBit a v 0xFFFF b) ∧
       s.regsKept t [(F.CP_STATUS_LAST_SEQ, 0), (Field.word a, 0)]) ∧
    (a + 1 ∈ plainRegs →
     let d := bytesBE 2 v.toNat ++ bytesBE 2 m.toNat
     let p := dataPacket 0x82 flags (BitVec.ofNat 32 a) d
     flags.getLsbD 6 = true → s.portFree p = true →
     ∃ t u, exec (.regWr flags (BitVec.ofNat 32 a) d lost) s = .next t ∧ t = { s with regs := t.regs, port := t.port } ∧
       (∀ b < 16, (t.reg a).getLsbD b = s.storedBit a v 0xFFFF b) ∧ s.regsKept t [(Field.word a, 0)] ∧
       exec .respReady t = .next u ∧ u = { s with regs := u.regs, port := u.port } ∧
       u.port.resp = .pend (Response.of p Status.ok [0, 0]) ∧ u.fld F.CP_STATUS_LAST_SEQ = p.seq ∧
       (∀ b < 16, (u.reg (a + 1)).getLsbD b = s.storedBit (a + 1) m 0xFFFF b) ∧
       s.regsKept u [(F.CP_STATUS_LAST_SEQ, 0), (Field.word a, 0), (Field.word (a + 1), 0)]) ∧
    (let d := bytesBE 2 m.toNat ++ bytesBE 2 v.toNat
     let p := dataPacket 0x83 flags (BitVec.ofNat 32 a) d
     s.portFree p = true →
     ∃ t, exec (.regRmw flags (BitVec.ofNat 32 a) d lost1) s = .next t ∧
       t.answers p Status.ok (wordBytes (s.slotBegin.view .port a 0).toNat) ∧
       t = { s with regs := t.regs, port := t.port } ∧
       (∀ b < 16, (t.reg a).getLsbD b = s.storedBit a v m b) ∧
       s.regsKept t [(F.CP_STATUS_LAST_SEQ, 0), (Field.word a, 0)])

/-- A read without INSPECT of a register of RC counts answers the counts and clears them, by packet and by READ_CLEAR,
wherever the port reads registers with VCORE on. READ_CLEAR has no response by the model's choice (log entry 24). -/
def Obligations.ReadClears : Prop :=
  ∀ (flags : Byte) (a : Nat) (s : State),
    a ∈ [R.CLK_TRIG_LOST, R.CP_ERR, R.CP_REFUSED, R.EXP_TRIG_HELD, R.EXP_DROPPED, R.LN_DROPPED, R.POS_SKIPPED,
      R.AUX_OVF_COUNT, R.AUX_INJ_DROPPED, R.PB_ERR, R.FLT_EV_LOST] →
    s.pwr.rails.vcore = true → s.pwr.state ≠ .dormant →
    (s.readOpen = true → s.commitDue = false →
      ∃ t, exec (.readClear (BitVec.ofNat 8 a)) s = .next t ∧ t = { s with regs := t.regs } ∧ t.reg a = 0 ∧
        s.regsKept t [(Field.word a, 0)]) ∧
    (let p := plainPacket 0x81 flags (BitVec.ofNat 32 a) 2
     flags.getLsbD 7 = false → s.portFree p = true →
     ∃ t, exec (.regRd flags (BitVec.ofNat 32 a) 2) s = .next t ∧ t.answers p Status.ok (wordBytes (s.reg a).toNat) ∧
       t = { s with regs := t.regs, port := t.port } ∧ t.reg a = 0 ∧
       s.regsKept t [(F.CP_STATUS_LAST_SEQ, 0), (Field.word a, 0)])

/-- BULK_RD answers the bytes of its range: the Colophon's own, from its shadow; those that the checked words of a
store give; zeros where no word of the store has been written (R564). A packet row is one whole slot by the model's
choice (log entry 14). -/
def Obligations.BulkRdAnswers : Prop :=
  ∀ (flags : Byte) (id off : Nat) (len : Word) (s : State),
    let addr := BitVec.ofNat 32 (id * 2 ^ 24 + off)
    let p := plainPacket 0x84 flags addr len
    let x : Extent := ⟨id, off, len.toNat⟩
    id < 256 → off < 2 ^ 24 → s.portFree p = true → s.extentCheck x (banked id) = Status.ok → s.rawAccess x = false →
    ¬(id = Store.slate ∧ s.pwr.state = .standby) →
    (id = Store.colophon →
      ∃ t, exec (.bulkRd flags addr len) s = .next t ∧
        t.answers p Status.ok ((s.shadow.drop off).take len.toNat) ∧
        t = { s with regs := t.regs, port := t.port } ∧ s.regsKept t [(F.CP_STATUS_LAST_SEQ, 0)]) ∧
    (id ≠ Store.colophon → s.mem.valid = [] →
      ∃ t, exec (.bulkRd flags addr len) s = .next t ∧ t.answers p Status.ok (List.replicate len.toNat 0) ∧
        t = { s with regs := t.regs, port := t.port } ∧ s.regsKept t [(F.CP_STATUS_LAST_SEQ, 0)]) ∧
    (∀ (corrected : Bool) (d : List Byte) (u : State), banked id = false → id ≠ Store.colophon →
      s.slotBegin.readBytes .hostRead p.inspect id false (off % 2 ^ 23) len.toNat = (some (d, corrected), u) →
      ∃ t, exec (.bulkRd flags addr len) s = .next t ∧ t.answers p Status.ok d ∧
        t = { u with regs := t.regs, port := t.port } ∧ u.regsKept t [(F.CP_STATUS_LAST_SEQ, 0)])

/-- BULK_WR of whole words of an unbanked store of 4-byte words: what was written reads back without an error, its
words are valid, and every other word of every store keeps its raw bytes and its valid bit. A packet row is one whole
slot by the model's choice (log entry 14); so is what the port holds of the words that a reset in preparation may leave
unwritten (log entry 12). -/
def Obligations.BulkWrStores : Prop :=
  ∀ (flags : Byte) (id off : Nat) (d : List Byte) (s : State),
    let addr := BitVec.ofNat 32 (id * 2 ^ 24 + off)
    let p := dataPacket 0x85 flags addr d
    id ∈ [Store.cal, Store.defect, Store.agate, Store.log, Store.trace] → off < 2 ^ 23 → off % 4 = 0 →
    d.length % 4 = 0 → d.length ≤ 1024 → s.portFree p = true → s.bulkWriteCheck ⟨id, off, d.length⟩ = Status.ok →
    s.rawAccess ⟨id, off, d.length⟩ = false → s.mem.flip ≠ some id →
    ∃ t, exec (.bulkWr flags addr d) s = .next t ∧ t.answers p Status.ok [] (s.undoOf ⟨id, off, d.length⟩) ∧
      t = { s with
        regs := t.regs, port := t.port
        mem := { s.mem with cells := t.mem.cells, valid := t.mem.valid, writebacks := t.mem.writebacks } } ∧
      s.regsKept t [(F.CP_STATUS_LAST_SEQ, 0)] ∧
      (t.readBytes .hostRead true id false off d.length).1 = some (d, false) ∧
      ∀ w : WordAddr, w.store ≤ 10 → (w.word + 1) * rawSize w.store ≤ 2 ^ 23 →
        ¬(w.store = id ∧ w.bank = false ∧ off ≤ 4 * w.word ∧ 4 * w.word < off + d.length) →
        t.mem.raw w = s.mem.raw w ∧ t.mem.isValid w = s.mem.isValid w

/-- A word of every store reads back clean as it was encoded: the two check symbols of the Slate, the check bits of the
SEC-DED stores, the parities of the byte-parity stores. In a SEC-DED store a single error, in any data bit or any of
the seven check bits, is corrected. -/
def Obligations.CodesCorrect : Prop :=
  (∀ (id : Nat) (d : List Byte), d.length = wordSize id → decodeWord id none (encodeWord id d) = .clean d) ∧
  (∀ (id k b : Nat) (d : List Byte), id ∈ [Store.cal, Store.defect, Store.log] → d.length = 4 → k < 5 → b < 8 →
     (k = 4 → b < 7) →
     ∃ syn, decodeWord id none (listModify (· ^^^ (1#8 <<< b)) k (encodeWord id d)) = .corrected d syn 0)

/-- EVENT_RD answers up to LENGTH / 8 whole entries, oldest first, and removes them, or with INSPECT removes none. A
packet row is one whole slot by the model's choice (log entry 14). -/
def Obligations.EventRdAnswers : Prop :=
  ∀ (flags : Byte) (addr : BitVec 32) (len : Word) (s : State),
    let p := plainPacket 0x89 flags addr len
    s.portFree p = true →
    ∃ t, exec (.eventRd flags addr len) s = .next t ∧
      t.answers p Status.ok ((s.flt.events.take (len.toNat / 8)).flatMap Event.bytes) ∧
      t = { s with regs := t.regs, port := t.port, flt := t.flt } ∧ s.regsKept t [(F.CP_STATUS_LAST_SEQ, 0)] ∧
      t.flt = { s.flt with
        events := if flags.getLsbD 7 then s.flt.events else s.flt.events.drop (len.toNat / 8) }

/-! ### Transactions (chapter 06) -/

/-- TXN_BEGIN opens a transaction from IDLE, is refused with TXN_OPEN or TXN_PENDING while there is one, and
acknowledges a timed-out one: TIMED_OUT, and IDLE. -/
def Obligations.TxnBegins : Prop :=
  ∀ (flags : Byte) (addr : BitVec 32) (s : State),
    let p := plainPacket 0x86 flags addr 0
    s.portFree p = true →
    ∃ t, exec (.txnBegin flags addr 0) s = .next t ∧
      t = { s with regs := t.regs, port := t.port, bnd := t.bnd } ∧ s.regsKept t [(F.CP_STATUS_LAST_SEQ, 0)] ∧
      match s.bnd.txn with
      | .idle => t.answers p Status.ok [] ∧ t.bnd = { s.bnd with txn := .open_ }
      | .open_ => t.answers p Status.txnOpen [] ∧ t.bnd = s.bnd
      | .pending => t.answers p Status.txnPending [] ∧ t.bnd = s.bnd
      | .timedOut => t.answers p Status.timedOut [] ∧ t.bnd = s.bnd.idle

/-- TXN_COMMIT in OPEN: the commits at IMMEDIATE, NEXT_LINE and NEXT_FRAME become PENDING for their apply point; one at
AT_POSITION is refused with NEEDS_REF without a reference and with TXN_PAST where its target is not strictly ahead, and
else becomes PENDING with the target in BND_TARGET. -/
def Obligations.TxnCommits : Prop :=
  ∀ (flags : Byte) (target : BitVec 48) (s : State), s.bnd.txn = .open_ →
    (s.portFree (dataPacket 0x87 flags 0 []) = true →
      ∃ t, exec (.txnCommitImmediate flags []) s = .next t ∧ t.answers (dataPacket 0x87 flags 0 []) Status.ok [] ∧
        t = { s with regs := t.regs, port := t.port, bnd := { s.bnd with txn := .pending, point := .immediate } } ∧
        s.regsKept t [(F.CP_STATUS_LAST_SEQ, 0)]) ∧
    (s.portFree (dataPacket 0x87 flags 1 []) = true →
      ∃ t, exec (.txnCommitNextLine flags []) s = .next t ∧ t.answers (dataPacket 0x87 flags 1 []) Status.ok [] ∧
        t = { s with regs := t.regs, port := t.port, bnd := { s.bnd with txn := .pending, point := .nextLine } } ∧
        s.regsKept t [(F.CP_STATUS_LAST_SEQ, 0)]) ∧
    (s.portFree (dataPacket 0x87 flags 2 []) = true →
      ∃ t, exec (.txnCommitNextFrame flags []) s = .next t ∧ t.answers (dataPacket 0x87 flags 2 []) Status.ok [] ∧
        t = { s with regs := t.regs, port := t.port, bnd := { s.bnd with txn := .pending, point := .nextFrame } } ∧
        s.regsKept t [(F.CP_STATUS_LAST_SEQ, 0)]) ∧
    (let d := bytesBE 6 target.toNat
     let p := dataPacket 0x87 flags 3 d
     s.portFree p = true →
     ∃ t, exec (.txnCommitAtPosition flags d) s = .next t ∧
       t = { s with regs := t.regs, port := t.port, bnd := t.bnd } ∧
       s.regsKept t [(F.CP_STATUS_LAST_SEQ, 0), (Field.word R.BND_TARGET_HI, 0), (Field.word R.BND_TARGET_MID, 0),
         (Field.word R.BND_TARGET_LO, 0)] ∧
       (s.pos.ref = false → t.answers p Status.needsRef [] ∧ t.bnd = s.bnd) ∧
       (s.pos.ref = true → s.ahead target = false → t.answers p Status.txnPast [] ∧ t.bnd = s.bnd) ∧
       (s.pos.ref = true → s.ahead target = true → t.answers p Status.ok [] ∧ t.bnd.txn = .pending ∧
         t.bnd.point = .atPosition ∧ t.bnd.staged = s.bnd.staged ∧
         join48 (t.reg R.BND_TARGET_HI) (t.reg R.BND_TARGET_MID) (t.reg R.BND_TARGET_LO) = target))

/-- TXN_ABORT discards the staged writes in OPEN and cancels the commit in PENDING; in both every banked store that the
transaction wrote starts its bank sync.  In IDLE it is refused with NO_TXN. -/
def Obligations.TxnAborts : Prop :=
  ∀ (flags : Byte) (addr : BitVec 32) (s : State),
    let p := plainPacket 0x88 flags addr 0
    s.portFree p = true →
    ∃ t, exec (.txnAbort flags addr 0) s = .next t ∧
      t = { s with regs := t.regs, port := t.port, bnd := t.bnd } ∧ s.regsKept t [(F.CP_STATUS_LAST_SEQ, 0)] ∧
      (s.bnd.txn = .idle → t.answers p Status.noTxn [] ∧ t.bnd = s.bnd) ∧
      (s.bnd.txn = .timedOut → t.answers p Status.timedOut [] ∧ t.bnd = s.bnd.idle) ∧
      (s.bnd.txn = .open_ ∨ s.bnd.txn = .pending →
        t.answers p Status.ok [] ∧ t.bnd.txn = .idle ∧ t.bnd.staged = [] ∧
        ∀ x : BankedStore, t.bnd.wrote x = false ∧
          t.bnd.sync x = if s.bnd.wrote x then .pending else s.bnd.sync x)

/-- TXN_APPLY, once the apply point of a pending commit has come, IMMEDIATE or a position reached: in the apply tick
every staged value goes live at once, BND_GEN is one higher, APPLIED sets, the transaction is over and TXN_APPLIED is
raised with the new BND_GEN. A commit whose position P has not reached, and one that waits for an exposure start,
stays pending; where nothing is pending, nothing happens. The row asserts that the apply tick has come (log entry 4). -/
def Obligations.TxnApplies : Prop :=
  ∀ s : State, s.flt.events.length < 64 →
    let d := delta48 s.pos.p (join48 (s.reg R.BND_TARGET_HI) (s.reg R.BND_TARGET_MID) (s.reg R.BND_TARGET_LO))
    (s.bnd.txn = .pending →
      s.bnd.point = .immediate ∨ s.bnd.point = .atPosition ∧ (if s.bnd.below then d ≤ 0 else 0 ≤ d) →
      (∀ x, s.bnd.wrote x = false) →
      (∀ w ∈ s.bnd.staged, quietTrans w.addr = true ∧ w.inst < 256 ∧ instPresent s.part w.addr w.inst = true) →
      (s.bnd.staged.map fun w => (w.addr, w.inst)).Nodup →
      ∃ t, exec .txnApply s = .next t ∧ t = { s with regs := t.regs, fresh := t.fresh, bnd := t.bnd, flt := t.flt } ∧
        t.bnd = s.bnd.idle ∧ (∀ w ∈ s.bnd.staged, t.reg w.addr w.inst = w.value) ∧
        t.fld F.BND_GEN_GEN = (s.fld F.BND_GEN_GEN + 1) % 256 ∧ t.flag F.BND_STATUS_APPLIED = true ∧
        t.flt = { s.flt with events := s.flt.events ++
          [⟨0x20, s.flt.mark, noUnit, (s.fld F.BND_GEN_GEN + 1) % 256, s.timeBits 32, false⟩] } ∧
        s.regsKept t ([(F.BND_GEN_GEN, 0), (F.BND_STATUS_APPLIED, 0)] ++
          s.bnd.staged.map fun w => (Field.word w.addr, w.inst))) ∧
    (s.bnd.txn = .pending →
      s.bnd.point = .nextLine ∨ s.bnd.point = .nextFrame ∨
        s.bnd.point = .atPosition ∧ ¬(if s.bnd.below then d ≤ 0 else 0 ≤ d) →
      exec .txnApply s = .next s) ∧
    (s.bnd.txn ≠ .pending → exec .txnApply s = .next s)

/-- BND_TXN_TMO_EXPIRY in OPEN rolls the transaction back, leaves TIMED_OUT with its latch, and raises TXN_TIMEOUT
with the number of staged writes. The row asserts that the time has run out (log entry 4). -/
def Obligations.TxnTimesOut : Prop :=
  ∀ s : State, s.bnd.txn = .open_ → s.flt.events.length < 64 →
    ∃ t, exec .bndTxnTmoExpiry s = .next t ∧
      t = { s with regs := t.regs, fresh := t.fresh, bnd := t.bnd, flt := t.flt } ∧
      t.bnd.txn = .timedOut ∧ t.bnd.staged = [] ∧ t.flag F.BND_STATUS_TIMEOUT_LATCH = true ∧
      (∀ x : BankedStore, t.bnd.sync x = if s.bnd.wrote x then .pending else s.bnd.sync x) ∧
      t.flt = { s.flt with events := s.flt.events ++
        [⟨0x21, s.flt.mark, noUnit, s.bnd.staged.length % 2 ^ 16, s.timeBits 32, false⟩] } ∧
      s.regsKept t [(F.BND_STATUS_TIMEOUT_LATCH, 0)]

/-- A bank sync begins once no frame context uses its old active bank, and when it ends the standby bank holds what
the active bank holds, word by word, and SYNC of the store is over. The row asserts that the copy is complete (log
entry 4). -/
def Obligations.BankSyncs : Prop :=
  ∀ (x : BankedStore) (s : State),
    (s.bnd.sync x = .pending → s.exp.usesBank x (!s.activeBank x) = false →
      exec (.bankSyncStart x) s = .next { s with bnd := s.bnd.setSync x .running }) ∧
    (s.bnd.sync x = .pending → s.exp.usesBank x (!s.activeBank x) = true → exec (.bankSyncStart x) s = .next s) ∧
    (s.bnd.sync x = .running → s.mem.firstBad (bankedId x) (s.activeBank x) = none →
      ∃ t, exec (.bankSyncDone x) s = .next t ∧ t = { s with bnd := s.bnd.setSync x .none, mem := t.mem } ∧
        ∀ k, (k + 1) * 5 ≤ 2 ^ 23 →
          t.mem.raw ⟨bankedId x, !s.activeBank x, k⟩ = s.mem.raw ⟨bankedId x, s.activeBank x, k⟩ ∧
          t.mem.isValid ⟨bankedId x, !s.activeBank x, k⟩ = s.mem.isValid ⟨bankedId x, s.activeBank x, k⟩)

/-- The watchdog: EN and PERIOD are written while EN is 0 and ignored once it is 1; a kick changes no register; a
period that ends without one writes the WATCHDOG entry and starts a FAULT reset with FAULT_WDOG. The expiry includes
the FAULT reset (log entry 25). -/
def Obligations.WatchdogActs : Prop :=
  ∀ (period : BitVec 10) (s : State), s.live = true →
    (s.flag F.BND_WDOG_EN = false →
      ∃ t, exec (.bndWdogEnable period) s = .next t ∧ t = { s with regs := t.regs } ∧ t.flag F.BND_WDOG_EN = true ∧
        t.fld F.BND_WDOG_PERIOD = max 1 period.toNat ∧ s.regsKept t [(F.BND_WDOG_EN, 0), (F.BND_WDOG_PERIOD, 0)]) ∧
    (s.flag F.BND_WDOG_EN = true → exec (.bndWdogEnable period) s = .next s) ∧
    (∃ t, exec .bndWdogKick s = .next t ∧ t = { s with regs := t.regs } ∧ s.regsKept t []) ∧
    (s.flag F.BND_WDOG_EN = true → s.mem.failing = [] →
      ∃ t e, exec .bndWdogExpiry s = .next t ∧ t.flag F.SYS_RESET_CAUSE_FAULT_WDOG = true ∧
        t.fld F.SYS_RESET_CAUSE_CLASS = 5 ∧ t.pwr.kind = .reset .fault ∧ t.port.resp = .empty ∧ t.bnd.txn = .idle ∧
        Cells.get none t.flt.head (s.nextSeq % 8) = some e ∧ e.kind = kindWatchdog ∧ e.time = s.clk.time.toNat ∧
        t.pending = s.pending ∧ t.part = s.part)

/-- A legacy column-window write: the register stores its value; S and E translate into QR_ENABLE and into the window
of every present quire that they reach, live in IDLE, staged in OPEN; with E below S no quire is enabled. That the
register's own value stores at once in OPEN, with no staging slot, is the model's reading (log entry 23). -/
def Obligations.LegacyColumns : Prop :=
  ∀ (last : Bool) (value : Word) (s : State), s.live = true →
    let S := if last then s.fld F.LEG_COL_FIRST_S else F.LEG_COL_FIRST_S.of value
    let E := if last then F.LEG_COL_LAST_E.of value else s.fld F.LEG_COL_LAST_E
    let own := (if last then F.LEG_COL_LAST_E else F.LEG_COL_FIRST_S, 0)
    (s.bnd.txn = .idle → s.exp.tdiCtx = none → s.flt.pending = none →
      ∃ t, exec (.legColWindowWrite last value) s = .next t ∧ t = { s with regs := t.regs } ∧
        t.fld F.LEG_COL_FIRST_S = S ∧ t.fld F.LEG_COL_LAST_E = E ∧
        s.regsKept t ([(Field.word R.QR_ENABLE, 0), (F.BND_GEN_GEN, 0), own] ++
          (List.range 12).flatMap fun q => [(Field.word R.QR_COL_START, q), (Field.word R.QR_COL_COUNT, q)]) ∧
        ∀ q < 12, let reached := decide (q < s.part.quires) && decide (S ≤ E) &&
            decide (max S (512 * q) ≤ min E (512 * q + 511))
          (t.reg R.QR_ENABLE).getLsbD q = reached ∧
          (reached = true → (t.reg R.QR_COL_START q).toNat = max S (512 * q) - 512 * q ∧
            (t.reg R.QR_COL_COUNT q).toNat = min E (512 * q + 511) - max S (512 * q) + 1) ∧
          (reached = false → t.reg R.QR_COL_START q = s.reg R.QR_COL_START q ∧
            t.reg R.QR_COL_COUNT q = s.reg R.QR_COL_COUNT q)) ∧
    (s.bnd.txn = .open_ → s.bnd.staged = [] →
      ∃ t, exec (.legColWindowWrite last value) s = .next t ∧
        t = { s with regs := t.regs, bnd := { s.bnd with staged := columnWindow s.part S E } } ∧
        t.fld F.LEG_COL_FIRST_S = S ∧ t.fld F.LEG_COL_LAST_E = E ∧ s.regsKept t [own])

/-- REGISTER_WRITE through the port: of a register whose write only stores, every bit follows its access code, and a
flag that hardware has set in the same tick stays set; of a transactional register in OPEN, the value takes a staging
slot and no register changes; in IDLE it goes live, and BND_GEN counts it if it changes the register. The operand for
an update that comes with the write is not used here (log entry 20). -/
def Obligations.RegisterWrites : Prop :=
  ∀ (a : Nat) (v : Word) (lost : Bool) (s : State), s.live = true → a < 256 →
    (a ∈ plainRegs →
      ∃ t, exec (.registerWrite .port (BitVec.ofNat 8 a) v lost) s = .next t ∧ t = { s with regs := t.regs } ∧
        (∀ b < 16, (t.reg a).getLsbD b = s.storedBit a v 0xFFFF b) ∧ s.regsKept t [(Field.word a, 0)]) ∧
    (quietTrans a = true → aliasAt a = none → a ≠ R.LEG_COL_FIRST → a ≠ R.LEG_COL_LAST →
      instPresent s.part a (s.selected a) = true →
      let w := limitWord a (storedAfter a (s.transValue a (s.selected a)) v 0xFFFF)
      s.transCheck a (s.transValue a (s.selected a)) w 0xFFFF = Status.ok →
      (s.bnd.txn = .open_ → s.bnd.stagedValue a (s.selected a) = none → s.bnd.staged.length < stagingSlots →
        exec (.registerWrite .port (BitVec.ofNat 8 a) v lost) s =
          .next { s with bnd := { s.bnd with staged := s.bnd.staged ++ [⟨a, s.selected a, w⟩] } }) ∧
      (s.bnd.txn = .idle →
        ∃ t, exec (.registerWrite .port (BitVec.ofNat 8 a) v lost) s = .next t ∧ t = { s with regs := t.regs } ∧
          t.reg a (s.selected a) = w ∧
          t.fld F.BND_GEN_GEN = (if s.reg a (s.selected a) = w then s.fld F.BND_GEN_GEN
            else (s.fld F.BND_GEN_GEN + 1) % 256) ∧
          s.regsKept t [(Field.word a, s.selected a), (F.BND_GEN_GEN, 0)]))

/-! ### Power, wake and resets (chapter 03) -/

/-- PWR_CTRL.REQ: from Armed to Standby and from Armed or Standby to Dormant with no transaction open, from Standby to
Armed by the wake steps from step 5; a request for the state that the device is in does nothing. How the response
survives a move to Dormant is the model's reading (log entry 19). -/
def Obligations.PowerRequests : Prop :=
  ∀ s : State, s.bnd.txn = .idle → s.noSyncs = true → s.pwr.mute = false →
    let cfgsel := F.SYS_STRAPS_CFGSEL.of (s.reg R.SYS_STRAPS)
    let spi := F.SYS_STRAPS_SPIMODE.of (s.reg R.SYS_STRAPS) == 1
    (s.pwr.state = .armed → s.idleStream = true →
      ∃ t, exec .pwrReqStandby s = .next t ∧
        t = { s with
          regs := t.regs, exp := Exposure.init, cnv := Conversion.init, lanes := t.lanes, spn := s.spn.clear true
          pos := s.pos.clear true, aux := Aux.init, tmp := Temperature.init, agt := Agate.init
          pb := { s.pb with buffer := [] }, mem := s.mem.clearRuntime, clk := s.clk.clearTime
          flt := { s.flt with events := [], pending := none }, lines := 0, past := [], fresh := [], free := s.free + 13
          pwr := { s.pwr with
            state := .standby, safeWhy := .notSafe, cp1Ok := false, cp2Ok := false, droop1 := none, droop2 := none
            rails := { s.pwr.rails with vana := false, vpixh := false, vneg := false, vlane := false } } } ∧
        s.retains t .standby cfgsel spi [] ∧ t.lanes.running = false) ∧
    (s.pwr.state = .armed ∨ s.pwr.state = .standby → s.idleStream = true →
      ∃ t, exec .pwrReqDormant s = .next t ∧ t.pwr.state = .dormant ∧ t.pwr.rails = Rails.off ∧
        t.port.resp = .empty ∧ t.port.kept = none ∧ t.bnd = Bindery.init ∧ t.exp = Exposure.init ∧
        t.spn = Spine.init ∧ t.pos = Position.init ∧ t.aux = Aux.init ∧ t.agt = Agate.init ∧ t.pb = PBus.init ∧
        t.flt.events = [] ∧ t.flt.head = Cells.mapEntries none (fun _ e => e.map fun x => { x with copied := false }) s.flt.head ∧
        t.bst.record = s.bst.record ∧
        s.retains t .dormant cfgsel spi [R.SYS_STORE_LOST, R.SYS_STATUS, R.FLT_LOG_WR, R.AGT_TRACE, R.BND_STATUS] ∧
        (∀ w : WordAddr, w.store ∈ classC ∨ w.store = Store.slate → w.word < 2 ^ 23 → t.mem.isValid w = false) ∧
        t.pending = s.pending ∧ t.part = s.part) ∧
    (s.pwr.state = .standby → s.pwr.warn = false → s.injArg 0x04 = none →
      exec .pwrReqArmed s = .next { s with
        port := s.port.clockTo false
        pwr := { s.pwr with
          from_ := .standby, state := .waking, kind := .standby, toArmed := true, step := 5, stepRunning := true } }) ∧
    (s.pwr.state = .armed → exec .pwrReqArmed s = .next s) ∧
    (s.pwr.state = .standby → exec .pwrReqStandby s = .next s)

/-- A wake step that completes switches on what Table 03-5 gives it, and the next step starts, or waits while the
warning is asserted; after step 8 of a wake from Standby the device is Armed, after a reset or a wake from Dormant the
finish stage comes; a wake to Standby ends after step 4. The row asserts that the step is complete (log entry 4). -/
def Obligations.WakeStepCompletes : Prop :=
  ∀ (n : Nat) (s : State), s.wakeStep = some n → s.injArg 0x04 = none → s.colophonFails n = false →
    (n < 8 → ¬(n = 2 ∧ s.flag F.SYS_RESET_CAUSE_LOCKOUT = true) → ¬(n = 4 ∧ s.pwr.toArmed = false) →
      exec .wakeStepDone s = .next { s with
        clk := if n = 4 then s.clk.lockBoot else s.clk
        pwr := { s.pwr with
          step := n + 1, stepRunning := !s.pwr.warn
          rails := { s.pwr.rails with
            vcore := s.pwr.rails.vcore || n == 3, vref := s.pwr.rails.vref || n == 3, vana := s.pwr.rails.vana || n == 5
            vpixh := s.pwr.rails.vpixh || n == 6, vneg := s.pwr.rails.vneg || n == 7 }
          cp1Ok := if n = 6 then !s.flt.active.contains 1 else s.pwr.cp1Ok
          cp2Ok := if n = 7 then !s.flt.active.contains 2 else s.pwr.cp2Ok
          droop1 := if n = 6 then none else s.pwr.droop1, droop2 := if n = 7 then none else s.pwr.droop2 } }) ∧
    (n = 8 → s.pwr.kind ≠ .standby →
      exec .wakeStepDone s = .next { s with
        lanes := { s.lanes with running := true }
        pwr := { s.pwr with step := 9, stepRunning := !s.pwr.warn, rails := { s.pwr.rails with vlane := true } } }) ∧
    (n = 8 → s.pwr.kind = .standby → s.pwr.rails.vcore = true → s.flt.events = [] →
      ∃ t, exec .wakeStepDone s = .next t ∧ t.pwr.state = .armed ∧ t.pwr.step = 0 ∧ t.pwr.rails.vlane = true ∧
        t.lanes.running = true ∧ t.clk = s.clk.start ∧ t.fld F.SYS_RESET_CAUSE_FAILS = 0 ∧
        t.port = s.port.clockTo true ∧ ∃ e l, t.flt.events = e :: l ∧ e.code = 0x01) ∧
    (n = 4 → s.pwr.toArmed = false → s.fld F.FLT_STATUS_COUNT = 0 → s.pwr.rails.vcore = true → s.flt.events = [] →
      ∃ t, exec .wakeStepDone s = .next t ∧ t.pwr.state = .standby ∧ t.pwr.step = 0 ∧ t.clk = s.clk.lockBoot ∧
        t.port = s.port.clockTo true ∧ t.fld F.SYS_RESET_CAUSE_FAILS = 0 ∧
        (t.flt.events.map Event.code) = [0x01])

/-- A wake step that reaches its timeout leaves Safe: the rails of the completed steps stay on, those of the failing
and of later steps are off, WAKE_FAIL, FAIL_STEP and FAILS record it, and the third failure in a row locks out.
WAKE_RETRY in Safe after a wake failure: PWR_WAKE_TMO takes the payload where there is one, with no timeout below 1,
and the sequence restarts at the step that failed; it is answered before. The row asserts that the timeout is reached;
the restart at the failing step is the model's reading (log entries 4 and 32). -/
def Obligations.FailedWakes : Prop :=
  (∀ (n : Nat) (s : State), s.wakeStep = some n → s.colophonFails n = false →
     let fails := min 3 (s.fld F.SYS_RESET_CAUSE_FAILS + 1)
     let lockout := s.flag F.SYS_RESET_CAUSE_LOCKOUT || decide (fails = 3)
     ∃ t, exec .wakeStepTimeout s = .next t ∧ t.pwr.state = .safe ∧
       t.pwr.safeWhy = (if lockout then .lockout else .wakeFailed) ∧
       t.pwr.rails = { vcore := s.pwr.rails.vcore && decide (3 < n), vref := s.pwr.rails.vref && decide (3 < n)
                       vana := s.pwr.rails.vana && decide (5 < n), vpixh := s.pwr.rails.vpixh && decide (6 < n)
                       vneg := s.pwr.rails.vneg && decide (7 < n), vlane := false } ∧
       t.flag F.SYS_RESET_CAUSE_WAKE_FAIL = true ∧ t.fld F.SYS_RESET_CAUSE_FAIL_STEP = n ∧
       t.fld F.SYS_RESET_CAUSE_FAILS = fails ∧ t.flag F.SYS_RESET_CAUSE_LOCKOUT = lockout ∧
       t.pwr.mute = decide (n = 1) ∧ t.bnd = s.bnd ∧ t.bst = s.bst ∧ t.clk = s.clk ∧ t.pending = s.pending ∧
       s.regsKept t [(F.SYS_RESET_CAUSE_WAKE_FAIL, 0), (F.SYS_RESET_CAUSE_FAIL_STEP, 0), (F.SYS_RESET_CAUSE_FAILS, 0),
         (F.SYS_RESET_CAUSE_LOCKOUT, 0), (Field.word R.AUX_INJ_DROPPED, 0), (Field.word R.AUX_OVF_COUNT, 0)]) ∧
  (∀ (flags : Byte) (addr : BitVec 32) (w : Option Word) (s : State), s.pwr.warn = false → s.injArg 0x04 = none →
     let d := match w with
       | some v => bytesBE 2 v.toNat
       | none => []
     let p := dataPacket 0x8B flags addr d
     s.portFree p = true →
     ∃ t, exec (.wakeRetry flags addr d) s = .next t ∧ t.answers p Status.ok [] ∧
       t = { s with
         regs := t.regs, port := t.port
         pwr := { s.pwr with from_ := .safe, state := .waking, safeWhy := .notSafe, stepRunning := true } } ∧
       (∀ v, w = some v →
         (t.fld F.PWR_WAKE_TMO_PLL_TMO) = max 1 (F.PWR_WAKE_TMO_PLL_TMO.of v) ∧
         (t.fld F.PWR_WAKE_TMO_STEP_TMO) = max 1 (F.PWR_WAKE_TMO_STEP_TMO.of v)) ∧
       s.regsKept t ((F.CP_STATUS_LAST_SEQ, 0) :: if w.isSome then [(Field.word R.PWR_WAKE_TMO, 0)] else []))

/-- The start-up read after a POR keeps the 64 bytes that it read, or counts the record as missing and reports the
outcome in PB_STATUS.ERR. The finish stage ends a wake: with a valid passing record in Armed, with a valid failing one
in Safe, without a valid record, with one that is NOT_RUN, and after a FAULT reset in the start-up self-test; after a
POR it decides on the record that the start-up read gave. That measurements and the end of a step come from outside is
the model's choice (log entries 4 and 28). -/
def Obligations.StartupsDecide : Prop :=
  (∀ (d : List Byte) (c : Fin 10) (losses : Nat) (s : State), s.pwr.state = .waking → s.pwr.kind = .reset .por → 4 ≤ s.pwr.step →
     s.bst.start = .notRead →
     (∃ t, exec (.startupRecordRead (.complete d losses)) s = .next t ∧
       t = { s with regs := t.regs, bst := { s.bst with start := .got d } } ∧ t.fld F.PB_STATUS_ERR = 0 ∧
       s.regsKept t [(F.PB_STATUS_ERR, 0), (F.PB_ERR_ARB_LOSSES, 0)]) ∧
     (∃ t, exec (.startupRecordRead (.failed c losses)) s = .next t ∧
       t = { s with regs := t.regs, fresh := t.fresh, bst := { s.bst with start := .missing } } ∧
       t.fld F.PB_STATUS_ERR = c.val ∧ (c.val = 6 → t.flag F.PB_STATUS_STUCK = true) ∧
       s.regsKept t [(F.PB_STATUS_ERR, 0), (F.PB_STATUS_STUCK, 0), (F.PB_ERR_NACKS, 0),
         (F.PB_ERR_ARB_LOSSES, 0)])) ∧
  (∀ (r : List Byte) (s : State), s.pwr.state = .waking → s.pwr.step = 9 → s.pwr.stepRunning = true → s.bst.run = none →
     s.noSyncs = true → s.fld F.FLT_STATUS_COUNT = 0 → s.mem.failing = [] →
     (s.pwr.kind = .reset .por ∧ s.bst.start = .got r ∨
       s.pwr.kind ≠ .reset .por ∧ s.pwr.kind ≠ .reset .fault ∧ s.bst.record = r ∨
       s.pwr.kind = .reset .por ∧ s.bst.start = .missing ∧ r = [] ∨ s.pwr.kind = .reset .fault ∧ r = []) →
     ∃ t, exec .finishStage s = .next t ∧ t.pending = s.pending ∧ t.part = s.part ∧ t.bnd = s.bnd ∧
       (recordValid s.part r = true → (r.getD 3 0).toNat = 1 →
         t.pwr.state = .armed ∧ t.pwr.step = 0 ∧ t.clk = s.clk.start ∧ t.bst.run = none ∧ t.bst.record = r) ∧
       (recordValid s.part r = true → (r.getD 3 0).toNat = 2 →
         t.pwr.state = .safe ∧ t.pwr.safeWhy = .recordFailed ∧ t.pwr.rails = s.pwr.rails ∧ t.bst.run = none) ∧
       (recordValid s.part r = false ∨ (r.getD 3 0).toNat = 3 →
         t.pwr.state = .waking ∧ t.bst.run = some (TestRun.begin_ .startUp 0)))

/-- SHUTDOWN in Armed starts the shut-down self-test in Testing, BST_RUN in Armed a full run; SHUTDOWN in Standby
starts with the wake steps from step 5; the engines halt and the aux sequences stop. In Safe after a wake failure or
in lockout SHUTDOWN runs no test, writes no record and enters Dormant with every rail off, FAILS and LOCKOUT kept. -/
def Obligations.TestRequests : Prop :=
  ∀ (flags : Byte) (addr : BitVec 32) (s : State),
    (s.pwr.state = .armed ∨ s.pwr.state = .standby → s.portFree (plainPacket 0x8A flags addr 0) = true →
      ∃ t, exec (.shutdown flags addr 0) s = .next t ∧ t.answers (plainPacket 0x8A flags addr 0) Status.ok [] ∧
        t = { s with
          regs := t.regs, port := t.port, agt := t.agt, aux := t.aux, flt := t.flt
          pwr := { s.pwr with from_ := s.pwr.state, state := .testing }
          bst := { s.bst with run := some (TestRun.begin_ .shutdown (if s.pwr.state = .standby then 5 else 0)) } } ∧
        (∀ e < s.part.engines, (t.engine e).run = .halted ∧ (t.engine e).why = .test) ∧ t.aux.round = none ∧
        t.aux.regular = none ∧ t.aux.injected = []) ∧
    (s.pwr.state = .armed → s.portFree (plainPacket 0x8C flags addr 0) = true →
      ∃ t, exec (.bstRun flags addr 0) s = .next t ∧ t.answers (plainPacket 0x8C flags addr 0) Status.ok [] ∧
        t = { s with
          regs := t.regs, port := t.port, agt := t.agt, aux := t.aux, flt := t.flt
          pwr := { s.pwr with from_ := .armed, state := .testing }
          bst := { s.bst with run := some (TestRun.begin_ .bstRun 0) } } ∧
        (∀ e < s.part.engines, (t.engine e).run = .halted ∧ (t.engine e).why = .test) ∧ t.aux.round = none ∧
        t.aux.regular = none ∧ t.aux.injected = []) ∧
    (s.pwr.state = .safe → s.pwr.safeWhy = .wakeFailed ∨ s.pwr.safeWhy = .lockout →
      s.portFree (plainPacket 0x8A flags addr 0) = true →
      ∃ t, exec (.shutdown flags addr 0) s = .next t ∧ t.pwr.state = .dormant ∧ t.pwr.rails = Rails.off ∧
        t.port.resp = .empty ∧ t.bst.run = none ∧ t.bst.record = s.bst.record ∧ t.pb = PBus.init ∧
        t.fld F.SYS_RESET_CAUSE_FAILS = s.fld F.SYS_RESET_CAUSE_FAILS ∧
        t.flag F.SYS_RESET_CAUSE_LOCKOUT = s.flag F.SYS_RESET_CAUSE_LOCKOUT)

/-- PIN_RESET, FAULT_RESET and SOFT_RESET, from a state in which no reset and no wake runs and no store has failed:
the reset of the class; class C is kept; step 1 of the wake sequence starts, or waits for RESET_N, for the supply
condition that holds the device, or for the warning. WARN while a reset is held is the model's reading (log
entry 32). A BULK_WR in progress, whose words may be half written, is not part of this (log entry 12). -/
def Obligations.ResetsStart : Prop :=
  ∀ s : State, s.pwr.state ≠ .waking → s.pwr.state ≠ .off → s.mem.failing = [] → s.pwr.inReset = none →
    s.pwr.testHigh = false → s.flt.mark = false → s.port.undo = [] →
    let cfgsel := F.SYS_STRAPS_CFGSEL.of (s.reg R.SYS_STRAPS)
    let spi := F.SYS_STRAPS_SPIMODE.of (s.reg R.SYS_STRAPS) == 1
    (s.pwr.resetLow = false →
      ∃ t, exec .pinReset s = .next t ∧ s.wasReset t .pin ∧ s.retains t (.reset .pin) cfgsel spi [R.SYS_RESET_CAUSE] ∧
        (s.idleStream = true → t.mem = s.mem.clearRuntime) ∧ t.pwr.state = .waking ∧ t.pwr.resetLow = true ∧
        t.pwr.step = 0 ∧ t.pwr.stepRunning = false) ∧
    (s.pwr.resetLow = false →
      ∃ t, exec .faultReset s = .next t ∧ s.wasReset t .fault ∧
        s.retains t (.reset .fault) cfgsel spi [R.SYS_RESET_CAUSE] ∧
        (s.idleStream = true → t.mem = s.mem.clearRuntime) ∧ t.pwr.state = .waking ∧ t.pwr.step = 1 ∧
        t.pwr.stepRunning = !s.pwr.warnReal ∧ t.pwr.supplyWait = s.pwr.warnReal) ∧
    (s.pwr.resetLow = false → s.live = true →
      ∃ t, exec (.softReset .port) s = .next t ∧ s.wasReset t .soft ∧
        s.retains t (.reset .soft) cfgsel spi [R.SYS_RESET_CAUSE] ∧
        (s.idleStream = true → t.mem = s.mem.clearRuntime) ∧ t.pwr.state = .waking ∧ t.pwr.step = 1 ∧
        t.pwr.stepRunning = !s.pwr.warnReal ∧ t.pwr.supplyWait = s.pwr.warnReal)

/-- BOR and POR from a state in which no reset and no wake runs: the reset of the class, the class-C stores invalid,
the warning asserted; the device is held until the supply releases it. A POR leaves class A at its reset too. WARN
from the reset on is the model's reading (log entry 32). A BULK_WR in progress is not part of this (log entry 12). -/
def Obligations.SupplyResets : Prop :=
  ∀ s : State, s.pwr.state ≠ .waking → s.pwr.state ≠ .off → s.idleStream = true → s.flt.mark = false → s.port.undo = [] →
    let cfgsel := F.SYS_STRAPS_CFGSEL.of (s.reg R.SYS_STRAPS)
    let spi := F.SYS_STRAPS_SPIMODE.of (s.reg R.SYS_STRAPS) == 1
    (s.pwr.inReset = none →
      ∃ t, exec .bor s = .next t ∧ s.wasReset t .bor ∧
        s.retains t (.reset .bor) cfgsel spi
          [R.SYS_RESET_CAUSE, R.SYS_STORE_LOST, R.SYS_STATUS, R.FLT_LOG_WR, R.AGT_TRACE, R.BND_STATUS] ∧
        (∀ w : WordAddr, w.store ∈ classC → w.word < 2 ^ 23 → t.mem.isValid w = false) ∧
        t.pwr.state = .waking ∧ t.pwr.inReset = some .bor ∧ t.pwr.step = 0 ∧ t.pwr.warn = true) ∧
    (∃ t, exec .por s = .next t ∧ s.wasReset t .por ∧
        s.retains t (.reset .por) 0 false [R.SYS_RESET_CAUSE] ∧
        (∀ w : WordAddr, w.store ∈ classC → w.word < 2 ^ 23 → t.mem.isValid w = false) ∧ t.flt.head = [] ∧
        t.pwr.state = .off ∧ t.pwr.inReset = some .por ∧ t.pwr.step = 0 ∧ t.pwr.warn = true)

/-- The end of what holds a reset: POR_RELEASE samples the straps, BOR_RELEASE and RESET_N_RELEASE do not; with nothing
else holding the device, wake step 1 starts, or waits for the supply while the warning is asserted. -/
def Obligations.ResetsRelease : Prop :=
  ∀ (cfgsel : BitVec 2) (spi : Bool) (s : State), s.pwr.step = 0 → s.pwr.supplyWait = false → s.pwr.testHigh = false →
    (s.pwr.state = .off → s.pwr.inReset = some .por → s.pwr.resetLow = false →
      ∃ t, exec (.porRelease cfgsel spi) s = .next t ∧
        t = { s with
          regs := t.regs, port := { s.port with mode3 := spi }
          pwr := { s.pwr with
            inReset := none, state := .waking, step := 1, stepRunning := !s.pwr.warn, supplyWait := s.pwr.warn } } ∧
        t.fld F.SYS_STRAPS_CFGSEL = cfgsel.toNat ∧ t.flag F.SYS_STRAPS_SPIMODE = spi ∧ t.flag F.CP_MODE_SPI = spi ∧
        t.fld F.PB_TGT_ADDR = 0x2C + cfgsel.toNat ∧
        s.regsKept t [(F.SYS_STRAPS_CFGSEL, 0), (F.SYS_STRAPS_SPIMODE, 0), (F.CP_MODE_SPI, 0), (F.PB_TGT_ADDR, 0)]) ∧
    (s.pwr.state = .waking → s.pwr.inReset = some .bor → s.pwr.resetLow = false →
      exec .borRelease s = .next { s with
        pwr := { s.pwr with
          inReset := none, step := 1, stepRunning := !s.pwr.warn, supplyWait := s.pwr.warn } }) ∧
    (s.pwr.state = .waking → s.pwr.inReset = none → s.pwr.resetLow = true →
      exec .resetNRelease s = .next { s with
        pwr := { s.pwr with
          resetLow := false, step := 1, stepRunning := !s.pwr.warn, supplyWait := s.pwr.warn } })

/-- The end of the wait for the supply starts the wake step that waits, with the warning deasserted. WARN while the
supply is awaited is the model's reading (log entry 32). -/
def Obligations.SupplyWaitEnds : Prop :=
  ∀ s : State, s.pwr.state = .waking → s.pwr.supplyWait = true → s.pwr.inReset = none → s.pwr.resetLow = false →
    s.pwr.testHigh = false → s.injArg 0x04 = none →
    exec .wakeSupplyWaitEnd s = .next { s with
      pwr := { s.pwr with
        warn := false, warnReal := false, supplyWait := false, step := max 1 s.pwr.step, stepRunning := true } }

/-- The supply warning asserts: WARN and WARN_LATCH, under the policy HOLD the exposure hold, and while the event log
has power SUPPLY_WARN with the level in force, line 59, and SW for every frame, sub-exposure and TDI line whose
exposure is not over; it deasserts, and 10 µs after that the hold ends. A charge pump leaves regulation while Armed or
Streaming: its CP_OK reads 0 in that tick, CP_DROOP sets and the event CP_DROOP names the pump; that it may regulate
again from the next tick on, at ticks left open, is the model's choice (log entry 12). -/
def Obligations.SupplyAndPumpsWarn : Prop :=
  (∀ s : State, s.bst.run = none → s.flt.events.length < 64 →
     (s.pwr.warn = false →
       let sw (f : Frame) : Frame := { f with sw := true }
       let stage := (s.exp.exposing.bind fun e => if e.frame.ctx.scan = .tdi then some e.frame.number else none).getD
         s.exp.tdiCount
       ∃ t, exec .supplyWarn s = .next t ∧
         t = { s with
           regs := t.regs, fresh := t.fresh, pwr := t.pwr, flt := t.flt, exp := t.exp
           lines := if s.pwr.rails.vcore then s.lines ||| (1#64 <<< 59) else s.lines } ∧
         t.pwr = { s.pwr with
           warn := true, warnReal := true, hold := s.pwr.hold || !s.flag F.PWR_DIP_POLICY_POLICY, holdCount := false } ∧
         t.flag F.PWR_STATUS_WARN_LATCH = true ∧ s.regsKept t [(F.PWR_STATUS_WARN_LATCH, 0)] ∧
         t.flt = { s.flt with
           events := s.flt.events ++ (if s.pwr.rails.vcore then
             [⟨0x10, s.flt.mark, noUnit, (1620 + 10 * s.fld F.PWR_WARN_LEVEL) % 2 ^ 16, s.timeBits 32, false⟩] else []) } ∧
         t.exp = (if s.pwr.rails.vcore then
           { s.exp with
             exposing := s.exp.exposing.map fun e => { e with frame := sw e.frame }
             between := s.exp.between.map fun b => (sw b.1, b.2)
             tdiLines := s.exp.tdiLines.map fun l => { l with sw := l.sw || decide (stage < l.index + l.ctx.stages) } }
           else s.exp)) ∧
     (s.pwr.warn = true → s.flt.active = [] → s.pwr.state ≠ .waking →
       exec .supplyWarnDeassert s = .next { s with
         pwr := { s.pwr with warn := false, warnReal := false, holdCount := s.pwr.hold } }) ∧
     (s.pwr.warn = false → s.pwr.holdCount = true →
       exec .dipHoldEnd s = .next { s with pwr := { s.pwr with hold := false, holdCount := false } })) ∧
  (∀ (second : Bool) (s : State), s.analog = true → s.flt.events.length < 64 →
     (if second then s.pwr.cp2Ok else s.pwr.cp1Ok) = true →
     ∃ t e, exec (.cpDroop second) s = .next t ∧
       t = { s with regs := t.regs, fresh := t.fresh, pwr := t.pwr, flt := t.flt } ∧
       t.pwr = (if second then { s.pwr with cp2Ok := false, droop2 := some s.clk.now }
         else { s.pwr with cp1Ok := false, droop1 := some s.clk.now }) ∧
       t.pumpOk second = false ∧
       t.flag F.PWR_STATUS_CP_DROOP = true ∧ s.regsKept t [(F.PWR_STATUS_CP_DROOP, 0)] ∧
       t.flt = { s.flt with
         events := s.flt.events ++ [e], active := s.flt.active.filter (· != if second then 2 else 1) } ∧
       e.code = 0x11 ∧ e.unit = (if second then 2 else 1))

/-! ### Clocks (chapter 04) -/

/-- CLK_REFDIV and relocks: a write outside Streaming stores FREQ and starts a relock at the full ratio, during which
CLK_TIME holds and TIME_GAP sets, but with LOST at 1 it starts none at that moment: the return of REFCLK does; while
Streaming, while RELOCKING and with FREQ from 61 it changes nothing; the lock ends the relock and what held resumes; 256
good periods after a loss start a relock. What relocks do in combination, such as a write between the lock and the
acknowledgement of a loss, is the model's reading (log entry 29). -/
def Obligations.Relocks : Prop :=
  ∀ (value : Word) (s : State), s.flt.events.length < 64 →
    (s.live = true → s.pwr.state ≠ .streaming → s.clk.relocking = false → F.CLK_REFDIV_FREQ.of value ≤ 60 →
      (s.gated = false →
        ∃ t, exec (.clkRefdivWrite value) s = .next t ∧
          t = { s with
            regs := t.regs, fresh := t.fresh
            clk := { s.clk with relocking := true, locked := false, toFull := true, held := true } } ∧
          t.fld F.CLK_REFDIV_FREQ = F.CLK_REFDIV_FREQ.of value ∧ t.flag F.CLK_STATUS_TIME_GAP = true ∧
          s.regsKept t [(F.CLK_REFDIV_FREQ, 0), (F.CLK_STATUS_TIME_GAP, 0)]) ∧
      (s.gated = true →
        ∃ t, exec (.clkRefdivWrite value) s = .next t ∧
          t = { s with regs := t.regs, clk := { s.clk with toFull := true, owed := s.clk.locked } } ∧
          t.fld F.CLK_REFDIV_FREQ = F.CLK_REFDIV_FREQ.of value ∧ s.regsKept t [(F.CLK_REFDIV_FREQ, 0)])) ∧
    (s.live = true →
      60 < F.CLK_REFDIV_FREQ.of value ∨ s.pwr.state = .streaming ∨ s.clk.relocking = true →
      exec (.clkRefdivWrite value) s = .next s) ∧
    (s.pllOn = true → s.clk.relocking = true →
      exec .clkRelocked s = .next { s with
        clk := { s.clk with
          relocking := false, locked := true, refPresent := true, boot := !s.clk.toFull, held := false }
        flt := { s.flt with events := s.flt.events ++
          [⟨0x19, s.flt.mark, noUnit, s.fld F.CLK_REFDIV_FREQ % 2 ^ 16, s.timeBits 32, false⟩] } }) ∧
    (s.pllOn = true → s.clk.relocking = false →
      (s.clk.locked = false →
        exec .refPresent s = .next { s with clk := { s.clk with refPresent := true, relocking := true, owed := false } }) ∧
      (s.clk.locked = true → s.clk.owed = true →
        ∃ t, exec .refPresent s = .next t ∧
          t = { s with
            regs := t.regs, fresh := t.fresh
            clk := { s.clk with refPresent := true, relocking := true, locked := false, owed := false, held := true } } ∧
          t.flag F.CLK_STATUS_TIME_GAP = true ∧ s.regsKept t [(F.CLK_STATUS_TIME_GAP, 0)]))

/-- A REFCLK loss in Standby or Armed, declared for a missing REFCLK, a frequency outside the window, or a relock that
has not locked in time: LOST and its CAUSE, REFCLK_LOST, CLK_TIME holds with TIME_GAP, no frame goes on. A write of
1 to CLK_STATUS.LOST opens the stream gate with the PLL locked, and is ignored while LOCKED is 0 and in the tick of the
declaration. The free values that cut folios leave are the model's (log entry 12). -/
def Obligations.ReferenceClockLost : Prop :=
  (∀ (s : State) (c : Instr) (cause : Nat), s.pwr.state = .standby ∨ s.pwr.state = .armed → s.idleStream = true →
     s.flt.events.length < 64 →
     (c = .refclkMissing ∧ cause = 1 ∧ s.clk.locked = true ∨ c = .refclkFrequencyLoss ∧ cause = 2 ∧ s.clk.locked = true ∨
       c = .relockTimeout ∧ cause = 2 ∧ s.clk.relocking = true) →
     ∃ t, exec c s = .next t ∧
       t = { s with
         regs := t.regs, fresh := t.fresh, clk := t.clk, flt := t.flt, lanes := t.lanes, free := s.free + 13
         aux := { s.aux with flash := [] } } ∧
       t.clk = { s.clk with
         locked := false, refPresent := false, relocking := false, owed := false
         toFull := s.clk.relocking || s.clk.owed || !s.clk.boot, held := true } ∧
       t.flag F.CLK_STATUS_LOST = true ∧ t.fld F.CLK_STATUS_CAUSE = cause ∧ t.flag F.CLK_STATUS_TIME_GAP = true ∧
       s.regsKept t [(F.CLK_STATUS_LOST, 0), (F.CLK_STATUS_CAUSE, 0), (F.CLK_STATUS_TIME_GAP, 0)] ∧
       t.flt = { s.flt with
         events := s.flt.events ++ [⟨0x18, s.flt.mark, noUnit, cause, s.timeBits 32, false⟩] }) ∧
  (∀ s : State, s.live = true → s.gated = true →
     let declared := F.CLK_STATUS_LOST.of (s.freshBits R.CLK_STATUS) = 1
     (s.clk.locked = true → ¬declared → s.exp.tdiCtx = none →
       ∃ t, exec .clkLostAck s = .next t ∧ t = { s with regs := t.regs, exp := { s.exp with gap := t.exp.gap } } ∧
         t.flag F.CLK_STATUS_LOST = false ∧ t.fld F.CLK_STATUS_CAUSE = 0 ∧
         (∀ q < s.part.quires, s.fld F.QR_ENABLE_EN / 2 ^ q % 2 = 1 → t.exp.gap.getLsbD q = true) ∧
         s.regsKept t [(F.CLK_STATUS_LOST, 0), (F.CLK_STATUS_CAUSE, 0)]) ∧
     (s.clk.locked = false ∨ declared →
       ∃ t, exec .clkLostAck s = .next t ∧ t = { s with regs := t.regs } ∧ s.regsKept t []))

/-! ### Slots and short frames (chapter 05) -/

/-- Slots: SCS_N falls and SDO carries a pending response from its byte 0, 0xFE for one in preparation or 0xFF for
none; a slot without an edge changes nothing but what the slot held, and RESP_READY is as before it; a fetch slot that
shifts a pending response out in full releases it; a slot whose first bit is 0 and that is no short frame is a framing
error, and with LEGACY_EN at 0 it too releases a response that it shifts out in full; a response in preparation becomes
ready and pending. RESP_READY carries the end of the preparation, by the model's choice (log entry 15), and what becomes
of the cause in a slot without an edge is its reading (log entry 14). -/
def Obligations.SlotsMove : Prop :=
  ∀ (s : State) (sdi : List Bool) (r : Response) (bulk : Bool),
    (s.portAnswers = true → s.port.inSlot = false →
      ∃ t, exec .slotBegin s = .next t ∧ t = { s with port := t.port } ∧ t.port.inSlot = true ∧ t.port.ready = false ∧
        t.port.readyBefore = s.port.ready ∧ t.port.resp = s.port.resp ∧ t.port.kept = s.port.kept ∧
        t.port.mode3 = s.port.mode3 ∧ t.port.onSclk = s.port.onSclk ∧
        (s.port.resp = .empty → t.port.sdo = [] ∧ t.port.sdoFill = 0xFF) ∧
        (s.port.resp = .prep r bulk → t.port.sdo = [] ∧ t.port.sdoFill = 0xFE) ∧
        (s.port.resp = .pend r → t.port.sdo = r.bytes (s.portByte r))) ∧
    (s.port.inSlot = true →
      let after := { s.port with
        inSlot := false, readyBefore := false, prepAtBegin := false, pendAtBegin := false, sdo := [], sdoFill := 0xFF
        onSclk := s.pwr.state.onSclk }
      let closed := { after with mode3 := s.flag F.CP_MODE_SPI }
      exec (.slotEnd []) s = .next { s with port := { after with ready := s.port.ready || s.port.readyBefore } } ∧
      (sdi.take 8 = List.replicate 8 true → sdi.length ≠ 24 → s.port.resp = .pend r → s.port.pendAtBegin = true →
        8 * s.port.sdo.length ≤ sdi.length →
        exec (.slotEnd sdi) s = .next { s with port := { closed with resp := .empty } }) ∧
      (sdi.head? = some false → sdi.length ≠ 24 ∨ s.flag F.CP_MODE_LEGACY_EN = false →
        let left := match s.port.resp with
          | .pend x => if s.flag F.CP_MODE_LEGACY_EN = false ∧ s.port.pendAtBegin = true ∧
              8 * s.port.sdo.length ≤ sdi.length then RespState.empty else .pend x
          | x => x
        ∃ t, exec (.slotEnd sdi) s = .next t ∧
          t = { s with regs := t.regs, fresh := t.fresh, port := { closed with resp := left } } ∧
          t.fld F.CP_ERR_FRAME_ERRS = min 255 (s.fld F.CP_ERR_FRAME_ERRS + 1) ∧ t.flag F.CP_STATUS_ERR = true ∧
          s.regsKept t [(F.CP_ERR_FRAME_ERRS, 0), (F.CP_STATUS_ERR, 0)])) ∧
    (s.commitDue = false → s.port.burst = none → s.port.resp = .prep r bulk →
      exec .respReady s = .next { s with port := { s.port with resp := .pend r, ready := true, undo := [] } })

/-- Short frames with LEGACY_EN in Standby, Armed and Streaming: a read at an address below 0x60 puts the register's
value after the first byte on SDO, whose bit 23 is a free value (log entry 12) and whose other bits are 0, with its read
side effects; a write there has the effect of a register write, or sets SF_REFUSED where that is refused; outside a
transaction the period of legacy address 0x06 goes live; the response held stays; at 0x60 and above a read gives 0 and a
write does nothing. SHORT_FRAME_READ leaves its slot open, by the model's choice (log entry 14). -/
def Obligations.ShortFramesAct : Prop :=
  ∀ (a : BitVec 7) (v : Word) (lost : Bool) (s : State), s.live = true → s.portAnswers = true → s.port.inSlot = false →
    s.flag F.CP_MODE_LEGACY_EN = true → (∀ r, s.port.resp ≠ .prep r true) →
    let closed := { s.port with
      inSlot := false, readyBefore := false, prepAtBegin := false, pendAtBegin := false, sdo := [], sdoFill := 0xFF
      ready := false, undo := if s.port.resp = .empty then [] else s.port.undo
      mode3 := s.flag F.CP_MODE_SPI, onSclk := true }
    let first (u : State) : Byte := if Config.freeBool u.free then 0x80 else 0
    (a.toNat < 0x60 →
      let u := s.slotBegin.hostRead .port false a.toNat
      let w := s.slotBegin.writeReg .port a.toNat v lost
      exec (.shortFrameRead a) s = .next { u.2 with
        free := u.2.free + 1
        port := { u.2.port with pendAtBegin := false, sdo := first u.2 :: wordBytes u.1.toNat } } ∧
      u.2.port = s.slotBegin.port ∧
      ∃ t, exec (.shortFrameWrite a v lost) s = .next t ∧
        t = { w.2 with regs := t.regs, fresh := t.fresh, port := closed } ∧
        (w.1 = Status.ok → t.regs = w.2.regs ∧ t.fresh = w.2.fresh) ∧
        (w.1 ≠ Status.ok → t.flag F.CP_STATUS_SF_REFUSED = true ∧ w.2.regsKept t [(F.CP_STATUS_SF_REFUSED, 0)])) ∧
    (a = 0x06 → s.bnd.txn = .idle → s.exp.tdiCtx = none →
      ∃ t, exec (.shortFrameWrite a v lost) s = .next t ∧ t = { s with regs := t.regs, port := closed } ∧
        t.fld F.EXP_PERIOD_PERIOD = v.toNat ∧ s.regsKept t [(F.EXP_PERIOD_PERIOD, 0), (F.BND_GEN_GEN, 0)]) ∧
    (0x60 ≤ a.toNat →
      exec (.shortFrameRead a) s = .next { s.slotBegin with
        free := s.free + 1, port := { s.slotBegin.port with pendAtBegin := false, sdo := [first s, 0, 0] } } ∧
      exec (.shortFrameWrite a v lost) s = .next { s with port := closed })

/-! ### Exposure and readout (chapter 08) -/

/-- RUN: a start that its checks allow moves the device to Streaming with the free-run timer about to expire, one that
they refuse changes nothing, and one while RUN is 1 changes nothing else; RUN = 0 ends trigger acceptance; when no
frame and no folio is left, STATE returns to Armed; an expiry of a running timer reloads it from the live EXP_PERIOD
in units of PUNIT, a period of 0 stops it. RUN_START has no response, by the model's choice (log entry 24); when the
timer first expires and starts again is its choice (log entry 33). -/
def Obligations.RunStartsAndStops : Prop :=
  ∀ s : State,
    (s.live = true →
      ((s.pwr.state = .streaming → s.exp.stopping = true → s.busy = true) →
        (s.running = false → s.runCheck = Status.ok →
          ∃ t, exec .runStart s = .next t ∧
            t = { s with
              regs := t.regs, pwr := { s.pwr with state := .streaming }
              flt := { s.flt with pending := if s.pwr.state = .streaming then s.flt.pending else none }
              exp := { s.exp with
                timer := some 1, fired := false, stopping := false, tdiFirst := s.exp.tdiCount, tdiCtx := none
                lastNumber := if s.pwr.state = .streaming then s.exp.lastNumber else none } } ∧
            t.flag F.EXP_CTRL_RUN = true ∧ s.regsKept t [(F.EXP_CTRL_RUN, 0)]) ∧
        (s.runCheck ≠ Status.ok → exec .runStart s = .next s) ∧
        (s.running = true → s.runCheck = Status.ok →
          ∃ t, exec .runStart s = .next t ∧ t = { s with regs := t.regs } ∧ s.regsKept t [])) ∧
      (s.flag F.EXP_CTRL_RUN = true → s.exp.tdiLines = [] →
        ∃ t, exec .runStop s = .next t ∧
          t = { s with
            regs := t.regs
            exp := { s.exp with
              timer := none, fired := false, stopping := true, tdiFirst := s.exp.tdiCount, tdiCtx := none, tdiGap := false } } ∧
          t.flag F.EXP_CTRL_RUN = false ∧ s.regsKept t [(F.EXP_CTRL_RUN, 0)])) ∧
    (s.pwr.state = .streaming → s.exp.stopping = true → s.busy = false →
      ∃ t, exec .streamDrained s = .next t ∧
        t = { s with
          regs := t.regs, fresh := t.fresh, mem := t.mem, flt := t.flt, cnv := { s.cnv with waveValid := t.cnv.waveValid }
          exp := { s.exp with stopping := false }, tmp := { s.tmp with timer := 0 }
          pwr := { s.pwr with state := .armed } } ∧ t.flt.pending = none) ∧
    (s.busy = true → exec .streamDrained s = .next s) ∧
    (s.running = true → s.exp.timer.isSome = true →
      let n := s.fld F.EXP_PERIOD_PERIOD * (if s.flag F.EXP_MODE_PUNIT then 256 else 1)
      exec .freeRunExpiry s = .next { s with
        exp := { s.exp with fired := true, timer := if n = 0 then none else some n } })

/-- A trigger of a frame or line scan that finds the device free starts an exposure: the context, the frame number,
the position and the flags of the tick of its event, EXPOSURE_START, the end after the duration, in LEGACY mode the
latest one. The row is the event as it reaches the quires, three ticks after its own, by the model's choice (log entry
33). -/
def Obligations.TriggersStart : Prop :=
  ∀ s : State, s.serves = true → s.gated = false → s.pwr.hold = false → s.bnd.txn ≠ .pending →
    (s.fld F.EXP_MODE_TRIG = 2 → s.flag F.EXP_MODE_ABS = true → s.pos.ref = true) →
    s.exp.exposing = none → s.exp.between = none → s.exp.reading = none → s.injArg 0x14 = none →
    s.context.scan ≠ .tdi → s.lacksPages s.context = false →
    ∃ t, exec .trigger s = .next t ∧
      t = { s with
        regs := t.regs, fresh := t.fresh, cnv := t.cnv, lines := s.lines ||| (1#64 <<< 32)
        pos := { s.pos with dupPend := s.pos.dupPend - 1 }
        exp := { s.exp with
          trigTick := some s.clk.now, nextNumber := (s.exp.nextNumber + 1) % 2 ^ 24
          lastNumber := some s.exp.nextNumber, latest := some s.exp.nextNumber
          exposing := some {
            frame := {
              number := s.exp.nextNumber, ctx := s.context, pos := s.eventPast.p.toNat % 2 ^ 40, est := s.eventPast.est
              dup := s.pos.dupPend != 0, posRef := s.eventPast.ref, str := false, sw := s.pwr.warn, flash := none
              pages := [] }
            k := 0, start := s.clk.now, until_ := some (s.clk.now + s.context.duration 0) } } } ∧
      t.cnv = { s.cnv with lastModes := t.cnv.lastModes, rom := s.context.rom, stale := t.cnv.stale } ∧
      s.regsKept t ([(F.EXP_CTRL_MODE_CLAMP, 0), (F.CNV_STATUS_PAIR_CLAMP, 0)] ++
        (List.range 12).flatMap fun q => [(F.QR_STATUS_OUT_PIX, q), (F.QR_STATUS_CLAMPED, q)])

/-- A trigger that starts nothing outside TDI is counted, behind a closed stream gate by CLK_TRIG_LOST, during the dip
hold by EXP_TRIG_HELD, with an exposure in progress by EXP_DROPPED with OVERRUN; the next line folios carry GAP; a
second event of the same tick is the same trigger. The row is the event as it reaches the quires, three ticks after
its own, by the model's choice (log entry 33). -/
def Obligations.TriggersLost : Prop :=
  ∀ s : State,
    (s.exp.trigTick = some s.clk.now → exec .trigger s = .next s) ∧
    (s.serves = true → (∀ e u, s.exp.exposing = some e → e.until_ = some u → s.clk.now < u) →
      s.fld F.EXP_MODE_SCAN ≠ 2 → (s.fld F.EXP_MODE_TRIG = 2 → s.flag F.EXP_MODE_ABS = true → s.pos.ref = true) →
      (s.gated = true →
        ∃ t, exec .trigger s = .next t ∧ t = { s with regs := t.regs, exp := s.missed } ∧
          s.counts t F.CLK_TRIG_LOST_COUNT ∧ s.regsKept t [(F.CLK_TRIG_LOST_COUNT, 0)]) ∧
      (s.gated = false → s.pwr.hold = true →
        ∃ t, exec .trigger s = .next t ∧ t = { s with regs := t.regs, exp := s.missed } ∧
          s.counts t F.EXP_TRIG_HELD_COUNT ∧ s.regsKept t [(F.EXP_TRIG_HELD_COUNT, 0)]) ∧
      (s.gated = false → s.pwr.hold = false → s.bnd.txn ≠ .pending → s.exp.exposing.isSome = true →
        s.flt.events.length < 64 →
        ∃ t, exec .trigger s = .next t ∧
          t = { s with regs := t.regs, fresh := t.fresh, exp := s.missed, flt := t.flt } ∧
          s.counts t F.EXP_DROPPED_COUNT ∧ t.flag F.EXP_CTRL_OVERRUN = true ∧
          s.regsKept t [(F.EXP_DROPPED_COUNT, 0), (F.EXP_CTRL_OVERRUN, 0)] ∧
          t.flt = { s.flt with
            events := s.flt.events ++ if s.flag F.EXP_CTRL_OVERRUN then []
              else [⟨0x60, s.flt.mark, noUnit, 1, s.timeBits 32, false⟩] }))

/-- The end of an exposure whose storage nodes are free, by its duration or by the legacy event from 250 tk on, begins
the readout, which frees them after its row pairs; before 250 tk the legacy event sets the end there, no later than the
exposure's maximum; a multi-exposure frame waits for its next sub-exposure, which then starts, or which the dip hold
abandons, counted. The wait of a legacy end for its free tick is the model's choice (log entry 33). -/
def Obligations.ExposuresEnd : Prop :=
  ∀ (s : State),
    (∀ (c : Instr) (e : Exposing), s.exp.exposing = some e → s.exp.reading = none → e.frame.ctx.subs ≤ 1 →
      s.mem.calWords = [] → e.k = 0 →
      c = .exposureEnd ∨
        c = .legacyEndEvent ∧ s.fld F.EXP_MODE_TRIG = 3 ∧ e.frame.str = false ∧
          s.lineExists ((s.fld F.EXP_SCHED_EVENT + 1) % 64) = true ∧ e.start + 250 ≤ s.clk.now →
      exec c s = .next { s with
        lines := s.lines ||| (1#64 <<< 33), cnv := s.cnv.begin_
        exp := { s.exp with
          exposing := none, between := none
          reading := some {
            frame := e.frame, k := 0, pair := 0, free := s.clk.now + s.readoutTime e.frame.ctx, cal := [], calCorr := 0 } } }) ∧
    (∀ e, s.exp.exposing = some e → s.exp.reading = none → e.k = 0 → e.frame.str = false → s.fld F.EXP_MODE_TRIG = 3 →
      s.lineExists ((s.fld F.EXP_SCHED_EVENT + 1) % 64) = true → s.clk.now < e.start + 250 →
      exec .legacyEndEvent s = .next { s with
        exp := { s.exp with
          exposing := some { e with until_ := some (min (e.start + 250) (e.until_.getD (e.start + 250))) } } }) ∧
    (∀ f k, s.exp.between = some (f, k) → s.exp.exposing = none →
      (s.pwr.hold = false →
        exec .subExposureStart s = .next { s with
          lines := s.lines ||| (1#64 <<< 32)
          exp := { s.exp with
            between := none
            exposing := some { frame := f, k := k, start := s.clk.now, until_ := some (s.clk.now + f.ctx.duration k) } } }) ∧
      (s.pwr.hold = true → s.exp.reading = none → f.pages = [] →
        ∃ t, exec .subExposureStart s = .next t ∧
          t = { s with
            regs := t.regs, exp := { s.exp with between := none, gap := s.gapMarked }
            aux := { s.aux with flash := s.aux.flash.filter fun e => e.1 != f.number } } ∧
          s.counts t F.EXP_DROPPED_COUNT ∧ s.regsKept t [(F.EXP_DROPPED_COUNT, 0)]))

/-- The end of a row pair's conversion: the next pair starts in the same tick; a black pair that sends no folio and is
not the frame's last enters the estimates and nothing else changes; after the last pair of a readout outside TDI the
nodes are free and READOUT_END shows. The row asserts that the conversion has ended (log entry 4). -/
def Obligations.PairsConvert : Prop :=
  ∀ (x : Samples) (s : State) (r : Reading) (p : RowPair), s.exp.reading = some r →
    (r.frame.ctx.pairs s.exp.blackPair)[r.pair]? = some p →
    (r.pair + 1 < (r.frame.ctx.pairs s.exp.blackPair).length →
      ∃ t u, exec (.pairConversionEnd x) s = .next t ∧ t.exp.reading = some u ∧ u.pair = r.pair + 1) ∧
    (∀ n < 7, p = .black n → r.frame.ctx.scan = .area → r.frame.ctx.flag F.QR_MODE_BLK_ROW_OUT = false →
      r.pair + 1 < (r.frame.ctx.pairs s.exp.blackPair).length → s.mem.calWords = [] →
      s.lastSent r.frame.ctx ≠ some r.pair →
      exec (.pairConversionEnd x) s = .next { s with
        cnv := s.cnv.measure r.frame.ctx s.part r.cal x
        exp := { s.exp with reading := some { r with pair := r.pair + 1, cal := [], calCorr := 0 } } }) ∧
    (r.pair + 1 = (r.frame.ctx.pairs s.exp.blackPair).length → r.frame.ctx.scan ≠ .tdi →
      ∃ t, exec (.pairConversionEnd x) s = .next t ∧ t.exp.reading = none ∧ t.lineHigh 34 = true)

/-! ### Lanes and the defect table (chapters 09 and 10) -/

/-- On a biased lane of a present quire, a folio sent in full leaves the FIFO: the lane has sent its idles, none where
the folio was waiting at the last marker, /S/, its bytes, /T/ and the marker, as code groups; a run of fifteen idles
ends in a marker, which waits while the lane has a folio; a marker carries the lane's STATE, and the bias of the band
in force takes effect there; nothing else changes. How many idles a lane sends before a folio is a free value (log
entry 12), and the code of the groups is the model's presumption (log entry 44). -/
def Obligations.LanesSend : Prop :=
  ∀ (q : Fin 12) (s : State),
    let x := s.lane q.val
    (s.laneOn q.val = true → ∀ f rest, x.fifo = f :: rest → x.spill = [] →
      let idles := if x.tight then 0 else Config.freeNat s.free % 16
      let g := groups x.rd (idleRun x.rd idles ++ [Symbol.sof] ++ f.bytes.map Symbol.data ++ [Symbol.eof] ++
        markerSet s.markerState q.val)
      ∃ t, exec (.folioHanded q) s = .next t ∧
        t = { s with free := s.free + 1, lanes := { s.lanes with lanes := t.lanes.lanes } } ∧
        t.lane q.val = { x with
          fifo := rest, handed := some (f.bytes, FolioEnd.eof), marker := some s.markerState
          bias := s.fld F.TMP_BAND_LMARGIN s.band, tight := !rest.isEmpty, wire := g.1, rd := g.2 } ∧
        ∀ k, k ≠ q.val → t.lane k = s.lane k) ∧
    (s.biased q.val = true →
      (x.fifo = [] →
        let g := groups x.rd (idleRun x.rd 15 ++ markerSet s.markerState q.val)
        ∃ t, exec (.markerOrderedSet q) s = .next t ∧ t = { s with lanes := { s.lanes with lanes := t.lanes.lanes } } ∧
          t.lane q.val = { x with
            marker := some s.markerState, bias := s.fld F.TMP_BAND_LMARGIN s.band, tight := false, wire := g.1
            rd := g.2 } ∧
          ∀ k, k ≠ q.val → t.lane k = s.lane k) ∧
      (x.fifo ≠ [] → exec (.markerOrderedSet q) s = .next s))

/-- DEF_LOAD outside Streaming starts a compile, with the counts at 0 and no table in force, and reads entry 0 in the
same tick: an unwritten or END word ends the reading, an accepted entry is kept; while Streaming it does nothing; the
compile's end puts the accepted entries in force, oldest first, where it has met its END entry, or meets it next. -/
def Obligations.DefectsCompile : Prop :=
  ∀ s : State,
    (s.live = true →
      (s.pwr.state ≠ .streaming →
        let a : WordAddr := ⟨Store.defect, false, 0⟩
        let w := natBE ((s.mem.raw a).take 4)
        ∀ c : Compile,
          s.mem.isValid a = false ∧ c = { next := 0, ended := true, accepted := [] } ∨
            s.mem.isValid a = true ∧ s.wordClean a ∧
              (bits w 31 28 = 0 ∧ c = { next := 0, ended := true, accepted := [] } ∨
                bits w 31 28 ≠ 0 ∧ ∃ d, judge s.part [] w false = (.accepted, d) ∧
                  c = { next := 1, ended := false, accepted := [d] }) →
          ∃ t, exec .defLoad s = .next t ∧
            t = { s with regs := t.regs, cnv := { s.cnv with compile := some c, defects := [] } } ∧
            t.fld F.CNV_DEF_STATUS_DEFECT_DUP = 0 ∧ t.fld F.CNV_DEF_STATUS_IGNORED = 0 ∧
            s.regsKept t [(F.CNV_DEF_STATUS_DEFECT_DUP, 0), (F.CNV_DEF_STATUS_IGNORED, 0)]) ∧
      (s.pwr.state = .streaming → exec .defLoad s = .next s)) ∧
    (∀ c, s.cnv.compile = some c →
      c.ended = true ∨ s.mem.failing = [] ∧ s.mem.isValid ⟨Store.defect, false, c.next⟩ = false →
      exec .defCompileDone s = .next { s with
        cnv := { s.cnv with compile := none, defects := c.accepted.reverse } })

/-! ### Counters, compares and captures (chapter 11) -/

/-- SPN_GO releases IDLE counters, position-locked ones at the value of P, and halts others, all in one tick, or is
refused whole where a locked one lacks its reference; ARM makes a SPENT counter run, but not one that became SPENT in
the same tick; a load sets the value and clears the remainder, and is refused for a locked counter and lost to a step
of its tick; a tick with pulses of REFCLK steps a running counter by the full divisors that one of them completes, and
one without leaves it. The operand for a step that comes with the load is the model's choice (log entry 20), and so is
that only REFCLK's pulses have a row (log entry 27). -/
def Obligations.CountersRun : Prop :=
  ∀ (s : State) (n : Nat),
    let only (t : State) : Prop := t = { s with spn := { s.spn with counters := t.spn.counters } }
    (∀ mask : Byte, s.live = true →
      (s.goNeedsRef mask.toNat 0 = false →
        ∃ t, exec (.spnGoRelease mask) s = .next t ∧ only t ∧
          ∀ k, t.counter k =
            if mask.getLsbD k = true ∧ (s.counter k).run = .idle then
              (if s.locked k then { s.counter k with run := .running }.lockTo (s.source k).weight s.pos.p
               else { s.counter k with run := .running })
            else s.counter k) ∧
      (s.goNeedsRef mask.toNat 0 = true → exec (.spnGoRelease mask) s = .next s) ∧
      (∃ t, exec (.spnGoHalt mask) s = .next t ∧ only t ∧
        ∀ k, t.counter k = if mask.getLsbD k = true then { s.counter k with run := .idle } else s.counter k)) ∧
    (s.live = true → n = s.fld F.SPN_SEL_CNT →
      ((s.counter n).run = .spent → s.spn.spentNow.getLsbD n = false →
        ∃ t, exec .counterArm s = .next t ∧ only t ∧
          ∀ k, t.counter k = if k = n then { s.counter n with run := .running } else s.counter k) ∧
      ((s.counter n).run ≠ .spent ∨ s.spn.spentNow.getLsbD n = true → exec .counterArm s = .next s) ∧
      (∀ v : Word, s.locked n = false → s.spn.stepped.getLsbD n = false →
        ∃ t, exec (.counterLoad v false) s = .next t ∧ only t ∧
          ∀ k, t.counter k = if k = n then
              { s.counter n with value := (s.counter n).holdHi ++ (s.counter n).holdMid ++ v, rem := 0 }
            else s.counter k) ∧
      (∀ v lost, s.locked n = true ∨ lost = true ∨ s.spn.stepped.getLsbD n = true →
        exec (.counterLoad v lost) s = .next s)) ∧
    (∀ (c : Fin 8) (pulses : Nat), n = c.val → pulses ≠ 0 →
      ((s.counter n).run = .running → s.source n = .refclk → s.clk.held = false →
        let x := s.counter n
        let y := { x with
          value := x.value + BitVec.ofNat 48 ((x.rem + 65536) / x.div), rem := (x.rem + 65536) % x.div }
        ∃ t, exec (.counterStep c pulses) s = .next t ∧
          t = { s with spn := { s.spn with
            counters := t.spn.counters
            stepped := if y.value = x.value then s.spn.stepped else s.spn.stepped ||| (1#8 <<< n) } } ∧
          ∀ k, t.counter k = if k = n then y else s.counter k) ∧
      ((s.counter n).run ≠ .running ∨ s.source n ≠ .refclk ∨ s.clk.held = true → exec (.counterStep c pulses) s = .next s)) ∧
    ∀ c, exec (.counterStep c 0) s = .next s

/-- A load of a compare value takes effect on a WINDOW channel that is pending again where the value changed and on a
DIRECT channel that compares afresh, and sets ADD_LOST where an auto-add of its tick meets it. A tick in which nothing
else is due compares every enabled channel once, before counters that are not position-locked step: DIRECT on an
equality that is new, WINDOW while pending and not ahead; a match sets MATCH, raises its line, auto-adds or ends
pending, and with STOP spends a running one-shot. Capture pairs store RISE, FALL and WIDTH, advance SEQ and raise
their lines; an end comes before a start of its tick; under HOLD a pulse before the DONE is cleared sets OVR only; a
write of SPN_K_CFG clears OPEN and keeps the captured values. The tick is what a step on an empty queue is (log entry
2). -/
def Obligations.ComparesAndCaptures : Prop :=
  ∀ (s : State) (v : Word) (k : Fin 4),
    (s.live = true → ∀ lost,
      let m := s.fld F.SPN_SEL_CMP
      let w := (s.compare m).holdHi ++ (s.compare m).holdMid ++ v
      let met := s.spn.added.getLsbD m || (lost && s.flag F.SPN_M_CFG_AUTO m)
      ∃ t, exec (.compareLoad v lost) s = .next t ∧
        t = { s with regs := t.regs, fresh := t.fresh, spn := { s.spn with compares := t.spn.compares } } ∧
        (met = true → t.flag F.SPN_M_STAT_ADD_LOST m = true) ∧
        s.regsKept t (if met then [(F.SPN_M_STAT_ADD_LOST, m)] else []) ∧
        ∀ j, t.compare j = if j = m then
            { s.compare m with
              value := w, pending := (s.compare m).pending || w != (s.compare m).value, equal := false }
          else s.compare j) ∧
    (s.quiet → (∀ j < 4, (s.capture j).en = false) → (∀ n < 8, (s.source n).weight = 0) →
      ∃ t, step s = .next t ∧ ∀ m < 16, s.flag F.SPN_M_CFG_EN m = true →
        let n := s.fld F.SPN_M_CFG_CNT m
        let c := s.compare m
        let x := (s.counter n).value
        (s.flag F.SPN_M_CFG_MODE m = false ∧ x = c.value ∧ c.equal = false ∨
            s.flag F.SPN_M_CFG_MODE m = true ∧ c.pending = true ∧ (x - c.value).toNat < 2 ^ 47 →
          t.flag F.SPN_M_STAT_MATCH m = true ∧ t.lineHigh (s.fld F.SPN_M_CFG_LINE m) = true ∧
          t.compare m = (if s.flag F.SPN_M_CFG_AUTO m then
            { c with value := c.value + BitVec.ofNat 48 (s.fld F.SPN_M_INTERVAL_INTERVAL m), pending := true, equal := true }
            else { c with pending := false, equal := true }) ∧
          (s.flag F.SPN_M_CFG_STOP m = true → s.flag F.SPN_C_CFG_ONESHOT n = true → (s.counter n).run = .running →
            (t.counter n).run = .spent ∧ t.lineHigh (16 + n) = true))) ∧
    (let c := s.capture k.val
     let x := (s.counter c.cnt).value
     let undo := some (c.rise, c.opened, c.ovr)
     (s.watches c true = true →
       ((c.hold && c.done) = false →
         ∃ t, exec (.capturePulseStart k) s = .next t ∧
           t = { s with spn := { s.spn with captures := t.spn.captures }, lines := s.lines ||| (1#64 <<< (24 + k.val)) } ∧
           ∀ j, t.capture j = if j = k.val then { c with rise := x, opened := true, undo := undo } else s.capture j) ∧
       ((c.hold && c.done) = true →
         ∃ t, exec (.capturePulseStart k) s = .next t ∧
           t = { s with fresh := t.fresh, spn := { s.spn with captures := t.spn.captures } } ∧
           ∀ j, t.capture j = if j = k.val then { c with ovr := true, undo := undo } else s.capture j)) ∧
     (s.watches c false = true →
       (c.undo = none → c.opened = true → (c.hold && c.done) = false →
         ∃ t, exec (.capturePulseEnd k) s = .next t ∧
           t = { s with
             fresh := t.fresh, spn := { s.spn with captures := t.spn.captures }
             lines := s.lines ||| (1#64 <<< (28 + k.val)) } ∧
           ∀ j, t.capture j = if j = k.val then
               { c with
                 fall := x, width := min (x - c.rise).toNat 0xFFFFFFFF, opened := false, done := true
                 ovr := c.ovr || c.done, seq := (c.seq + 1) % 256 }
             else s.capture j) ∧
       (c.undo = none → c.opened = false ∨ (c.hold && c.done) = true →
         ∃ t, exec (.capturePulseEnd k) s = .next t ∧ t = { s with spn := { s.spn with captures := t.spn.captures } } ∧
           ∀ j, t.capture j = s.capture j) ∧
       (∀ r o, c.undo = some (r, true, o) → c.hold = false →
         ∃ t, exec (.capturePulseEnd k) s = .next t ∧
           t = { s with
             fresh := t.fresh, spn := { s.spn with captures := t.spn.captures }
             lines := s.lines ||| (1#64 <<< (28 + k.val)) } ∧
           ∀ j, t.capture j = if j = k.val then
               { c with
                 rise := x, opened := true, undo := none, fall := x, width := min (x - r).toNat 0xFFFFFFFF, done := true
                 ovr := o || c.done, seq := (c.seq + 1) % 256 }
             else s.capture j))) ∧
    (s.live = true →
      ∃ t, exec (.captureCfgWrite v) s = .next t ∧ t = { s with spn := { s.spn with captures := t.spn.captures } } ∧
        ∀ j, t.capture j = if j = s.fld F.SPN_SEL_CAP then
            { s.capture j with cfg := v &&& 0xFE3F, opened := false, undo := none }
          else s.capture j)

/-! ### Position (chapter 12) -/

/-- Encoder levels that the filter accepts: both lands changing at once is a quadrature error; neither changing does
nothing; a decoded edge (X4) moves C by one, P to C and the anchor with it, in TRACK with the velocity filtered, at
the first edge with none known; an accepted index pulse sets C and P to Z_VALUE, one count less in the backward
direction, REF, and line 35, and reports a distance other than Z_SPAN; a preset moves P and shifts C, the anchor and
the previous index alike. A level that has not held long enough leaves the accepted one. Readings of the combinations
are the model's (log entry 36). -/
def Obligations.EncoderCounts : Prop :=
  ∀ (s : State) (la lb lz : PinLevel), s.bnd.txn ≠ .pending →
    let a := s.accepted s.pos.a la
    let b := s.accepted s.pos.b lb
    (s.accepts la.held = false → s.accepts lb.held = false → exec (.encEdge la lb) s = .next s) ∧
    (s.accepts lz.held = false → exec (.encZ lz) s = .next s) ∧
    (s.analog = true →
      (a ≠ s.pos.a → b ≠ s.pos.b →
        ∃ t, exec (.encEdge la lb) s = .next t ∧
          t = { s with regs := t.regs, fresh := t.fresh, pos := { s.pos with a := a, b := b } } ∧
          t.flag F.POS_STATUS_QERR = true ∧ s.regsKept t [(F.POS_STATUS_QERR, 0)]) ∧
      (a = s.pos.a → b = s.pos.b → exec (.encEdge la lb) s = .next s) ∧
      ((a != s.pos.a) ≠ (b != s.pos.b) → s.pos.was = none → s.fld F.POS_CFG_DECODE = 2 → s.flag F.POS_CFG_ZG_EN = false →
        s.injArg 0x08 = none →
        let fwd := (if a != s.pos.a then a != b else b == a) != s.flag F.POS_CFG_DIR
        let c := s.pos.c + (if fwd then 1 else -1)
        let x := { s.pos with
          a := a, b := b, c := c, back := !fwd, lastEdge := some s.clk.now, anchor := c, anchorTick := s.clk.now, frac := 0
          p := wholeP c }
        (∀ t0, s.pos.state = .track → s.pos.lastEdge = some t0 → s.frozen = false → 0 ≤ (dirSign fwd : Rat) * s.pos.v →
          let v := s.pos.v + ((dirSign fwd : Rat) / ((s.clk.now - t0 : Nat) : Rat) - s.pos.v) / 2 ^ s.fld F.POS_CFG_BW
          ∃ (u t : State), exec (.encEdge la lb) s = .next t ∧ u.followsP t ∧
            u = { s with pos := { x with run := u.pos.run, v := v, vEdge := v } }) ∧
        (s.pos.state = .acquire → s.pos.lastEdge = none →
          ∃ (u t : State), exec (.encEdge la lb) s = .next t ∧ u.followsP t ∧
            u = { s with pos := { x with run := [s.clk.now], v := 0, vEdge := 0 } })) ∧
      (s.accepts lz.held = true → lz.high = true → s.pos.z = false → s.flag F.POS_CFG_ZG_EN = false → s.indexAccepted = true → s.injArg 0x09 = none →
        s.pos.state ≠ .relock →
        let c := intP s.pos.zValue + (if s.pos.back then -1 else 0)
        let d := match s.pos.zPrev with
          | some c0 => clampInt (-32767) 32767 (s.pos.c - c0).toInt
          | none => 0
        let miss := s.pos.zPrev.isSome = true ∧ s.fld F.POS_Z_SPAN_SPAN ≠ 0 ∧ d.natAbs ≠ s.fld F.POS_Z_SPAN_SPAN
        let u := { s with
          lines := s.lines ||| (1#64 <<< 35)
          pos := { s.pos with
            z := true, zOpen := false, c := c, p := wholeP c, anchor := c, anchorTick := s.clk.now, frac := 0
            zPrev := some c, zDelta := d, ref := true, dupPend := 0, holdFrom := s.pos.holdFrom + (wholeP c - s.pos.p) } }
        (¬miss → ∃ t, exec (.encZ lz) s = .next t ∧ u.followsP t) ∧
        (miss → s.flt.events.length < 64 →
          ∃ (w t : State), exec (.encZ lz) s = .next t ∧ u.followsP w ∧
            t = { w with
              regs := t.regs, fresh := t.fresh
              flt := { w.flt with
                events := w.flt.events ++ [⟨0x2B, s.flt.mark, noUnit, unsigned 16 d, s.timeBits 32, false⟩] } } ∧
            t.flag F.POS_STATUS_ZMISS = true ∧ w.regsKept t [(F.POS_STATUS_ZMISS, 0)])) ∧
      (s.accepts lz.held = true → lz.high = false →
        exec (.encZ lz) s = .next { s with pos := { s.pos with z := false, zOpen := false } })) ∧
    (s.live = true → ∀ v : Word,
      let p := s.pos.holdHi ++ s.pos.holdMid ++ v
      let d := (p - s.pos.p).toInt
      let up (c : BitVec 40) : BitVec 40 := c + BitVec.ofInt 40 (d / 256)
      (∃ (u t : State), exec (.posPreset v false) s = .next t ∧ u.followsP t ∧
        u = { s with pos := { s.pos with
          c := up s.pos.c, anchor := up s.pos.anchor, zPrev := s.pos.zPrev.map up
          frac := s.pos.frac + ((d % 256 : Int) : Rat) / 256, holdFrom := s.pos.holdFrom + (p - s.pos.p)
          ref := true, dupPend := 0, p := p } }) ∧
      exec (.posPreset v true) s = .next s)

/-- A loss in TRACK, once FACTOR × T has passed without an edge, puts P on its course and starts holdover, with
HOLD_LATCH and ENC_HOLD; its end, after POS_HOLD_LINES events or 65,535 ec, freezes P in LOST, drops REF under
LOSS_UNREF, with LOST_LATCH and ENC_LOST; a slew that has closed to below 1/16 ec ends in TRACK with P = C, RELOCKED
and ENC_RELOCKED. Before these points the rows change nothing. Readings of the combinations are the model's (log entry
36). -/
def Obligations.EncoderLosses : Prop :=
  ∀ s : State, s.bnd.txn ≠ .pending → s.flt.events.length < 64 →
    (s.lossDue = false → exec .encHold s = .next s) ∧
    (s.lossDue = true → s.analog = true → s.pos.state = .track → s.still = false → s.fld F.POS_HOLD_LINES_LINES ≠ 0 →
      (∀ m < 16, s.inGrid m = false) →
      let u := { s with pos := { s.pos with state := .holdover, run := [], injLoss := false } }
      ∃ (w t : State), exec .encHold s = .next t ∧
        { u with pos := { u.pos with p := u.nextP, holdLines := 0, holdFrom := u.nextP } }.followsP w ∧
        t = { w with
          regs := t.regs, fresh := t.fresh
          flt := { s.flt with events := s.flt.events ++ [⟨0x28, s.flt.mark, noUnit, 0, s.timeBits 32, false⟩] } } ∧
        t.flag F.POS_STATUS_HOLD_LATCH = true ∧ s.regsKept t [(F.POS_STATUS_HOLD_LATCH, 0)]) ∧
    (s.holdOver = false → exec .encLost s = .next s) ∧
    (s.holdOver = true → s.pos.state = .holdover → s.pos.injLoss = false →
      ∃ t, exec .encLost s = .next t ∧
        t = { s with
          regs := t.regs, fresh := t.fresh
          pos := { s.pos with
            state := .lost, frac := s.course, anchorTick := s.clk.now, ref := s.pos.ref && !s.flag F.POS_CFG_LOSS_UNREF }
          flt := { s.flt with events := s.flt.events ++ [⟨0x29, s.flt.mark, noUnit, 0, s.timeBits 32, false⟩] } } ∧
        t.flag F.POS_STATUS_LOST_LATCH = true ∧ s.regsKept t [(F.POS_STATUS_LOST_LATCH, 0)]) ∧
    (s.pos.state = .relock → 16 ≤ s.pos.error.natAbs → exec .encRelocked s = .next s) ∧
    (s.pos.state = .relock → s.pos.error.natAbs < 16 → s.pos.injLoss = false →
      ∃ (w t : State), exec .encRelocked s = .next t ∧
        { s with pos := { s.pos with
          state := .track, anchor := s.pos.c, anchorTick := s.clk.now, frac := 0, p := wholeP s.pos.c } }.followsP w ∧
        t = { w with
          regs := t.regs, fresh := t.fresh
          flt := { w.flt with events := w.flt.events ++ [⟨0x2A, s.flt.mark, noUnit, 0, s.timeBits 32, false⟩] } } ∧
        t.flag F.POS_STATUS_RELOCKED = true ∧ w.regsKept t [(F.POS_STATUS_RELOCKED, 0)])

/-! ### Aux converters and temperature (chapters 13 and 14) -/

/-- Rounds and injected slots: a round asked for by the timer or by ROUND_NOW starts with the descriptors of the
active bank, and during a round sets ROUND_LATE and is remembered; the next slot takes its converter when nothing
injected needs it; an event starts the delay of each enabled I-slot that names its line, once in its tick; a delay's
end starts the slot on free converters, drops it behind injected work unless COLLIDE waits, takes a converter from
regular work only with COLLIDE, and drops a slot that has been disabled. The rows assert that a delay or a slot has
come (log entry 4); the row of an event is the event in its own tick (log entry 2), and the dropping of a disabled
slot is the model's choice (log entry 37). -/
def Obligations.AuxRuns : Prop :=
  ∀ s : State, s.analog = true →
    (s.flag F.AUX_CTRL_REG_EN = true →
      let n := s.fld F.AUX_CTRL_REG_LEN_M1 + 1
      let slots := (List.range n).map (s.peekSlot s.adcBank false)
      (s.aux.round.isSome = true → ∀ c, c = .auxRoundTimer ∨ c = .roundNow ∧ s.live = true →
        ∃ t, exec c s = .next t ∧ t = { s with regs := t.regs, fresh := t.fresh, aux := { s.aux with late := true } } ∧
          t.flag F.AUX_STATUS_ROUND_LATE = true ∧ s.regsKept t [(F.AUX_STATUS_ROUND_LATE, 0)]) ∧
      (s.aux.round = none → (∀ k < 2 * n, s.wordClean ⟨Store.adcseq, s.adcBank, k⟩) → slots.any s.slotOn = true →
        ∀ c, c = .auxRoundTimer ∨ c = .roundNow ∧ s.live = true →
        ∃ t, exec c s = .next t ∧
          t = { s with regs := t.regs, aux := { s.aux with round := some { slots := slots, next := 0 } } } ∧
          s.regsKept t []) ∧
      (∀ r i x, s.aux.round = some r → s.aux.regular = none → s.nextSlot r = some i → r.slots[i]? = some x →
        s.injectedBusy x = false → (∀ j < 4, (s.slotData (16 + j)).request = .idle) →
        exec .auxSlotStart s = .next { s with
          aux := { s.aux with round := some { r with next := i }, regular := some (s.newRun x false i none) } })) ∧
    (∀ l : BitVec 6, s.lineExists l.toNat = true →
      (s.aux.taken.getLsbD l.toNat = true → exec (.auxInjTrigger l) s = .next s) ∧
      (s.aux.taken.getLsbD l.toNat = false → (s.gated && l.toNat == s.fld F.EXP_SCHED_EVENT) = false →
        (∀ k < 40, s.wordClean ⟨Store.adcseq, s.adcBank, k⟩) → (∀ j < 4, (s.slotData (16 + j)).request = .idle) →
        s.aux.injected = [] →
        ∃ t, exec (.auxInjTrigger l) s = .next t ∧
          t = { s with aux := { s.aux with slots := t.aux.slots, taken := s.aux.taken ||| (1#64 <<< l.toNat) } } ∧
          (∀ k < 16, t.slotData k = s.slotData k) ∧
          ∀ i < 4,
            let x := s.peekSlot s.adcBank true i
            let d := s.slotData (16 + i)
            t.slotData (16 + i) =
              if x.trig = l.toNat ∧ s.injOn i x = true then
                { d with triggers := (d.triggers + 1) % 8, request := .counting x s.exp.lastNumber }
              else d)) ∧
    (∀ (i : Fin 4) (x : Slot) (f : Option Nat), (s.slotData (16 + i.val)).request = .counting x f →
      s.injArg 0x10 = none →
      let asks (t : State) (r : Request) : Prop := ∀ k, t.slotData k =
        if k = 16 + i.val then { s.slotData (16 + i.val) with request := r } else s.slotData k
      (s.injOn i.val x = true → s.injectedBusy x = false →
        (s.regularBusy x = true → x.collide = true ∧ s.convLp 0 = false ∧ s.convLp 1 = false) →
        ∃ t, exec (.auxInjRequest i) s = .next t ∧ asks t .idle ∧
          t = { s with aux := { s.aux with
            slots := t.aux.slots, regular := if s.regularBusy x then none else s.aux.regular
            injected := s.aux.injected ++ [s.newRun x true i.val f] } }) ∧
      (s.injOn i.val x = true → s.injectedBusy x = true → x.collide = true →
        ∃ t, exec (.auxInjRequest i) s = .next t ∧ asks t (.waiting x f) ∧
          t = { s with aux := { s.aux with slots := t.aux.slots } }) ∧
      (s.injOn i.val x = false ∨ (s.injectedBusy x || s.regularBusy x) = true ∧ x.collide = false →
        s.flt.events.length < 64 →
        ∃ t, exec (.auxInjRequest i) s = .next t ∧ asks t .idle ∧
          t = { s with
            regs := t.regs, aux := { s.aux with slots := t.aux.slots }
            flt := { s.flt with events := s.flt.events ++ [⟨0x30, s.flt.mark, i.val, 0, s.timeBits 32, false⟩] } } ∧
          s.counts t F.AUX_INJ_DROPPED_COUNT ∧ s.regsKept t [(F.AUX_INJ_DROPPED_COUNT, 0)]))

/-- Conversions: a sample enters the block of the regular slot on its converter; the last one ends the run, whose
VALUE is the sum shifted and saturated, with its queue entry, and hands the round on; a reference that has settled
lets the runs that waited for it go on; a stop event lets an INTEGRATE run end with the conversion in progress; a pop
gives the oldest entry's lower half to AUX_Q_LO and removes it. The voltage comes from outside, by the model's choice
(log entry 37). -/
def Obligations.AuxConverts : Prop :=
  ∀ s : State,
    (∀ (k : Fin 2) (nv : Int) (r : Run) (rd : Round), s.aux.regular = some r → s.aux.injected = [] → s.aux.round = some rd →
      r.inj = false → r.slot.conv = k.val → r.phase = .block → r.slot.flash = false → r.slot.ar = false →
      r.slot.chan ≠ 8 → r.first = none → r.stop = none → r.select = r.range →
      let v := s.convCode r.slot.chan r.range nv
      let r' := { r with
        count := r.count + 1, sum := r.sum + v, sat := r.sat || v == 0 || v == 16383
        terms := r.terms + ((v : Int) * 2 ^ (3 - r.range) - s.fld F.AUX_FLASH_DARK_DARK), lastRange := r.range }
      (r.count + 1 < r.slot.len →
        exec (.auxConversionEnd k nv) s = .next { s with aux := { s.aux with regular := some r' } }) ∧
      (r.slot.len ≤ r.count + 1 → 0 ≤ r.sum → s.convLp k.val = false → s.aux.queue.length < 64 → s.injArg 0x0F = none →
        s.flag F.TMP_CFG_HOST = true ∨ r.slot.chan ≠ s.fld F.TMP_CFG_CHAN → s.flag F.AUX_CTRL_REG_EN = true →
        (∀ j < 4, (s.slotData (16 + j)).request = .idle) → (s.nextSlot { rd with next := r.index + 1 }).isSome = true →
        r.index < 16 →
        let sum := r'.sum.toNat / 2 ^ r.slot.shift
        let e := entryWord r' s.aux.roundNo (min sum 0xFFFF) (r'.sat || decide (0xFFFF < sum))
        ∃ t, exec (.auxConversionEnd k nv) s = .next t ∧
          t = { s with aux := { s.aux with
            slots := t.aux.slots, queue := s.aux.queue ++ [e], regular := none
            round := some { rd with next := r.index + 1 }
            vdd := if r.slot.chan = 9 then some (r'.sum, r'.count) else s.aux.vdd } } ∧
          ∀ j, t.slotData j = if j = r.index then
              { s.slotData r.index with
                last := min sum 0xFFFF, results := ((s.slotData r.index).results + 1) % 256 }
            else s.slotData j)) ∧
    (∀ k : Fin 2, s.analog = true → s.convOn k.val = true →
      let settled := s.aux.settled ||| (1#2 <<< k.val)
      let go (r : Run) : Run :=
        if r.phase = .settling ∧ (r.slot.uses 0 = true → settled.getLsbD 0 = true) ∧
            (r.slot.uses 1 = true → settled.getLsbD 1 = true) then
          { r with phase := r.slot.firstPhase }
        else r
      exec (.auxRefSettled k) s = .next { s with
        aux := { s.aux with settled := settled, regular := s.aux.regular.map go, injected := s.aux.injected.map go } }) ∧
    (∀ (going : BitVec 2) (r : Run), s.aux.injected = [r] → r.inj = true → s.integrates r = true → r.stop = none →
      r.phase = .block →
      let m := going &&& ((if r.slot.uses 0 then 1#2 else 0#2) ||| (if r.slot.uses 1 then 2#2 else 0#2))
      m ≠ 0 → exec (.auxFlashStop going) s = .next { s with aux := { s.aux with injected := [{ r with stop := some m }] } }) ∧
    (s.readOpen = true → s.commitDue = false → s.pwr.rails.vcore = true → s.pwr.state ≠ .dormant →
      (∀ e q, s.aux.queue = e :: q →
        exec .auxQPop s = .next { s with aux := { s.aux with queue := q, hold := e.setWidth 16 } }) ∧
      (s.aux.queue = [] → exec .auxQPop s = .next { s with aux := { s.aux with hold := 0xFFFF } }))

/-- A host temperature within range is used at once: the band by its thresholds, an event and line 58 where it
changes, the limit state, the stale timer restarted; outside −60 °C to 150 °C it is a sensor fault and changes nothing
else; with another source, or against an update of the tick, the write does nothing; the stale timer's end sets STALE.
The operand stands for an update of the same tick, by the model's choice (log entry 20). -/
def Obligations.TemperaturesUsed : Prop :=
  ∀ (v : Word) (s : State), s.injArg 0x11 = none → s.flt.events.length < 63 →
    (s.live = true →
      (∀ lost, s.flag F.TMP_CFG_HOST = false ∨ lost = true → exec (.tmpTempWrite v lost) s = .next s) ∧
      (s.flag F.TMP_CFG_HOST = true →
        let T := v.toInt
        let h : Int := s.fld F.TMP_CFG_HYST
        let b := s.nextBand T
        (-960 ≤ T → T ≤ 2400 → s.thrClamped = false → s.exp.tdiCtx = none → T < 1680 → -640 ≤ T →
          ∃ t, exec (.tmpTempWrite v false) s = .next t ∧
            t = { s with
              regs := t.regs, fresh := t.fresh
              tmp := {
                temp := some T, valid := true, band := some b, stale := false, timer := 0
                limit := s.tmp.limit && !(decide (16 * (-40 + h) ≤ T) && decide (T < 16 * (105 - h))) }
              lines := if b = s.band then s.lines else s.lines ||| (1#64 <<< 58)
              flt := { s.flt with
                events := s.flt.events ++ if b = s.band then []
                  else [⟨0x38, s.flt.mark, noUnit, (256 * s.band + b) % 2 ^ 16, s.timeBits 32, false⟩] } } ∧
            (b ≠ s.band → t.flag F.TMP_STATUS_CHANGE = true) ∧
            s.regsKept t (if b = s.band then [] else [(F.TMP_STATUS_CHANGE, 0)])) ∧
        (1680 ≤ T → T ≤ 2400 → s.thrClamped = false → b = s.band → s.flag F.TMP_CFG_LIM_STOP = false →
          ∃ t, exec (.tmpTempWrite v false) s = .next t ∧
            t = { s with
              regs := t.regs, fresh := t.fresh
              tmp := { temp := some T, valid := true, band := some b, stale := false, timer := 0, limit := true }
              flt := { s.flt with
                events := s.flt.events ++ [⟨0x39, s.flt.mark, noUnit, v.toNat, s.timeBits 32, false⟩] } } ∧
            t.flag F.TMP_STATUS_OVER = true ∧ s.regsKept t [(F.TMP_STATUS_OVER, 0)]) ∧
        (T < -960 ∨ 2400 < T →
          ∃ t, exec (.tmpTempWrite v false) s = .next t ∧
            t = { s with
              regs := t.regs, fresh := t.fresh
              flt := { s.flt with
                events := s.flt.events ++ [⟨0x3B, s.flt.mark, noUnit, v.toNat, s.timeBits 32, false⟩] } } ∧
            t.flag F.TMP_STATUS_SENSOR = true ∧ s.regsKept t [(F.TMP_STATUS_SENSOR, 0)]))) ∧
    (s.tmp.timer < s.stalePeriod → exec .tempStale s = .next s) ∧
    (s.analog = true → s.fld F.TMP_CFG_STALE ≠ 0 → s.tmp.stale = false → s.stalePeriod ≤ s.tmp.timer →
      ∃ t, exec .tempStale s = .next t ∧
        t = { s with
          regs := t.regs, fresh := t.fresh, tmp := { s.tmp with stale := true }
          flt := { s.flt with events := s.flt.events ++ [⟨0x3C, s.flt.mark, noUnit, 0, s.timeBits 32, false⟩] } } ∧
        t.flag F.TMP_STATUS_STALE_LATCH = true ∧ s.regsKept t [(F.TMP_STATUS_STALE_LATCH, 0)])

/-! ### Agate engines (chapter 15) -/

/-- The host's commands to engines: START and STEP of halted engines outside Standby, HALT of running ones, which end
at an unlocked row; FORCE_HALT at once, breaking a lock with LOCK_BROKEN; AGT_SEL clears the parts of injected rows;
the fourth part completes the row; FIFO pushes and pops, with FIFO_OVER and FIFO_UNDER at its ends. What the host
and an engine do to one register in the same tick is not part of this (log entry 20). -/
def Obligations.EnginesObey : Prop :=
  ∀ s : State, s.live = true →
    let e := s.fld F.AGT_SEL_ENGINE
    let x := s.engine e
    (∀ m : BitVec 4, m.toNat < 2 ^ s.part.engines →
      (s.analog = true → ∀ c run, c = .agtStart m ∧ run = .running ∨ c = .agtStep m ∧ run = .stepping →
        ∃ t, exec c s = .next t ∧ t = { s with agt := { s.agt with engines := t.agt.engines } } ∧
          ∀ k, t.engine k =
            if m.getLsbD k = true ∧ (s.engine k).run = .halted then
              { s.engine k with run := run, waited := 0, since := 0, div := s.fld F.AGT_DIV_DIV_M1 k }
            else s.engine k) ∧
      (∃ t, exec (.agtHalt m) s = .next t ∧ t = { s with agt := { s.agt with engines := t.agt.engines } } ∧
        ∀ k, t.engine k =
          if m.getLsbD k = true ∧ (s.engine k).run = .running then
            { s.engine k with run := .halting, since := 0, asking := true }
          else s.engine k) ∧
      (∃ t, exec (.agtForceHalt m) s = .next t ∧
        t = { s with regs := t.regs, fresh := t.fresh, flt := t.flt, agt := { s.agt with engines := t.agt.engines } } ∧
        s.regsKept t ((F.FLT_EV_LOST_COUNT, 0) :: (List.range 4).map fun k => (Field.word R.AGT_STATUS, k)) ∧
        ∀ k,
          t.engine k = (if m.getLsbD k = true ∧ (s.engine k).run ≠ .halted then
            { s.engine k with
              run := .halted, why := .force, waiting := false, waited := 0, since := 0
              drives := if s.flag F.AGT_CFG_HALT_Z k then 0 else (s.engine k).drives
              values := if s.flag F.AGT_CFG_HALT_Z k then 0 else (s.engine k).values }
            else s.engine k) ∧
          (m.getLsbD k = true → (s.engine k).run ≠ .halted → rowLock (s.peekRow k (s.engine k).pc.toNat) = true →
            (t.reg R.AGT_STATUS k).getLsbD 12 = true))) ∧
    (s.analog = false → ∀ m, exec (.agtStart m) s = .next s ∧ exec (.agtStep m) s = .next s) ∧
    (∀ v : Word,
      (∃ t, exec (.agtSelWrite v) s = .next t ∧
        t = { s with regs := t.regs, agt := { s.agt with engines := t.agt.engines } } ∧
        (∀ b < 16, (t.reg R.AGT_SEL).getLsbD b = s.storedBit R.AGT_SEL v 0xFFFF b) ∧
        s.regsKept t [(Field.word R.AGT_SEL, 0)] ∧ ∀ k, t.engine k = { s.engine k with parts := [] }) ∧
      (e < s.part.engines →
        (x.parts.length < 3 →
          ∃ t, exec (.agtInjectPart v) s = .next t ∧ s.engineBecomes t e { x with parts := x.parts ++ [v] }) ∧
        (∀ a b c, x.parts = [a, b, c] →
          ∃ t, exec (.agtInjectPart v) s = .next t ∧
            s.engineBecomes t e { x with parts := [], injected := some (a ++ b ++ c ++ v) }) ∧
        (x.fifo.length < 16 →
          ∃ t, exec (.agtFifoPush v) s = .next t ∧ s.engineBecomes t e { x with fifo := x.fifo ++ [v] }) ∧
        (16 ≤ x.fifo.length →
          ∃ t, exec (.agtFifoPush v) s = .next t ∧ t = { s with regs := t.regs, fresh := t.fresh, flt := t.flt } ∧
            (t.reg R.AGT_STATUS e).getLsbD 14 = true ∧ s.regsKept t [(F.FLT_EV_LOST_COUNT, 0), (Field.word R.AGT_STATUS, e)]))) ∧
    (e < s.part.engines → s.pwr.rails.vcore = true →
      (∀ w ws, x.fifo = w :: ws → ∃ t, exec .agtFifoPop s = .next t ∧ s.engineBecomes t e { x with fifo := ws }) ∧
      (x.fifo = [] →
        ∃ t, exec .agtFifoPop s = .next t ∧ t = { s with regs := t.regs, fresh := t.fresh, flt := t.flt } ∧
          (t.reg R.AGT_STATUS e).getLsbD 15 = true ∧ s.regsKept t [(F.FLT_EV_LOST_COUNT, 0), (Field.word R.AGT_STATUS, e)]))

/-- At its cycle tick a running engine executes the row at PC if the row's wait is satisfied: its actions, its events
in the next tick, the next PC; else it waits, and counts the cycle; a row whose limit expires executes and goes to
TARGET with WAIT_TMO; a pending halt takes effect at an unlocked row from the tick after its request; each such tick
takes up the divider of AGT_DIV. An injected row executes once in a halted engine, also in Standby, and leaves the PC.
AGT_CYCLE is the cycle tick of one engine, with the levels outside the lands (log entry 4). -/
def Obligations.EnginesExecute : Prop :=
  ∀ (e : Fin 4) (pins edges : Byte) (s : State), e.val < s.part.engines → s.flag F.AGT_CFG_TRACE e.val = false →
    let x := s.engine e.val
    let r := s.peekRow e.val x.pc.toNat
    let k := 64 * e.val + 2 * x.pc.toNat
    let l := s.levels
    let m := s.fld F.AGT_DIV_DIV_M1 e.val
    let act (row : Row) : Engine :=
      let y := (x.act row (s.fld F.AGT_CFG_SRPIN e.val) l).1
      { y with flagged := x.flagged || y.flags != x.flags, shifted := x.shifted || y.sr != x.sr }
    let acts (blur : Byte) (t : State) (row : Row) (y : Engine) : Prop :=
      t = { s with
        regs := t.regs, fresh := t.fresh, flt := t.flt
        agt := { s.agt with
          pins := pins, blur := blur, engines := t.agt.engines
          raised := s.agt.raised ||| (BitVec.ofNat 64 (rowBits row 22 21) <<< (40 + 2 * e.val)) } } ∧
      s.regsKept t [(F.FLT_EV_LOST_COUNT, 0), (Field.word R.AGT_STATUS, e.val)] ∧
      ∀ j, t.engine j = if j = e.val then y else s.engine j
    (s.analog = true → x.injected = none → s.rowOff r = false →
      s.wordClean ⟨Store.agate, false, k⟩ → s.wordClean ⟨Store.agate, false, k + 1⟩ →
      (x.run = .running →
        (s.satisfied e.val r l = true →
          ∃ t, exec (.agtCycle e pins edges) s = .next t ∧
            acts (s.agt.blur ||| edges) t r { act r with
              pc := (s.nextRow e.val r l false).2, waiting := false, waited := 0, since := x.since + 1, div := m }) ∧
        (s.satisfied e.val r l = false → rowLimit r = 0 ∨ x.waited < rowLimit r →
          ∃ t, exec (.agtCycle e pins edges) s = .next t ∧
            (s.atPins pins edges).engineBecomes t e.val { x with waiting := true, waited := x.waited + 1, div := m }) ∧
        (s.satisfied e.val r l = false → rowLimit r ≠ 0 → rowSource r ≠ .none →
          ∃ t, exec (.agtWaitLimit e pins edges) s = .next t ∧
            acts (s.agt.blur ||| edges) t r { act r with
              pc := BitVec.ofNat 5 (rowBits r 20 16), waiting := false, waited := 0, since := x.since + 1, div := m } ∧
            (t.reg R.AGT_STATUS e.val).getLsbD 11 = true)) ∧
      (x.run = .halting → x.asking = false → rowLock r = false →
        ∃ t, exec (.agtCycle e pins edges) s = .next t ∧ (s.atPins pins edges).engineBecomes t e.val { x with
          run := .halted, why := .host, waiting := false, waited := 0, since := 0, div := m
          drives := if s.flag F.AGT_CFG_HALT_Z e.val then 0 else x.drives
          values := if s.flag F.AGT_CFG_HALT_Z e.val then 0 else x.values })) ∧
    (∀ j, s.up = true → x.injected = some j → x.run = .halted →
      ∃ t, exec (.agtInjectedRow e pins) s = .next t ∧ acts s.agt.blur t j { act j with injected := none })

/-! ### Peripheral bus (chapter 16) -/

/-- The host's commands to the controller: PB_XFER starts the transfer that OP, WLEN, RLEN and PB_XADDR name, is
refused with REFUSED where it may not, and ends at once with INHIBIT where the warning forbids it; OP = 0 aborts a
host transfer; PB_DATA writes and reads two bytes of the buffer at PTR, which advances by two. What an abort before
the START does is the model's reading (log entry 39). -/
def Obligations.BusTransfers : Prop :=
  ∀ (wlen rlen : BitVec 6) (v : Word) (s : State), s.live = true → s.flt.events.length < 64 →
    let lengths : List (Field × Nat) := [(F.PB_XFER_WLEN, 0), (F.PB_XFER_RLEN, 0)]
    (∀ c op, c = .pbXferWrite wlen rlen ∧ op = .write ∨ c = .pbXferRead wlen rlen ∧ op = .read ∨
        c = .pbXferWriteRead wlen rlen ∧ op = .writeRead →
      (s.startRefused op wlen.toNat rlen.toNat = true →
        ∃ t, exec c s = .next t ∧ t = { s with regs := t.regs, fresh := t.fresh } ∧ t.flag F.PB_STATUS_REFUSED = true ∧
          s.regsKept t [(F.PB_STATUS_REFUSED, 0)]) ∧
      (s.startRefused op wlen.toNat rlen.toNat = false →
        (s.inhibited (s.hostTransfer op wlen.toNat rlen.toNat) = false →
          ∃ t, exec c s = .next t ∧
            t = { s with regs := t.regs, pb := { s.pb with xfer := some (s.hostTransfer op wlen.toNat rlen.toNat) } } ∧
            t.fld F.PB_XFER_WLEN = wlen.toNat ∧ t.fld F.PB_XFER_RLEN = rlen.toNat ∧ s.regsKept t lengths) ∧
        (s.inhibited (s.hostTransfer op wlen.toNat rlen.toNat) = true →
          ∃ t, exec c s = .next t ∧ s.transferEnds t 5 s.pb.buffer lengths))) ∧
    (∀ x, s.pb.xfer = some x → x.job = .host →
      (x.sent = true →
        ∃ t, exec (.pbXferAbort wlen rlen) s = .next t ∧
          t = { s with regs := t.regs, pb := { s.pb with xfer := some { x with aborting := true } } } ∧
          s.regsKept t lengths) ∧
      (x.sent = false → ∃ t, exec (.pbXferAbort wlen rlen) s = .next t ∧ s.transferEnds t 8 s.pb.buffer lengths)) ∧
    (let p := s.fld F.PB_XADDR_PTR
     ∃ t, exec (.pbDataWrite v) s = .next t ∧ t = { s with regs := t.regs, pb := { s.pb with buffer := t.pb.buffer } } ∧
       t.fld F.PB_XADDR_PTR = (p + 2) % 32 ∧ s.regsKept t [(F.PB_XADDR_PTR, 0)] ∧
       ∀ k, Cells.get 0 t.pb.buffer k =
         if k = p then v.extractLsb' 8 8 else if k = (p + 1) % 32 then v.extractLsb' 0 8 else Cells.get 0 s.pb.buffer k) ∧
    (s.pwr.rails.vcore = true →
      let p := s.fld F.PB_XADDR_PTR
      (s.hostRead .port false R.PB_DATA).1 = Cells.get 0 s.pb.buffer p ++ Cells.get 0 s.pb.buffer ((p + 1) % 32) ∧
      ∃ t, exec .pbDataPop s = .next t ∧ t = { s with regs := t.regs } ∧
        t.fld F.PB_XADDR_PTR = (p + 2) % 32 ∧ s.regsKept t [(F.PB_XADDR_PTR, 0)])

/-- What the bus gives a host transfer: its START when the bus is free or the backoff has ended, a loss of arbitration
counted and retried until the last attempt, where it may be addressed as target; its end with the bytes read, after a
write to the EEPROM block only once polling ends; a missing acknowledge counted; arbitration lost at a STOP; the bus
stuck. The start at the end of a backoff and the judging of the inhibit are the model's reading (log entry 39). -/
def Obligations.BusProgresses : Prop :=
  ∀ (s : State) (x : Transfer), s.pb.xfer = some x → x.job = .host → s.busOn = true → s.bst.run = none →
    s.flt.events.length < 64 → s.injArg 0x17 = none → s.injArg 0x18 = none →
    (x.sent = false → s.inhibited x = false →
      (x.backoff = false →
        exec .pbBusFree s = .next { s with pb := { s.pb with xfer := some { x with sent := true }, target := .idle } }) ∧
      (x.backoff = true →
        exec .pbBackoffEnd s = .next { s with
          pb := { s.pb with xfer := some { x with sent := true, backoff := false }, target := .idle } })) ∧
    (∃ t, exec .sclStuck s = .next t ∧ s.transferEnds t 7 s.pb.buffer []) ∧
    (x.sent = true →
      (∀ winner : Option Byte,
        (x.losses < s.fld F.PB_CFG_RETRY →
          ∃ t, exec (.pbArbLost winner) s = .next t ∧
            t = { s with
              regs := t.regs
              pb := { s.pb with
                xfer := some { x with sent := false, losses := x.losses + 1, backoff := true }
                target := match winner with
                  | some b => if s.namesTarget b then (if b.getLsbD 0 then .readOut else .written false) else s.pb.target
                  | none => s.pb.target } } ∧
            s.counts t F.PB_ERR_ARB_LOSSES ∧ s.regsKept t [(F.PB_ERR_ARB_LOSSES, 0)]) ∧
        (s.fld F.PB_CFG_RETRY ≤ x.losses → winner = none →
          ∃ t, exec (.pbArbLost winner) s = .next t ∧ s.transferEnds t 3 s.pb.buffer [(F.PB_ERR_ARB_LOSSES, 0)] ∧
            s.counts t F.PB_ERR_ARB_LOSSES)) ∧
      (∃ t, exec .pbArbSr s = .next t ∧ s.transferEnds t 4 s.pb.buffer [(F.PB_ERR_ARB_LOSSES, 0)] ∧
        s.counts t F.PB_ERR_ARB_LOSSES) ∧
      (x.polling = false →
        (∀ d, x.op ≠ .write →
          ∃ t, exec (.pbDone (.complete d)) s = .next t ∧
            s.transferEnds t 0 (Cells.setRange 0 s.pb.buffer 0 ((d.take x.rlen).take 32)) []) ∧
        (∀ d, x.op = .write → s.inBlock x.addr = false →
          ∃ t, exec (.pbDone (.complete d)) s = .next t ∧ s.transferEnds t 0 s.pb.buffer []) ∧
        (∀ d, x.op = .write → s.inBlock x.addr = true →
          exec (.pbDone (.complete d)) s = .next { s with
            pb := { s.pb with xfer := some { x with sent := false, polling := true } } }) ∧
        (∃ t, exec (.pbDone .nackAddr) s = .next t ∧ s.transferEnds t 1 s.pb.buffer [(F.PB_ERR_NACKS, 0)] ∧
          s.counts t F.PB_ERR_NACKS) ∧
        (∃ t, exec (.pbDone .nackData) s = .next t ∧ s.transferEnds t 2 s.pb.buffer [(F.PB_ERR_NACKS, 0)] ∧
          s.counts t F.PB_ERR_NACKS))) ∧
    (x.polling = true →
      (∃ t, exec (.pbAckPoll true) s = .next t ∧ s.transferEnds t 0 s.pb.buffer []) ∧
      (∃ t, exec (.pbAckPoll false) s = .next t ∧ s.transferEnds t 1 s.pb.buffer [])) ∧
    exec (.pbBusRecovery true) s = .next s ∧
    (x.sent = false →
      ∃ t, exec (.pbBusRecovery false) s = .next t ∧ s.transferEnds t 6 s.pb.buffer [(F.PB_STATUS_STUCK, 0)] ∧
        t.flag F.PB_STATUS_STUCK = true)

/-- The target side, where the device answers (enabled at the START, and with no transfer of its own on the bus), and
else nothing: the first byte sets the register pointer; a byte pair writes the register there, with every bit by its
access code, and the pointer advances; a read reads the register there with its side effects; at the end of the map
nothing is written; a STOP ends the transfer. A pair without a pointer byte writes at the pointer as it stands, by the
model's reading (log entry 39). -/
def Obligations.TargetTransfers : Prop :=
  ∀ (s : State) (b hi lo : Byte) (lost : Bool),
    exec .pbTargetStop s = .next { s with pb := { s.pb with target := .idle } } ∧
    (s.targetOn = false →
      exec (.pbTargetPointer b) s = .next s ∧ exec (.pbTargetWrite hi lo lost) s = .next s ∧
        exec .pbTargetRead s = .next s) ∧
    (s.targetOn = true →
      exec (.pbTargetPointer b) s = .next { s with pb := { s.pb with pointer := b.toNat, target := .written false } } ∧
      (s.commitDue = false → s.pb.pointer ∈ plainRegs → s.pb.target ≠ .written true →
        ∃ t, exec (.pbTargetWrite hi lo lost) s = .next t ∧
          t = { s with regs := t.regs, pb := { s.pb with pointer := s.pb.pointer + 1, target := .written false } } ∧
          (∀ n < 16, (t.reg s.pb.pointer).getLsbD n = s.storedBit s.pb.pointer (hi ++ lo) 0xFFFF n) ∧
          s.regsKept t [(Field.word s.pb.pointer, 0)]) ∧
      (0x100 ≤ s.pb.pointer → s.pb.target ≠ .written true →
        exec (.pbTargetWrite hi lo lost) s = .next { s with pb := { s.pb with target := .written true } }) ∧
      (s.commitDue = false → s.pb.pointer < 0x100 →
        let u := (s.readReg .target false s.pb.pointer).2
        exec .pbTargetRead s = .next { u with
          pb := { u.pb with pointer := u.pb.pointer + 1, target := .readOut } } ∧ u.pb.pointer = s.pb.pointer) ∧
      (0x100 ≤ s.pb.pointer → exec .pbTargetRead s = .next { s with pb := { s.pb with target := .readOut } }))

/-! ### Memory integrity, self-test and injections (chapters 17 to 19) -/

/-- The scrubber reads the next word of its walk and moves on; a corrected word is written back; MEM_FLIP_MASK arms a
flip for the store that MEM_SEL names, or with no mask disarms it, and refuses a position outside the word; MEM_RAW is
refused while Streaming; SLT_RETIRE stores the pages of a present group; a step of a test run judges what it measured
against its limits and the next begins. When the walk starts anew, and that a test step carries its measurement, is
the model's choice (log entries 28 and 30). -/
def Obligations.IntegrityWorks : Prop :=
  ∀ (s : State) (v : Word),
    (s.scrubs = true →
      let k := s.scrubNext s.mem.scrubPos
      k < walkEnd s.part → s.scrubNext (k + 1) < walkEnd s.part → s.wordClean (walkWord s.part k) →
      exec .scrubVisit s = .next { s with
        mem := { s.mem with
          interval := if s.mem.paced = s.passTime then s.mem.interval else s.passTime / s.passWords
          paced := s.passTime, scrubPos := s.scrubNext (k + 1) } }) ∧
    (∀ w raw rest, s.mem.writebacks = (w, raw) :: rest →
      ∃ t, exec .correctedWriteback s = .next t ∧
        t = { s with mem := { s.mem with
          cells := t.mem.cells, valid := t.mem.valid, writebacks := s.mem.writebacks.filter fun e => e.1 ≠ w } } ∧
        t.mem.isValid w = true ∧ (raw.length = rawSize w.store → t.mem.raw w = raw)) ∧
    (s.live = true →
      let id := s.fld F.MEM_SEL_STORE
      (id ∈ [Store.wave, Store.cal, Store.defect, Store.agate, Store.lut, Store.slate, Store.log, Store.adcseq, Store.trace] →
        (s.flipCheck v = Status.ok →
          ∃ t, exec (.memFlipMaskWrite v) s = .next t ∧
            t = { s with
              regs := t.regs
              mem := { s.mem with flip := if F.MEM_FLIP_MASK_MASK.of v = 0 then none else some id } } ∧
            t.fld F.MEM_FLIP_MASK_MASK = F.MEM_FLIP_MASK_MASK.of v ∧
            t.fld F.MEM_FLIP_MASK_POS = F.MEM_FLIP_MASK_POS.of v ∧
            s.regsKept t [(F.MEM_FLIP_MASK_MASK, 0), (F.MEM_FLIP_MASK_POS, 0)]) ∧
        ((if id = Store.slate then 17 else 4) < F.MEM_FLIP_MASK_POS.of v →
          exec (.memFlipMaskWrite v) s = .next s)) ∧
      (s.rawCheck v = Status.ok →
        ∃ t, exec (.memRawWrite v) s = .next t ∧ t = { s with regs := t.regs } ∧
          t.fld F.MEM_RAW_EN = F.MEM_RAW_EN.of v ∧ t.fld F.MEM_RAW_STORE = F.MEM_RAW_STORE.of v ∧
          s.regsKept t [(F.MEM_RAW_EN, 0), (F.MEM_RAW_STORE, 0)]) ∧
      (F.MEM_RAW_EN.of v = 1 → s.pwr.state = .streaming → exec (.memRawWrite v) s = .next s) ∧
      (16 * s.fld F.MEM_SEL_RGRP < s.part.pages →
        ∃ t, exec (.sltRetireWrite v) s = .next t ∧ t = { s with regs := t.regs } ∧
          t.reg R.SLT_RETIRE (s.fld F.MEM_SEL_RGRP) = v ∧ s.regsKept t [(Field.word R.SLT_RETIRE, s.fld F.MEM_SEL_RGRP)]) ∧
      (s.part.pages ≤ 16 * s.fld F.MEM_SEL_RGRP → exec (.sltRetireWrite v) s = .next s)) ∧
    (∀ (m : Measured) (r : TestRun), s.bst.run = some r → m.freqOut = false → s.injArg 0x1A = none →
      (r.step = 3 →
        let bad := ¬(8110 ≤ m.vrefSum / 16 ∧ m.vrefSum / 16 ≤ 8274) ∨
          ¬(11919 ≤ m.vcoreSum / 16 ∧ m.vcoreSum / 16 ≤ 12657) ∨ ¬(9933 ≤ m.vanaSum / 16 ∧ m.vanaSum / 16 ≤ 10547)
        exec (.testStepEnd m) s = .next { s with
          bst := { s.bst with run := some { r with
            step := 4, micros := r.micros + m.micros, vref := m.vrefSum / 16
            firstFail := if bad then some (r.firstFail.getD 3) else r.firstFail
            analogFail := if bad then r.analogFail ||| 2 else r.analogFail } } }) ∧
      (r.step = 5 →
        let e := m.laneErrors.toNat % 2 ^ s.part.quires
        exec (.testStepEnd m) s = .next { s with
          bst := { s.bst with run := some { r with
            step := 6, micros := r.micros + m.micros, laneFail := e
            firstFail := if e ≠ 0 then some (r.firstFail.getD 5) else r.firstFail
            analogFail := if e ≠ 0 then r.analogFail ||| 16 else r.analogFail } } }))

/-- An injection that waits for its occasion: with its argument in range, its unit present, its state given and no
other pending, it is logged and pending; out of range, in another state or behind a pending one it sets REFUSED and
does nothing; of an absent unit it is accepted and does nothing; in the tick of a real occurrence it is discarded;
CANCEL ends a pending one. A row of its own per injection, and the order of the checks, are the model's choice (log
entry 40). -/
def Obligations.InjectionsWait : Prop :=
  ∀ (arg : Word) (s : State), s.live = true → s.flt.events.length < 64 →
    (∀ c det, (c, det) ∈ waitingInjections arg ++ actingInjections arg →
      (injRange det arg.toNat = false ∨
          injAbsent s.part det arg.toNat = false ∧ (s.injState det = false ∨ s.flt.pending ≠ none) →
        ∃ t, exec c s = .next t ∧ t = { s with regs := t.regs, fresh := t.fresh } ∧ t.flag F.INJ_STATUS_REFUSED = true ∧
          s.regsKept t [(F.INJ_STATUS_REFUSED, 0)]) ∧
      (injRange det arg.toNat = true → injAbsent s.part det arg.toNat = true → exec c s = .next s) ∧
      (injRange det arg.toNat = true → injAbsent s.part det arg.toNat = false → s.injState det = true →
        s.flt.pending = none → s.realNow det arg.toNat = true → exec c s = .next s)) ∧
    (∀ c det, (c, det) ∈ waitingInjections arg → injRange det arg.toNat = true → injAbsent s.part det arg.toNat = false →
      s.injState det = true → s.flt.pending = none → s.realNow det arg.toNat = false →
      ∃ (u t : State), s.injectionLogged u det arg ∧ exec c s = .next t ∧
        t = { u with flt := { u.flt with pending := some (det, arg.toNat) } }) ∧
    (∃ t, exec .injCancel s = .next t ∧ t = { s with regs := t.regs, flt := { s.flt with pending := none } } ∧
      s.regsKept t [])

/-- An injection that acts at once is logged, and then its detector acts as in its own command, with every entry
marked INJ: a supply warning and a pump fault, which hold until their duration ends; a brown-out; the Colophon, which
fails in the SOFT reset that it starts; the REFCLK losses; a Slate macro; the watchdog's period; the transaction
timeout; the stale timer; sticky flags of an engine. A row of its own per injection, and effects in the command
itself, are the model's choice (log entry 40). -/
def Obligations.InjectionsAct : Prop :=
  ∀ (arg : Word) (s : State), s.live = true → s.flt.events.length < 63 →
    let relates (u t : State) (d : Instr) : Prop := ∃ v, exec d (u.markedInj true) = .next v ∧ t = v.markedInj s.flt.mark
    (s.injReady 0x00 arg →
      ∃ u t, s.injectionLogged u 0x00 arg ∧ exec (.injSupplyWarn arg) s = .next t ∧
        let active := s.flt.active.filter (· != 0) ++ [0]
        (s.pwr.warn = true → t = { u with flt := { u.flt with active := active } }) ∧
        (s.pwr.warn = false → s.pwr.rails.vcore = true →
          t = { u with
            regs := t.regs, fresh := t.fresh, exp := s.markSW.exp, lines := s.lines ||| (1#64 <<< 59)
            pwr := { s.pwr with
              warn := true, hold := s.pwr.hold || !s.flag F.PWR_DIP_POLICY_POLICY, holdCount := false }
            flt := { u.flt with
              active := active
              events := u.flt.events ++ [⟨0x10, true, noUnit, s.warnLevel, s.timeBits 32, false⟩] } } ∧
          t.flag F.PWR_STATUS_WARN_LATCH = true ∧ u.regsKept t [(F.PWR_STATUS_WARN_LATCH, 0)])) ∧
    (∀ (second : Bool) (c : Instr), c = (if second then .injCp2 arg else .injCp1 arg) →
      let det := if second then 0x02 else 0x01
      s.injReady det arg →
      ∃ u t, s.injectionLogged u det arg ∧ exec c s = .next t ∧
        let was := if second then s.pwr.cp2Ok || s.pwr.droop2.isSome else s.pwr.cp1Ok || s.pwr.droop1.isSome
        t = { u with
          regs := t.regs, fresh := t.fresh
          pwr := if second then { s.pwr with cp2Ok := false } else { s.pwr with cp1Ok := false }
          flt := { u.flt with
            active := s.flt.active.filter (· != det) ++ [det]
            events := u.flt.events ++ if was then
                [⟨0x11, true, if second then 2 else 1,
                  2 ^ 5 + t.pwrLive + 2 * bit (t.flag F.PWR_STATUS_WARN_LATCH), s.timeBits 32, false⟩]
              else [] } } ∧
        (was = true → t.flag F.PWR_STATUS_CP_DROOP = true) ∧
        u.regsKept t (if was then [(F.PWR_STATUS_CP_DROOP, 0)] else [])) ∧
    (s.mem.failing = [] → s.port.undo = [] → s.pwr.inReset = none → s.pwr.resetLow = false → s.pwr.testHigh = false →
      let cfgsel := F.SYS_STRAPS_CFGSEL.of (s.reg R.SYS_STRAPS)
      let spi := F.SYS_STRAPS_SPIMODE.of (s.reg R.SYS_STRAPS) == 1
      (s.injReady 0x03 arg →
        ∃ u t, s.injectionLogged u 0x03 arg ∧ exec (.injBrownOut arg) s = .next t ∧
          u.wasReset { t with fresh := [] } .bor ∧
          u.retains t (.reset .bor) cfgsel spi
            [R.SYS_RESET_CAUSE, R.SYS_STORE_LOST, R.SYS_STATUS, R.FLT_LOG_WR, R.AGT_TRACE, R.BND_STATUS, R.FLT_STATUS] ∧
          t.flag F.FLT_STATUS_INJ_RESET = true ∧
          (s.idleStream = true → ∀ w : WordAddr, w.store ∈ classC → w.word < 2 ^ 23 → t.mem.isValid w = false) ∧
          t.pwr.state = .waking ∧ t.pwr.step = 1 ∧ t.pwr.stepRunning = false ∧ t.pwr.supplyWait = true) ∧
      (s.injReady 0x05 arg →
        ∃ u t, s.injectionLogged u 0x05 arg ∧ exec (.injColophonCrc arg) s = .next t ∧
          u.wasReset { t with fresh := [], flt := { t.flt with pending := none } } .soft ∧ t.flt.pending = some (5, 0) ∧
          u.retains t (.reset .soft) cfgsel spi [R.SYS_RESET_CAUSE, R.FLT_STATUS] ∧ t.flag F.FLT_STATUS_INJ_RESET = true ∧
          t.pwr.state = .waking ∧ t.pwr.step = 1 ∧ t.pwr.stepRunning = !s.pwr.warnReal) ∧
      (s.injReady 0x0B arg →
        ∃ u t, s.injectionLogged u 0x0B arg ∧ exec (.injWatchdog arg) s = .next t ∧ relates u t .bndWdogExpiry ∧
          t.fld F.SYS_RESET_CAUSE_CLASS = ResetClass.fault.code ∧ t.flag F.SYS_RESET_CAUSE_FAULT_WDOG = true ∧
          t.flag F.FLT_STATUS_INJ_RESET = true ∧ t.pwr.state = .waking ∧ t.pwr.kind = .reset .fault ∧ t.pwr.step = 1)) ∧
    (s.injReady 0x06 arg → s.clk.locked = true ∨ s.clk.relocking = true →
      ∃ u t, s.injectionLogged u 0x06 arg ∧ exec (.injRefclkLoss arg) s = .next t ∧
        relates u t (if arg = 1 then .refclkMissing else .refclkFrequencyLoss) ∧
        t.flag F.CLK_STATUS_LOST = true ∧ t.fld F.CLK_STATUS_CAUSE = arg.toNat ∧ t.flag F.CLK_STATUS_TIME_GAP = true ∧
        t.clk = { s.clk with
          locked := false, refPresent := false, relocking := false, owed := false
          toFull := s.clk.relocking || s.clk.owed || !s.clk.boot, held := true }) ∧
    (s.injReady 0x0A arg →
      ∃ u t, s.injectionLogged u 0x0A arg ∧ exec (.injMacroFail arg) s = .next t ∧
        (s.mem.declared.contains arg.toNat = true → t = { u with free := s.free + 1 }) ∧
        (s.mem.declared.contains arg.toNat = false →
          t = { u with regs := t.regs, fresh := t.fresh, flt := t.flt, mem := t.mem, free := s.free + 1 } ∧
          t.mem.declared = s.mem.declared ++ [arg.toNat] ∧ t.flag F.MEM_STATUS_MACRO = true ∧
          t.mem.failed = some (s.mem.failed.getD arg.toNat) ∧
          u.regsKept t [(Field.word R.MEM_STATUS, 0), (Field.word R.FLT_STATUS, 0), (Field.word R.FLT_LOG_WR, 0),
            (F.FLT_EV_LOST_COUNT, 0)])) ∧
    (s.injReady 0x0C arg →
      ∃ u t, s.injectionLogged u 0x0C arg ∧ exec (.injTxnTimeout arg) s = .next t ∧ relates u t .bndTxnTmoExpiry ∧
        t.bnd.txn = .timedOut ∧ t.bnd.staged = [] ∧ t.flag F.BND_STATUS_TIMEOUT_LATCH = true) ∧
    (s.injReady 0x12 arg →
      ∃ u t, s.injectionLogged u 0x12 arg ∧ exec (.injTempStale arg) s = .next t ∧
        (s.fld F.TMP_CFG_STALE = 0 ∨ s.tmp.stale = true → t = u) ∧
        (s.fld F.TMP_CFG_STALE ≠ 0 → s.tmp.stale = false →
          t = { u with
            regs := t.regs, fresh := t.fresh, tmp := { s.tmp with stale := true }
            flt := { u.flt with events := u.flt.events ++ [⟨0x3C, true, noUnit, 0, s.timeBits 32, false⟩] } } ∧
          t.flag F.TMP_STATUS_STALE_LATCH = true ∧ u.regsKept t [(F.TMP_STATUS_STALE_LATCH, 0)])) ∧
    (s.injReady 0x16 arg →
      ∃ u t, s.injectionLogged u 0x16 arg ∧ exec (.injAgtFlags arg) s = .next t ∧
        let e := arg.toNat / 2 ^ 8 % 4
        t = { u with regs := t.regs, fresh := t.fresh, flt := t.flt } ∧
        u.regsKept t [(Field.word R.AGT_STATUS, e)] ∧
        ∀ k < 5, arg.getLsbD k = true → (t.reg R.AGT_STATUS e).getLsbD (11 + k) = true) ∧
    (∀ k : Fin 3,
      let off : Faults := { s.flt with active := s.flt.active.filter (· != k.val) }
      (s.flt.active.contains k.val = false → exec (.injDurationEnd k) s = .next s) ∧
      (s.flt.active.contains k.val = true →
        (k = 0 → s.pwr.warnReal = true → exec (.injDurationEnd k) s = .next { s with flt := off }) ∧
        (k = 0 → s.pwr.warnReal = false → s.pwr.warn = true →
          exec (.injDurationEnd k) s =
            .next { s with flt := off, pwr := { s.pwr with warn := false, holdCount := s.pwr.hold } }) ∧
        (k = 1 → exec (.injDurationEnd k) s =
          .next { s with flt := off, pwr := { s.pwr with cp1Ok := s.pwr.rails.vpixh && s.pwr.droop1.isNone } }) ∧
        (k = 2 → exec (.injDurationEnd k) s =
          .next { s with flt := off, pwr := { s.pwr with cp2Ok := s.pwr.rails.vneg && s.pwr.droop2.isNone } })))
end

