-- ==== Sys2Proof/Laws/Cells.lean ====
section
/-! SUPPORT.
Sparse contents: a read after a write, and that every operation keeps the canonical form.
-/
namespace Sys2Proof.Machine

variable {β : Type} [DecidableEq β] {d : β}

/-- The canonical form from a bound on is the canonical form from a smaller bound on. -/
theorem Cells.wfFrom_mono {lo lo' : Nat} {m : Cells β} (h : Cells.wfFrom d lo m = true) (hl : lo' ≤ lo) :
    Cells.wfFrom d lo' m = true := by
  cases m with
  | nil => rfl
  | cons e m =>
    simp only [Cells.wfFrom, Bool.and_eq_true, decide_eq_true_eq] at h ⊢
    exact ⟨⟨by omega, h.1.2⟩, h.2⟩

theorem Cells.wfFrom_filter {lo : Nat} {m : Cells β} {p : Nat × β → Bool} (h : Cells.wfFrom d lo m = true) :
    Cells.wfFrom d lo (m.filter p) = true := by
  induction m generalizing lo with
  | nil => rfl
  | cons e m ih =>
    obtain ⟨k', v'⟩ := e
    simp only [Cells.wfFrom, Bool.and_eq_true, decide_eq_true_eq] at h
    rw [List.filter_cons]
    split
    · simp only [Cells.wfFrom, Bool.and_eq_true, decide_eq_true_eq]
      exact ⟨h.1, ih h.2⟩
    · exact Cells.wfFrom_mono (ih h.2) (by omega)

/-- Entries left out keep the canonical form. -/
theorem Cells.wf_filter {m : Cells β} {p : Nat × β → Bool} (h : Cells.wf d m = true) : Cells.wf d (m.filter p) = true :=
  Cells.wfFrom_filter h

theorem Cells.wfFrom_set {lo : Nat} {m : Cells β} {k : Nat} {v : β} (h : Cells.wfFrom d lo m = true) (hk : lo ≤ k) :
    Cells.wfFrom d lo (Cells.set d m k v) = true := by
  induction m generalizing lo with
  | nil =>
    simp only [Cells.set]
    split <;> simp_all [Cells.wfFrom]
  | cons e m ih =>
    obtain ⟨k', v'⟩ := e
    simp only [Cells.wfFrom, Bool.and_eq_true, decide_eq_true_eq] at h
    simp only [Cells.set]
    split
    · subst_vars
      split
      · exact Cells.wfFrom_filter (Cells.wfFrom_mono h.2 (by omega))
      · simp_all [Cells.wfFrom]
    · split
      · split
        · simp only [Cells.wfFrom, Bool.and_eq_true, decide_eq_true_eq]
          exact ⟨h.1, Cells.wfFrom_filter h.2⟩
        · simp only [Cells.wfFrom, Bool.and_eq_true, decide_eq_true_eq]
          exact ⟨⟨hk, by assumption⟩, ⟨by omega, h.1.2⟩, h.2⟩
      · simp only [Cells.wfFrom, Bool.and_eq_true, decide_eq_true_eq]
        exact ⟨h.1, ih h.2 (by omega)⟩

/-- Writing keeps the canonical form. -/
theorem Cells.wf_set {m : Cells β} {k : Nat} {v : β} (h : Cells.wf d m = true) : Cells.wf d (Cells.set d m k v) = true :=
  Cells.wfFrom_set h (Nat.zero_le k)

/-- Modifying an entry keeps the canonical form. -/
theorem Cells.wf_modify {m : Cells β} {k : Nat} {f : β → β} (h : Cells.wf d m = true) :
    Cells.wf d (Cells.modify d m k f) = true :=
  Cells.wf_set h

omit [DecidableEq β] in
/-- A dropped key reads as the default, the others as before. -/
theorem Cells.get_drop_eq (m : Cells β) (k j : Nat) :
    Cells.get d (Cells.drop (fun x => x == k) m) j = if j = k then d else Cells.get d m j := by
  induction m with
  | nil => simp [Cells.drop, Cells.get]
  | cons e m ih =>
    obtain ⟨k', v'⟩ := e
    unfold Cells.drop at ih ⊢
    by_cases hk : k' = k
    · subst hk
      rw [List.filter_cons_of_neg (by simp), ih]
      by_cases hj : j = k' <;> simp [Cells.get, hj]
    · rw [List.filter_cons_of_pos (by simpa using hk)]
      simp only [Cells.get, ih]
      by_cases hj : j = k'
      · simp [hj, hk]
      · simp [hj]

/-- A read after a write to the same key gives the value written. -/
@[simp] theorem Cells.get_set_self (m : Cells β) (k : Nat) (v : β) : Cells.get d (Cells.set d m k v) k = v := by
  induction m with
  | nil => simp only [Cells.set]; split <;> simp_all [Cells.get]
  | cons e m ih =>
    obtain ⟨k', v'⟩ := e
    simp only [Cells.set]
    split
    · split
      · simp_all [Cells.get_drop_eq]
      · simp [Cells.get]
    · split
      · split
        · simp_all [Cells.get, Cells.get_drop_eq]
        · simp [Cells.get]
      · simp_all [Cells.get]

/-- A write leaves every other key alone. -/
theorem Cells.get_set_ne (m : Cells β) {k j : Nat} (v : β) (hj : j ≠ k) :
    Cells.get d (Cells.set d m k v) j = Cells.get d m j := by
  induction m with
  | nil => simp only [Cells.set]; split <;> simp [Cells.get, hj]
  | cons e m ih =>
    obtain ⟨k', v'⟩ := e
    simp only [Cells.set]
    split
    · subst_vars
      split <;> simp [Cells.get, Cells.get_drop_eq, hj]
    · split
      · split <;> simp [Cells.get, Cells.get_drop_eq, hj]
      · simp only [Cells.get, ih]

/-- Keys dropped keep the canonical form. -/
theorem Cells.wf_drop {m : Cells β} {p : Nat → Bool} (h : Cells.wf d m = true) : Cells.wf d (Cells.drop p m) = true :=
  Cells.wfFrom_filter h

/-- Entries mapped keep the canonical form. -/
theorem Cells.wf_mapEntries {m : Cells β} {f : Nat → β → β} (h : Cells.wf d m = true) :
    Cells.wf d (Cells.mapEntries d f m) = true := by
  have key : ∀ (lo : Nat) (m : Cells β), Cells.wfFrom d lo m = true →
      Cells.wfFrom d lo (Cells.mapEntries d f m) = true := by
    intro lo m
    induction m generalizing lo with
    | nil => intro _; rfl
    | cons e m ih =>
      intro h
      obtain ⟨k', v'⟩ := e
      simp only [Cells.wfFrom, Bool.and_eq_true, decide_eq_true_eq] at h
      have := ih _ h.2
      simp only [Cells.mapEntries]
      split
      · exact Cells.wfFrom_mono (Cells.wfFrom_filter this) (by omega)
      · simp only [Cells.wfFrom, Bool.and_eq_true, decide_eq_true_eq]
        exact ⟨⟨h.1.1, by assumption⟩, this⟩
  exact key 0 m h

/-- A key of mapped entries reads as what it held, mapped, where the default maps to itself. -/
theorem Cells.get_mapEntries {f : Nat → β → β} (hd : ∀ k, f k d = d) (m : Cells β) (k : Nat) :
    Cells.get d (Cells.mapEntries d f m) k = f k (Cells.get d m k) := by
  induction m with
  | nil => simp [Cells.mapEntries, Cells.get, hd]
  | cons e m ih =>
    obtain ⟨k', v'⟩ := e
    simp only [Cells.mapEntries, Cells.get]
    split
    · rw [Cells.get_drop_eq, ih]
      by_cases hk : k = k' <;> simp_all
    · by_cases hk : k = k' <;> simp_all [Cells.get]

/-- Writes at consecutive keys keep the canonical form. -/
theorem Cells.wf_setRange {m : Cells β} {k : Nat} {vs : List β} (h : Cells.wf d m = true) :
    Cells.wf d (Cells.setRange d m k vs) = true := by
  induction vs generalizing m k with
  | nil => exact h
  | cons v vs ih => exact ih (Cells.wf_set h)

theorem Cells.get_setRange_below (vs : List β) {m : Cells β} {k j : Nat} (hj : j < k) :
    Cells.get d (Cells.setRange d m k vs) j = Cells.get d m j := by
  induction vs generalizing m k with
  | nil => rfl
  | cons v vs ih =>
    simp only [Cells.setRange]
    rw [ih (by omega), Cells.get_set_ne m v (by omega)]

/-- Writes at consecutive keys leave the keys outside the range alone. -/
theorem Cells.get_setRange_outside (vs : List β) {m : Cells β} {k j : Nat}
    (hj : j < k ∨ k + vs.length ≤ j) : Cells.get d (Cells.setRange d m k vs) j = Cells.get d m j := by
  induction vs generalizing m k with
  | nil => rfl
  | cons v vs ih =>
    simp only [Cells.setRange, List.length_cons] at hj ⊢
    rw [ih (by omega), Cells.get_set_ne m v (by omega)]

/-- What consecutive writes store is read back. -/
theorem Cells.getRange_setRange (vs : List β) {m : Cells β} {k : Nat} :
    Cells.getRange d (Cells.setRange d m k vs) k vs.length = vs := by
  induction vs generalizing m k with
  | nil => rfl
  | cons v vs ih =>
    simp only [Cells.setRange, List.length_cons, Cells.getRange]
    rw [Cells.get_setRange_below vs (by omega), Cells.get_set_self m k v, ih]

theorem Cells.wfFrom_append {lo b : Nat} {m n : Cells β} (hm : Cells.wfFrom d lo m = true) (hb : ∀ e ∈ m, e.1 < b)
    (hn : Cells.wfFrom d b n = true) (hlo : lo ≤ b) : Cells.wfFrom d lo (m ++ n) = true := by
  induction m generalizing lo with
  | nil => exact Cells.wfFrom_mono hn hlo
  | cons e m ih =>
    obtain ⟨k', v'⟩ := e
    simp only [Cells.wfFrom, Bool.and_eq_true, decide_eq_true_eq] at hm
    have hk := hb (k', v') (by simp)
    simp only [List.cons_append, Cells.wfFrom, Bool.and_eq_true, decide_eq_true_eq]
    exact ⟨hm.1, ih hm.2 (fun e he => hb e (by simp [he])) (by simp at hk; omega)⟩

theorem Cells.wfFrom_above {lo b : Nat} {m : Cells β} (h : Cells.wfFrom d lo m = true) (hb : ∀ e ∈ m, b ≤ e.1) :
    Cells.wfFrom d b m = true := by
  cases m with
  | nil => rfl
  | cons e m =>
    simp only [Cells.wfFrom, Bool.and_eq_true, decide_eq_true_eq] at h ⊢
    exact ⟨⟨hb e (by simp), h.1.2⟩, h.2⟩

theorem Cells.wfFrom_shift {lo a b : Nat} {m : Cells β} (h : Cells.wfFrom d lo m = true) (ha : a ≤ lo) :
    Cells.wfFrom d (lo - a + b) (m.map fun e => (e.1 - a + b, e.2)) = true := by
  induction m generalizing lo with
  | nil => rfl
  | cons e m ih =>
    obtain ⟨k', v'⟩ := e
    simp only [Cells.wfFrom, Bool.and_eq_true, decide_eq_true_eq] at h
    simp only [List.map_cons, Cells.wfFrom, Bool.and_eq_true, decide_eq_true_eq]
    refine ⟨⟨by omega, h.1.2⟩, ?_⟩
    have := ih (lo := k' + 1) h.2 (by omega)
    rwa [show k' - a + b + 1 = k' + 1 - a + b by omega]

end Sys2Proof.Machine
end

