-- ==== Sys2Proof/Laws/Memory.lean ====
section
/-! SUPPORT.
The canonical form of the memories (`Memory.wf`): every operation of the memories keeps it, and reset has it.  What a
state operation keeps of it stands in the Sound files.
-/
namespace Sys2Proof.Machine

/-- The four lists of the memories in canonical form. -/
theorem Memory.wf_iff {m : Memory} : m.wf = true ↔
    Cells.wf cellDefault m.cells = true ∧ Cells.wf false m.valid = true ∧ Cells.wf 0 m.corrected = true ∧
      Cells.wf .free m.pages = true := by
  simp [Memory.wf, Bool.and_eq_true, and_assoc]

/-- What the checkers and the scrubber hold does not matter to the form. -/
theorem Memory.keep_wf {m : Memory} {wb : List (WordAddr × List Byte)} {flip failed erased : Option Nat}
    {pos interval paced records elapsed : Nat} {lastHits hits : List WordAddr} {rows : List (Nat × Nat)}
    {declared failing : List Nat} (h : m.wf = true) :
    Memory.wf ⟨m.cells, m.valid, wb, m.corrected, flip, pos, interval, paced, lastHits, hits, records, rows, declared, failed,
      erased, elapsed, m.pages, failing⟩ = true :=
  h

/-- The form with the counts of corrections replaced. -/
theorem Memory.keepCorrected_wf {m : Memory} {wb : List (WordAddr × List Byte)} {flip failed erased : Option Nat}
    {pos interval paced records elapsed : Nat} {lastHits hits : List WordAddr} {rows : List (Nat × Nat)}
    {declared failing : List Nat} {k n : Nat} (h : m.wf = true) :
    Memory.wf ⟨m.cells, m.valid, wb, Cells.set 0 m.corrected k n, flip, pos, interval, paced, lastHits, hits, records, rows,
      declared, failed, erased, elapsed, m.pages, failing⟩ = true := by
  have := Memory.wf_iff.mp h
  exact Memory.wf_iff.mpr ⟨this.1, this.2.1, Cells.wf_set this.2.2.1, this.2.2.2⟩

/-- Storing a raw word keeps the form. -/
theorem Memory.putRaw_wf {m : Memory} {w : WordAddr} {raw : List Byte} (h : m.wf = true) : (m.putRaw w raw).wf = true := by
  rw [Memory.wf_iff] at h ⊢
  exact ⟨Cells.wf_setRange h.1, Cells.wf_set h.2.1, h.2.2.1, h.2.2.2⟩

/-- Putting a word back keeps the form. -/
theorem Memory.restore_wf {m : Memory} {e : WordAddr × List Byte × Bool} (h : m.wf = true) :
    (m.restore e).wf = true := by
  rw [Memory.wf_iff] at h ⊢
  exact ⟨Cells.wf_setRange h.1, Cells.wf_set h.2.1, h.2.2.1, h.2.2.2⟩

/-- Clearing a store keeps the form. -/
theorem Memory.clearStore_wf {m : Memory} {id : Nat} (h : m.wf = true) : (m.clearStore id).wf = true := by
  unfold Memory.clearStore
  rw [Memory.wf_iff] at h ⊢
  exact ⟨h.1, Cells.wf_filter h.2.1, h.2.2.1, h.2.2.2⟩

/-- Clearing a page keeps the form. -/
theorem Memory.clearPage_wf {m : Memory} {n : Nat} (h : m.wf = true) : (m.clearPage n).wf = true := by
  unfold Memory.clearPage
  rw [Memory.wf_iff] at h ⊢
  exact ⟨h.1, Cells.wf_filter h.2.1, h.2.2.1, h.2.2.2⟩

/-- Clearing class D keeps the form. -/
theorem Memory.clearRuntime_wf {m : Memory} (h : m.wf = true) : m.clearRuntime.wf = true := by
  have h := Memory.wf_iff.mp (Memory.clearStore_wf (id := Store.slate) h)
  rw [Memory.wf_iff]
  exact ⟨h.1, h.2.1, rfl, rfl⟩

/-- Storing raw words keeps the form. -/
theorem Memory.writeRawWords_wf {m : Memory} {id : Nat} {bank : Bool} {k : Nat} {d : List Byte} {n : Nat}
    (h : m.wf = true) : (m.writeRawWords id bank k d n).wf = true := by
  induction n generalizing m k d with
  | zero => exact h
  | succ n ih => exact ih (Memory.putRaw_wf h)

theorem Cells.wf_copyBank {β : Type} [DecidableEq β] {d : β} {c : Cells β} {a b n : Nat} (h : Cells.wf d c = true) :
    Cells.wf d (c.filter (fun e => decide (e.1 < b)) ++
      ((c.filter fun e => decide (a ≤ e.1) && decide (e.1 < a + n)).map fun e => (e.1 - a + b, e.2)) ++
      c.filter (fun e => decide (b + n ≤ e.1))) = true := by
  have h1 : Cells.wfFrom d 0 (c.filter fun e => decide (e.1 < b)) = true := Cells.wfFrom_filter h
  have h2 : Cells.wfFrom d a (c.filter fun e => decide (a ≤ e.1) && decide (e.1 < a + n)) = true :=
    Cells.wfFrom_above (Cells.wfFrom_filter h) (by simp +contextual)
  have h3 := Cells.wfFrom_shift (b := b) h2 (Nat.le_refl a)
  rw [Nat.sub_self, Nat.zero_add] at h3
  have h4 : Cells.wfFrom d (b + n) (c.filter fun e => decide (b + n ≤ e.1)) = true :=
    Cells.wfFrom_above (Cells.wfFrom_filter h) (by simp +contextual)
  refine Cells.wfFrom_append (Cells.wfFrom_append h1 (by simp) h3 (Nat.zero_le b)) ?_ h4 (Nat.zero_le _)
  intro e he
  simp only [List.mem_append, List.mem_map, List.mem_filter, Bool.and_eq_true, decide_eq_true_eq] at he
  rcases he with he | ⟨x, hx, rfl⟩
  · omega
  · simp only; omega

/-- Copying a bank keeps the form. -/
theorem Memory.copyBank_wf {m : Memory} {id : Nat} {src : Bool} (h : m.wf = true) : (m.copyBank id src).wf = true := by
  rw [Memory.wf_iff] at h ⊢
  exact ⟨Cells.wf_copyBank h.1, Cells.wf_copyBank h.2.1, h.2.2.1, h.2.2.2⟩

/-- The memories at reset are canonical. -/
theorem State.reset_mem_wf : State.reset.mem.wf = true := rfl

end Sys2Proof.Machine
end

