-- ==== Sys2Proof/Laws/Sound.lean ====
section
/-! SUPPORT.
What every operation keeps: the queue, the member, the canonical form of the registers and the memories, and the sizes
of the three queues.  One lemma per operation.
-/
namespace Sys2Proof.Machine

variable {q : List Instr} {p : Part}

/-- The queue `q` and the member `p`, canonical contents, and queues within their sizes. -/
structure Sound (q : List Instr) (p : Part) (s : State) : Prop where
  pending : s.pending = q
  part : s.part = p
  regs : Cells.wf 0 s.regs = true
  mem : s.mem.wf = true
  events : s.flt.events.length ≤ 64
  staged : s.bnd.staged.length ≤ stagingSlots
  queue : s.aux.queue.length ≤ 64

/-- A state whose kept parts come from another one's. -/
theorem Sound.of {s t : State} (h : Sound q p s) (h1 : t.pending = s.pending) (h2 : t.part = s.part)
    (h3 : Cells.wf 0 t.regs = true) (h4 : t.mem.wf = true) (h5 : t.flt.events.length ≤ 64)
    (h6 : t.bnd.staged.length ≤ stagingSlots) (h7 : t.aux.queue.length ≤ 64) : Sound q p t :=
  ⟨h1.trans h.pending, h2.trans h.part, h3, h4, h5, h6, h7⟩

/-- A state built from another one, of whose kept parts each keeps. -/
theorem Sound.build {x : State} {r : Cells Word} {pwr : Power} {clk : Clock} {port : Port} {bnd : Bindery}
    {exp : Exposure} {cnv : Conversion} {lanes : Lanes} {spn : Spine} {pos : Position} {aux : Aux} {tmp : Temperature}
    {agt : Agate} {pb : PBus} {m : Memory} {bst : SelfTest} {flt : Faults} {lines : BitVec 64} {past : List Past}
    {fuses : Cells Byte} {fresh : Cells Word} {free : Nat}
    (h : Sound q p x) (hs : Sound q p x → Cells.wf 0 r = true ∧ m.wf = true ∧ flt.events.length ≤ 64 ∧
      bnd.staged.length ≤ stagingSlots ∧ aux.queue.length ≤ 64) :
    Sound q p ⟨x.part, fuses, x.pending, r, pwr, clk, port, bnd, exp, cnv, lanes, spn, pos, aux, tmp, agt, pb, m, bst, flt,
      lines, past, fresh, free⟩ :=
  have k := hs h
  ⟨h.pending, h.part, k.1, k.2.1, k.2.2.1, k.2.2.2.1, k.2.2.2.2⟩

/-- The state of a pair that a match has taken apart. -/
theorem Sound.snd {α : Type} {r : α × State} {x : α} {t : State} (h : Sound q p r.2) (e : r = (x, t)) :
    Sound q p t := by
  rw [e] at h; exact h

/-- The state of a triple that a match has taken apart. -/
theorem Sound.thd {α β : Type} {r : α × β × State} {x : α} {y : β} {t : State} (h : Sound q p r.2.2)
    (e : r = (x, y, t)) : Sound q p t := by
  rw [e] at h; exact h

/-- A choice between two states that keep. -/
theorem Sound.ite {c : Prop} [Decidable c] {s t : State} (hs : c → Sound q p s) (ht : ¬c → Sound q p t) :
    Sound q p (if c then s else t) := by
  split
  · exact hs (by assumption)
  · exact ht (by assumption)

/-- A fold of operations that keep. -/
theorem Sound.foldl {α : Type} {f : State → α → State} (l : List α) {s : State} (hs : Sound q p s)
    (hf : ∀ t a, Sound q p t → Sound q p (f t a)) : Sound q p (l.foldl f s) := by
  induction l generalizing s with
  | nil => exact hs
  | cons a l ih => exact ih (hf s a hs)

/-- A fold that carries a result beside the state. -/
theorem Sound.foldl_snd {α β : Type} {f : β × State → α → β × State} (l : List α) {x : β × State}
    (hs : Sound q p x.2) (hf : ∀ t a, Sound q p t.2 → Sound q p (f t a).2) : Sound q p (l.foldl f x).2 := by
  induction l generalizing x with
  | nil => exact hs
  | cons a l ih => exact ih (hf x a hs)

/-- A fold that carries two results beside the state. -/
theorem Sound.foldl_thd {α β γ : Type} {f : β × γ × State → α → β × γ × State} (l : List α) {x : β × γ × State}
    (hs : Sound q p x.2.2) (hf : ∀ t a, Sound q p t.2.2 → Sound q p (f t a).2.2) : Sound q p (l.foldl f x).2.2 := by
  induction l generalizing x with
  | nil => exact hs
  | cons a l ih => exact ih (hf x a hs)

/-- A register write keeps. -/
theorem State.setReg_sound {s : State} {a : Nat} {w : Word} {i : Nat} (h : Sound q p s) : Sound q p (s.setReg a w i) :=
  h.of rfl rfl (Cells.wf_set h.regs) h.mem h.events h.staged h.queue

/-- A field write keeps. -/
theorem State.setFld_sound {s : State} {f : Field} {v i : Nat} (h : Sound q p s) : Sound q p (s.setFld f v i) :=
  State.setReg_sound h

/-- A flag write keeps. -/
theorem State.setFlag_sound {s : State} {f : Field} {b : Bool} {i : Nat} (h : Sound q p s) :
    Sound q p (s.setFlag f b i) := by
  have k : Sound q p (s.setFld f (bit b) i) := State.setFld_sound h
  unfold State.setFlag
  split
  · exact ⟨k.1, k.2, k.3, k.4, k.5, k.6, k.7⟩
  · exact k

/-- A count keeps. -/
theorem State.count_sound {s : State} {f : Field} {i : Nat} (h : Sound q p s) : Sound q p (s.count f i) :=
  State.setFld_sound h

/-- Several counts keep. -/
theorem State.countBy_sound {s : State} {f : Field} {n : Nat} (h : Sound q p s) : Sound q p (s.countBy f n) := by
  induction n generalizing s with
  | zero => exact h
  | succ n ih => exact ih (State.count_sound h)

/-- An event keeps: the log stays within 64 entries. -/
theorem State.raise_sound {s : State} {code unit data : Nat} (h : Sound q p s) : Sound q p (s.raise code unit data) := by
  unfold State.raise
  split
  · exact h.of rfl rfl h.regs h.mem (by simp only [List.length_append, List.length_singleton]; omega) h.staged h.queue
  · exact State.count_sound h

/-- An injected operation keeps where the operation does. -/
theorem State.injected_sound {s : State} {f : State → State} (h : Sound q p s) (hf : ∀ t, Sound q p t → Sound q p (f t)) :
    Sound q p (s.injected f) := by
  have h1 : Sound q p { s with flt := { s.flt with mark := true } } := ⟨h.1, h.2, h.3, h.4, h.5, h.6, h.7⟩
  have h2 := hf _ h1
  exact ⟨h2.1, h2.2, h2.3, h2.4, h2.5, h2.6, h2.7⟩

/-- So does one that is injected only in part of the cases. -/
theorem State.injectedIf_sound {s : State} {b : Bool} {f : State → State} (h : Sound q p s)
    (hf : ∀ t, Sound q p t → Sound q p (f t)) : Sound q p (s.injectedIf b f) := by
  unfold State.injectedIf
  split
  · exact State.injected_sound h hf
  · exact hf _ h

/-! ### Pages and units replaced -/

/-- Giving or releasing a page keeps the form. -/
theorem State.usePage_sound {s : State} {n : Nat} {u : PageUse} (h : Sound q p s) : Sound q p (s.usePage n u) := by
  unfold State.usePage
  refine h.of rfl rfl h.regs ?_ h.events h.staged h.queue
  have hm := h.mem
  dsimp only
  split
  · have := Memory.wf_iff.mp (Memory.clearPage_wf (n := n) hm)
    rw [Memory.wf_iff]
    exact ⟨this.1, this.2.1, this.2.2.1, Cells.wf_set this.2.2.2⟩
  · have := Memory.wf_iff.mp hm
    rw [Memory.wf_iff]
    exact ⟨this.1, this.2.1, this.2.2.1, Cells.wf_set this.2.2.2⟩

/-- Memories replaced by canonical ones. -/
theorem State.setMem_sound {s : State} {x : Memory} (h : Sound q p s) (hx : Sound q p s → x.wf = true) :
    Sound q p (s.setMem x) :=
  ⟨h.1, h.2, h.3, hx h, h.5, h.6, h.7⟩

/-- A Bindery within its slots. -/
theorem State.setBnd_sound {s : State} {x : Bindery} (h : Sound q p s)
    (hx : Sound q p s → x.staged.length ≤ stagingSlots) : Sound q p (s.setBnd x) :=
  ⟨h.1, h.2, h.3, h.4, h.5, hx h, h.7⟩

/-- An aux unit within its queue. -/
theorem State.setAux_sound {s : State} {x : Aux} (h : Sound q p s) (hx : Sound q p s → x.queue.length ≤ 64) :
    Sound q p (s.setAux x) :=
  ⟨h.1, h.2, h.3, h.4, h.5, h.6, hx h⟩

/-- A fault unit within its log. -/
theorem State.setFlt_sound {s : State} {x : Faults} (h : Sound q p s) (hx : Sound q p s → x.events.length ≤ 64) :
    Sound q p (s.setFlt x) :=
  ⟨h.1, h.2, h.3, h.4, hx h, h.6, h.7⟩

/-! ### The registers that an event leaves -/

/-- Registers built instance by instance are canonical. -/
theorem buildRegs_wf (f : Nat → Nat → Nat) : Cells.wf 0 (buildRegs f) = true := by
  have hsort : (allRegs.map fun ai => regKey ai.1 ai.2).Pairwise (· < ·) :=
    List.isChain_iff_pairwise.mp (by decide +kernel)
  have key : ∀ (l : List (Nat × Nat)) (lo : Nat), (∀ ai ∈ l, lo ≤ regKey ai.1 ai.2) →
      (l.map fun ai => regKey ai.1 ai.2).Pairwise (· < ·) →
      Cells.wfFrom (0 : Word) lo (l.filterMap fun ai =>
        let w := BitVec.ofNat 16 (f ai.1 ai.2)
        if w = 0 then none else some (regKey ai.1 ai.2, w)) = true := by
    intro l
    induction l with
    | nil => intros; rfl
    | cons ai l ih =>
      intro lo hlo hp
      simp only [List.map_cons, List.pairwise_cons, List.mem_map, forall_exists_index, and_imp,
        forall_apply_eq_imp_iff₂] at hp
      simp only [List.filterMap_cons]
      split
      · exact ih lo (fun x hx => hlo x (List.mem_cons_of_mem _ hx)) hp.2
      · rename_i b hb
        split at hb
        · cases hb
        · cases hb
          simp only [Cells.wfFrom, Bool.and_eq_true, decide_eq_true_eq]
          exact ⟨⟨hlo ai (List.mem_cons_self ..), by assumption⟩,
            ih _ (fun x hx => hp.1 x hx) hp.2⟩
  exact key allRegs 0 (fun _ _ => Nat.zero_le _) hsort

end Sys2Proof.Machine
end

