-- ==== Sys2Proof/Laws/State.lean ====
section
/-! SUPPORT.
The named updates of the state, one lemma per field and update, so that no proof unfolds a record update; and the laws
of register fields.
-/
namespace Sys2Proof.Machine

variable (s : State)

/-! ### setReg -/

@[simp] theorem State.setReg_part (a : Nat) (w : Word) (i : Nat) : (s.setReg a w i).part = s.part := rfl
@[simp] theorem State.setReg_fuses (a : Nat) (w : Word) (i : Nat) : (s.setReg a w i).fuses = s.fuses := rfl
@[simp] theorem State.setReg_pending (a : Nat) (w : Word) (i : Nat) : (s.setReg a w i).pending = s.pending := rfl
@[simp] theorem State.setReg_pwr (a : Nat) (w : Word) (i : Nat) : (s.setReg a w i).pwr = s.pwr := rfl
@[simp] theorem State.setReg_clk (a : Nat) (w : Word) (i : Nat) : (s.setReg a w i).clk = s.clk := rfl
@[simp] theorem State.setReg_port (a : Nat) (w : Word) (i : Nat) : (s.setReg a w i).port = s.port := rfl
@[simp] theorem State.setReg_bnd (a : Nat) (w : Word) (i : Nat) : (s.setReg a w i).bnd = s.bnd := rfl
@[simp] theorem State.setReg_exp (a : Nat) (w : Word) (i : Nat) : (s.setReg a w i).exp = s.exp := rfl
@[simp] theorem State.setReg_cnv (a : Nat) (w : Word) (i : Nat) : (s.setReg a w i).cnv = s.cnv := rfl
@[simp] theorem State.setReg_lanes (a : Nat) (w : Word) (i : Nat) : (s.setReg a w i).lanes = s.lanes := rfl
@[simp] theorem State.setReg_spn (a : Nat) (w : Word) (i : Nat) : (s.setReg a w i).spn = s.spn := rfl
@[simp] theorem State.setReg_pos (a : Nat) (w : Word) (i : Nat) : (s.setReg a w i).pos = s.pos := rfl
@[simp] theorem State.setReg_aux (a : Nat) (w : Word) (i : Nat) : (s.setReg a w i).aux = s.aux := rfl
@[simp] theorem State.setReg_tmp (a : Nat) (w : Word) (i : Nat) : (s.setReg a w i).tmp = s.tmp := rfl
@[simp] theorem State.setReg_agt (a : Nat) (w : Word) (i : Nat) : (s.setReg a w i).agt = s.agt := rfl
@[simp] theorem State.setReg_pb (a : Nat) (w : Word) (i : Nat) : (s.setReg a w i).pb = s.pb := rfl
@[simp] theorem State.setReg_mem (a : Nat) (w : Word) (i : Nat) : (s.setReg a w i).mem = s.mem := rfl
@[simp] theorem State.setReg_bst (a : Nat) (w : Word) (i : Nat) : (s.setReg a w i).bst = s.bst := rfl
@[simp] theorem State.setReg_flt (a : Nat) (w : Word) (i : Nat) : (s.setReg a w i).flt = s.flt := rfl
@[simp] theorem State.setReg_lines (a : Nat) (w : Word) (i : Nat) : (s.setReg a w i).lines = s.lines := rfl
@[simp] theorem State.setReg_past (a : Nat) (w : Word) (i : Nat) : (s.setReg a w i).past = s.past := rfl
@[simp] theorem State.setReg_fresh (a : Nat) (w : Word) (i : Nat) : (s.setReg a w i).fresh = s.fresh := rfl
@[simp] theorem State.setReg_free (a : Nat) (w : Word) (i : Nat) : (s.setReg a w i).free = s.free := rfl

/-! ### setFld -/

@[simp] theorem State.setFld_part (f : Field) (v i : Nat) : (s.setFld f v i).part = s.part := rfl
@[simp] theorem State.setFld_fuses (f : Field) (v i : Nat) : (s.setFld f v i).fuses = s.fuses := rfl
@[simp] theorem State.setFld_pending (f : Field) (v i : Nat) : (s.setFld f v i).pending = s.pending := rfl
@[simp] theorem State.setFld_pwr (f : Field) (v i : Nat) : (s.setFld f v i).pwr = s.pwr := rfl
@[simp] theorem State.setFld_clk (f : Field) (v i : Nat) : (s.setFld f v i).clk = s.clk := rfl
@[simp] theorem State.setFld_port (f : Field) (v i : Nat) : (s.setFld f v i).port = s.port := rfl
@[simp] theorem State.setFld_bnd (f : Field) (v i : Nat) : (s.setFld f v i).bnd = s.bnd := rfl
@[simp] theorem State.setFld_exp (f : Field) (v i : Nat) : (s.setFld f v i).exp = s.exp := rfl
@[simp] theorem State.setFld_cnv (f : Field) (v i : Nat) : (s.setFld f v i).cnv = s.cnv := rfl
@[simp] theorem State.setFld_lanes (f : Field) (v i : Nat) : (s.setFld f v i).lanes = s.lanes := rfl
@[simp] theorem State.setFld_spn (f : Field) (v i : Nat) : (s.setFld f v i).spn = s.spn := rfl
@[simp] theorem State.setFld_pos (f : Field) (v i : Nat) : (s.setFld f v i).pos = s.pos := rfl
@[simp] theorem State.setFld_aux (f : Field) (v i : Nat) : (s.setFld f v i).aux = s.aux := rfl
@[simp] theorem State.setFld_tmp (f : Field) (v i : Nat) : (s.setFld f v i).tmp = s.tmp := rfl
@[simp] theorem State.setFld_agt (f : Field) (v i : Nat) : (s.setFld f v i).agt = s.agt := rfl
@[simp] theorem State.setFld_pb (f : Field) (v i : Nat) : (s.setFld f v i).pb = s.pb := rfl
@[simp] theorem State.setFld_mem (f : Field) (v i : Nat) : (s.setFld f v i).mem = s.mem := rfl
@[simp] theorem State.setFld_bst (f : Field) (v i : Nat) : (s.setFld f v i).bst = s.bst := rfl
@[simp] theorem State.setFld_flt (f : Field) (v i : Nat) : (s.setFld f v i).flt = s.flt := rfl
@[simp] theorem State.setFld_lines (f : Field) (v i : Nat) : (s.setFld f v i).lines = s.lines := rfl
@[simp] theorem State.setFld_past (f : Field) (v i : Nat) : (s.setFld f v i).past = s.past := rfl
@[simp] theorem State.setFld_fresh (f : Field) (v i : Nat) : (s.setFld f v i).fresh = s.fresh := rfl
@[simp] theorem State.setFld_free (f : Field) (v i : Nat) : (s.setFld f v i).free = s.free := rfl

/-! ### markFresh -/

@[simp] theorem State.markFresh_part (a : Nat) (w : Word) (i : Nat) : (s.markFresh a w i).part = s.part := rfl
@[simp] theorem State.markFresh_fuses (a : Nat) (w : Word) (i : Nat) : (s.markFresh a w i).fuses = s.fuses := rfl
@[simp] theorem State.markFresh_pending (a : Nat) (w : Word) (i : Nat) : (s.markFresh a w i).pending = s.pending := rfl
@[simp] theorem State.markFresh_regs (a : Nat) (w : Word) (i : Nat) : (s.markFresh a w i).regs = s.regs := rfl
@[simp] theorem State.markFresh_pwr (a : Nat) (w : Word) (i : Nat) : (s.markFresh a w i).pwr = s.pwr := rfl
@[simp] theorem State.markFresh_clk (a : Nat) (w : Word) (i : Nat) : (s.markFresh a w i).clk = s.clk := rfl
@[simp] theorem State.markFresh_port (a : Nat) (w : Word) (i : Nat) : (s.markFresh a w i).port = s.port := rfl
@[simp] theorem State.markFresh_bnd (a : Nat) (w : Word) (i : Nat) : (s.markFresh a w i).bnd = s.bnd := rfl
@[simp] theorem State.markFresh_exp (a : Nat) (w : Word) (i : Nat) : (s.markFresh a w i).exp = s.exp := rfl
@[simp] theorem State.markFresh_cnv (a : Nat) (w : Word) (i : Nat) : (s.markFresh a w i).cnv = s.cnv := rfl
@[simp] theorem State.markFresh_lanes (a : Nat) (w : Word) (i : Nat) : (s.markFresh a w i).lanes = s.lanes := rfl
@[simp] theorem State.markFresh_spn (a : Nat) (w : Word) (i : Nat) : (s.markFresh a w i).spn = s.spn := rfl
@[simp] theorem State.markFresh_pos (a : Nat) (w : Word) (i : Nat) : (s.markFresh a w i).pos = s.pos := rfl
@[simp] theorem State.markFresh_aux (a : Nat) (w : Word) (i : Nat) : (s.markFresh a w i).aux = s.aux := rfl
@[simp] theorem State.markFresh_tmp (a : Nat) (w : Word) (i : Nat) : (s.markFresh a w i).tmp = s.tmp := rfl
@[simp] theorem State.markFresh_agt (a : Nat) (w : Word) (i : Nat) : (s.markFresh a w i).agt = s.agt := rfl
@[simp] theorem State.markFresh_pb (a : Nat) (w : Word) (i : Nat) : (s.markFresh a w i).pb = s.pb := rfl
@[simp] theorem State.markFresh_mem (a : Nat) (w : Word) (i : Nat) : (s.markFresh a w i).mem = s.mem := rfl
@[simp] theorem State.markFresh_bst (a : Nat) (w : Word) (i : Nat) : (s.markFresh a w i).bst = s.bst := rfl
@[simp] theorem State.markFresh_flt (a : Nat) (w : Word) (i : Nat) : (s.markFresh a w i).flt = s.flt := rfl
@[simp] theorem State.markFresh_lines (a : Nat) (w : Word) (i : Nat) : (s.markFresh a w i).lines = s.lines := rfl
@[simp] theorem State.markFresh_past (a : Nat) (w : Word) (i : Nat) : (s.markFresh a w i).past = s.past := rfl
@[simp] theorem State.markFresh_free (a : Nat) (w : Word) (i : Nat) : (s.markFresh a w i).free = s.free := rfl
@[simp] theorem State.markFresh_reg (a : Nat) (w : Word) (i : Nat) (c j : Nat) : (s.markFresh a w i).reg c j = s.reg c j := rfl
@[simp] theorem State.markFresh_fld (a : Nat) (w : Word) (i : Nat) (g : Field) (j : Nat) : (s.markFresh a w i).fld g j = s.fld g j := rfl
@[simp] theorem State.markFresh_flag (a : Nat) (w : Word) (i : Nat) (g : Field) (j : Nat) : (s.markFresh a w i).flag g j = s.flag g j := rfl

/-! ### setFlag -/

@[simp] theorem State.setFlag_part (f : Field) (b : Bool) (i : Nat) : (s.setFlag f b i).part = s.part := by
  unfold State.setFlag; split <;> rfl
@[simp] theorem State.setFlag_fuses (f : Field) (b : Bool) (i : Nat) : (s.setFlag f b i).fuses = s.fuses := by
  unfold State.setFlag; split <;> rfl
@[simp] theorem State.setFlag_pending (f : Field) (b : Bool) (i : Nat) : (s.setFlag f b i).pending = s.pending := by
  unfold State.setFlag; split <;> rfl
@[simp] theorem State.setFlag_regs (f : Field) (b : Bool) (i : Nat) : (s.setFlag f b i).regs = (s.setFld f (bit b) i).regs := by
  unfold State.setFlag; split <;> rfl
@[simp] theorem State.setFlag_pwr (f : Field) (b : Bool) (i : Nat) : (s.setFlag f b i).pwr = s.pwr := by
  unfold State.setFlag; split <;> rfl
@[simp] theorem State.setFlag_clk (f : Field) (b : Bool) (i : Nat) : (s.setFlag f b i).clk = s.clk := by
  unfold State.setFlag; split <;> rfl
@[simp] theorem State.setFlag_port (f : Field) (b : Bool) (i : Nat) : (s.setFlag f b i).port = s.port := by
  unfold State.setFlag; split <;> rfl
@[simp] theorem State.setFlag_bnd (f : Field) (b : Bool) (i : Nat) : (s.setFlag f b i).bnd = s.bnd := by
  unfold State.setFlag; split <;> rfl
@[simp] theorem State.setFlag_exp (f : Field) (b : Bool) (i : Nat) : (s.setFlag f b i).exp = s.exp := by
  unfold State.setFlag; split <;> rfl
@[simp] theorem State.setFlag_cnv (f : Field) (b : Bool) (i : Nat) : (s.setFlag f b i).cnv = s.cnv := by
  unfold State.setFlag; split <;> rfl
@[simp] theorem State.setFlag_lanes (f : Field) (b : Bool) (i : Nat) : (s.setFlag f b i).lanes = s.lanes := by
  unfold State.setFlag; split <;> rfl
@[simp] theorem State.setFlag_spn (f : Field) (b : Bool) (i : Nat) : (s.setFlag f b i).spn = s.spn := by
  unfold State.setFlag; split <;> rfl
@[simp] theorem State.setFlag_pos (f : Field) (b : Bool) (i : Nat) : (s.setFlag f b i).pos = s.pos := by
  unfold State.setFlag; split <;> rfl
@[simp] theorem State.setFlag_aux (f : Field) (b : Bool) (i : Nat) : (s.setFlag f b i).aux = s.aux := by
  unfold State.setFlag; split <;> rfl
@[simp] theorem State.setFlag_tmp (f : Field) (b : Bool) (i : Nat) : (s.setFlag f b i).tmp = s.tmp := by
  unfold State.setFlag; split <;> rfl
@[simp] theorem State.setFlag_agt (f : Field) (b : Bool) (i : Nat) : (s.setFlag f b i).agt = s.agt := by
  unfold State.setFlag; split <;> rfl
@[simp] theorem State.setFlag_pb (f : Field) (b : Bool) (i : Nat) : (s.setFlag f b i).pb = s.pb := by
  unfold State.setFlag; split <;> rfl
@[simp] theorem State.setFlag_mem (f : Field) (b : Bool) (i : Nat) : (s.setFlag f b i).mem = s.mem := by
  unfold State.setFlag; split <;> rfl
@[simp] theorem State.setFlag_bst (f : Field) (b : Bool) (i : Nat) : (s.setFlag f b i).bst = s.bst := by
  unfold State.setFlag; split <;> rfl
@[simp] theorem State.setFlag_flt (f : Field) (b : Bool) (i : Nat) : (s.setFlag f b i).flt = s.flt := by
  unfold State.setFlag; split <;> rfl
@[simp] theorem State.setFlag_lines (f : Field) (b : Bool) (i : Nat) : (s.setFlag f b i).lines = s.lines := by
  unfold State.setFlag; split <;> rfl
@[simp] theorem State.setFlag_past (f : Field) (b : Bool) (i : Nat) : (s.setFlag f b i).past = s.past := by
  unfold State.setFlag; split <;> rfl
@[simp] theorem State.setFlag_free (f : Field) (b : Bool) (i : Nat) : (s.setFlag f b i).free = s.free := by
  unfold State.setFlag; split <;> rfl
@[simp] theorem State.setFlag_reg (f : Field) (b : Bool) (i : Nat) (c j : Nat) : (s.setFlag f b i).reg c j = (s.setFld f (bit b) i).reg c j := by
  unfold State.setFlag; split <;> rfl

/-! ### count -/

@[simp] theorem State.count_part (f : Field) (i : Nat) : (s.count f i).part = s.part := rfl
@[simp] theorem State.count_fuses (f : Field) (i : Nat) : (s.count f i).fuses = s.fuses := rfl
@[simp] theorem State.count_pending (f : Field) (i : Nat) : (s.count f i).pending = s.pending := rfl
@[simp] theorem State.count_pwr (f : Field) (i : Nat) : (s.count f i).pwr = s.pwr := rfl
@[simp] theorem State.count_clk (f : Field) (i : Nat) : (s.count f i).clk = s.clk := rfl
@[simp] theorem State.count_port (f : Field) (i : Nat) : (s.count f i).port = s.port := rfl
@[simp] theorem State.count_bnd (f : Field) (i : Nat) : (s.count f i).bnd = s.bnd := rfl
@[simp] theorem State.count_exp (f : Field) (i : Nat) : (s.count f i).exp = s.exp := rfl
@[simp] theorem State.count_cnv (f : Field) (i : Nat) : (s.count f i).cnv = s.cnv := rfl
@[simp] theorem State.count_lanes (f : Field) (i : Nat) : (s.count f i).lanes = s.lanes := rfl
@[simp] theorem State.count_spn (f : Field) (i : Nat) : (s.count f i).spn = s.spn := rfl
@[simp] theorem State.count_pos (f : Field) (i : Nat) : (s.count f i).pos = s.pos := rfl
@[simp] theorem State.count_aux (f : Field) (i : Nat) : (s.count f i).aux = s.aux := rfl
@[simp] theorem State.count_tmp (f : Field) (i : Nat) : (s.count f i).tmp = s.tmp := rfl
@[simp] theorem State.count_agt (f : Field) (i : Nat) : (s.count f i).agt = s.agt := rfl
@[simp] theorem State.count_pb (f : Field) (i : Nat) : (s.count f i).pb = s.pb := rfl
@[simp] theorem State.count_mem (f : Field) (i : Nat) : (s.count f i).mem = s.mem := rfl
@[simp] theorem State.count_bst (f : Field) (i : Nat) : (s.count f i).bst = s.bst := rfl
@[simp] theorem State.count_flt (f : Field) (i : Nat) : (s.count f i).flt = s.flt := rfl
@[simp] theorem State.count_lines (f : Field) (i : Nat) : (s.count f i).lines = s.lines := rfl
@[simp] theorem State.count_past (f : Field) (i : Nat) : (s.count f i).past = s.past := rfl
@[simp] theorem State.count_fresh (f : Field) (i : Nat) : (s.count f i).fresh = s.fresh := rfl
@[simp] theorem State.count_free (f : Field) (i : Nat) : (s.count f i).free = s.free := rfl

/-! ### raiseLine -/

@[simp] theorem State.raiseLine_part (n : Nat) : (s.raiseLine n).part = s.part := rfl
@[simp] theorem State.raiseLine_fuses (n : Nat) : (s.raiseLine n).fuses = s.fuses := rfl
@[simp] theorem State.raiseLine_pending (n : Nat) : (s.raiseLine n).pending = s.pending := rfl
@[simp] theorem State.raiseLine_regs (n : Nat) : (s.raiseLine n).regs = s.regs := rfl
@[simp] theorem State.raiseLine_pwr (n : Nat) : (s.raiseLine n).pwr = s.pwr := rfl
@[simp] theorem State.raiseLine_clk (n : Nat) : (s.raiseLine n).clk = s.clk := rfl
@[simp] theorem State.raiseLine_port (n : Nat) : (s.raiseLine n).port = s.port := rfl
@[simp] theorem State.raiseLine_bnd (n : Nat) : (s.raiseLine n).bnd = s.bnd := rfl
@[simp] theorem State.raiseLine_exp (n : Nat) : (s.raiseLine n).exp = s.exp := rfl
@[simp] theorem State.raiseLine_cnv (n : Nat) : (s.raiseLine n).cnv = s.cnv := rfl
@[simp] theorem State.raiseLine_lanes (n : Nat) : (s.raiseLine n).lanes = s.lanes := rfl
@[simp] theorem State.raiseLine_spn (n : Nat) : (s.raiseLine n).spn = s.spn := rfl
@[simp] theorem State.raiseLine_pos (n : Nat) : (s.raiseLine n).pos = s.pos := rfl
@[simp] theorem State.raiseLine_aux (n : Nat) : (s.raiseLine n).aux = s.aux := rfl
@[simp] theorem State.raiseLine_tmp (n : Nat) : (s.raiseLine n).tmp = s.tmp := rfl
@[simp] theorem State.raiseLine_agt (n : Nat) : (s.raiseLine n).agt = s.agt := rfl
@[simp] theorem State.raiseLine_pb (n : Nat) : (s.raiseLine n).pb = s.pb := rfl
@[simp] theorem State.raiseLine_mem (n : Nat) : (s.raiseLine n).mem = s.mem := rfl
@[simp] theorem State.raiseLine_bst (n : Nat) : (s.raiseLine n).bst = s.bst := rfl
@[simp] theorem State.raiseLine_flt (n : Nat) : (s.raiseLine n).flt = s.flt := rfl
@[simp] theorem State.raiseLine_lines (n : Nat) : (s.raiseLine n).lines = s.lines ||| (1#64 <<< n) := rfl
@[simp] theorem State.raiseLine_past (n : Nat) : (s.raiseLine n).past = s.past := rfl
@[simp] theorem State.raiseLine_fresh (n : Nat) : (s.raiseLine n).fresh = s.fresh := rfl
@[simp] theorem State.raiseLine_free (n : Nat) : (s.raiseLine n).free = s.free := rfl
@[simp] theorem State.raiseLine_reg (n : Nat) (c j : Nat) : (s.raiseLine n).reg c j = s.reg c j := rfl
@[simp] theorem State.raiseLine_fld (n : Nat) (g : Field) (j : Nat) : (s.raiseLine n).fld g j = s.fld g j := rfl
@[simp] theorem State.raiseLine_flag (n : Nat) (g : Field) (j : Nat) : (s.raiseLine n).flag g j = s.flag g j := rfl

/-! ### spent -/

@[simp] theorem State.spent_part : s.spent.part = s.part := rfl
@[simp] theorem State.spent_fuses : s.spent.fuses = s.fuses := rfl
@[simp] theorem State.spent_pending : s.spent.pending = s.pending := rfl
@[simp] theorem State.spent_regs : s.spent.regs = s.regs := rfl
@[simp] theorem State.spent_pwr : s.spent.pwr = s.pwr := rfl
@[simp] theorem State.spent_clk : s.spent.clk = s.clk := rfl
@[simp] theorem State.spent_port : s.spent.port = s.port := rfl
@[simp] theorem State.spent_bnd : s.spent.bnd = s.bnd := rfl
@[simp] theorem State.spent_exp : s.spent.exp = s.exp := rfl
@[simp] theorem State.spent_cnv : s.spent.cnv = s.cnv := rfl
@[simp] theorem State.spent_lanes : s.spent.lanes = s.lanes := rfl
@[simp] theorem State.spent_spn : s.spent.spn = s.spn := rfl
@[simp] theorem State.spent_pos : s.spent.pos = s.pos := rfl
@[simp] theorem State.spent_aux : s.spent.aux = s.aux := rfl
@[simp] theorem State.spent_tmp : s.spent.tmp = s.tmp := rfl
@[simp] theorem State.spent_agt : s.spent.agt = s.agt := rfl
@[simp] theorem State.spent_pb : s.spent.pb = s.pb := rfl
@[simp] theorem State.spent_mem : s.spent.mem = s.mem := rfl
@[simp] theorem State.spent_bst : s.spent.bst = s.bst := rfl
@[simp] theorem State.spent_flt : s.spent.flt = s.flt := rfl
@[simp] theorem State.spent_lines : s.spent.lines = s.lines := rfl
@[simp] theorem State.spent_past : s.spent.past = s.past := rfl
@[simp] theorem State.spent_fresh : s.spent.fresh = s.fresh := rfl
@[simp] theorem State.spent_free : s.spent.free = s.free + 1 := rfl
@[simp] theorem State.spent_reg (c j : Nat) : s.spent.reg c j = s.reg c j := rfl
@[simp] theorem State.spent_fld (g : Field) (j : Nat) : s.spent.fld g j = s.fld g j := rfl
@[simp] theorem State.spent_flag (g : Field) (j : Nat) : s.spent.flag g j = s.flag g j := rfl

/-! ### setPort -/

@[simp] theorem State.setPort_part (x : Port) : (s.setPort x).part = s.part := rfl
@[simp] theorem State.setPort_fuses (x : Port) : (s.setPort x).fuses = s.fuses := rfl
@[simp] theorem State.setPort_pending (x : Port) : (s.setPort x).pending = s.pending := rfl
@[simp] theorem State.setPort_regs (x : Port) : (s.setPort x).regs = s.regs := rfl
@[simp] theorem State.setPort_pwr (x : Port) : (s.setPort x).pwr = s.pwr := rfl
@[simp] theorem State.setPort_clk (x : Port) : (s.setPort x).clk = s.clk := rfl
@[simp] theorem State.setPort_port (x : Port) : (s.setPort x).port = x := rfl
@[simp] theorem State.setPort_bnd (x : Port) : (s.setPort x).bnd = s.bnd := rfl
@[simp] theorem State.setPort_exp (x : Port) : (s.setPort x).exp = s.exp := rfl
@[simp] theorem State.setPort_cnv (x : Port) : (s.setPort x).cnv = s.cnv := rfl
@[simp] theorem State.setPort_lanes (x : Port) : (s.setPort x).lanes = s.lanes := rfl
@[simp] theorem State.setPort_spn (x : Port) : (s.setPort x).spn = s.spn := rfl
@[simp] theorem State.setPort_pos (x : Port) : (s.setPort x).pos = s.pos := rfl
@[simp] theorem State.setPort_aux (x : Port) : (s.setPort x).aux = s.aux := rfl
@[simp] theorem State.setPort_tmp (x : Port) : (s.setPort x).tmp = s.tmp := rfl
@[simp] theorem State.setPort_agt (x : Port) : (s.setPort x).agt = s.agt := rfl
@[simp] theorem State.setPort_pb (x : Port) : (s.setPort x).pb = s.pb := rfl
@[simp] theorem State.setPort_mem (x : Port) : (s.setPort x).mem = s.mem := rfl
@[simp] theorem State.setPort_bst (x : Port) : (s.setPort x).bst = s.bst := rfl
@[simp] theorem State.setPort_flt (x : Port) : (s.setPort x).flt = s.flt := rfl
@[simp] theorem State.setPort_lines (x : Port) : (s.setPort x).lines = s.lines := rfl
@[simp] theorem State.setPort_past (x : Port) : (s.setPort x).past = s.past := rfl
@[simp] theorem State.setPort_fresh (x : Port) : (s.setPort x).fresh = s.fresh := rfl
@[simp] theorem State.setPort_free (x : Port) : (s.setPort x).free = s.free := rfl
@[simp] theorem State.setPort_reg (x : Port) (c j : Nat) : (s.setPort x).reg c j = s.reg c j := rfl
@[simp] theorem State.setPort_fld (x : Port) (g : Field) (j : Nat) : (s.setPort x).fld g j = s.fld g j := rfl
@[simp] theorem State.setPort_flag (x : Port) (g : Field) (j : Nat) : (s.setPort x).flag g j = s.flag g j := rfl

/-! ### setPwr -/

@[simp] theorem State.setPwr_part (x : Power) : (s.setPwr x).part = s.part := rfl
@[simp] theorem State.setPwr_fuses (x : Power) : (s.setPwr x).fuses = s.fuses := rfl
@[simp] theorem State.setPwr_pending (x : Power) : (s.setPwr x).pending = s.pending := rfl
@[simp] theorem State.setPwr_regs (x : Power) : (s.setPwr x).regs = s.regs := rfl
@[simp] theorem State.setPwr_pwr (x : Power) : (s.setPwr x).pwr = x := rfl
@[simp] theorem State.setPwr_clk (x : Power) : (s.setPwr x).clk = s.clk := rfl
@[simp] theorem State.setPwr_port (x : Power) : (s.setPwr x).port = s.port := rfl
@[simp] theorem State.setPwr_bnd (x : Power) : (s.setPwr x).bnd = s.bnd := rfl
@[simp] theorem State.setPwr_exp (x : Power) : (s.setPwr x).exp = s.exp := rfl
@[simp] theorem State.setPwr_cnv (x : Power) : (s.setPwr x).cnv = s.cnv := rfl
@[simp] theorem State.setPwr_lanes (x : Power) : (s.setPwr x).lanes = s.lanes := rfl
@[simp] theorem State.setPwr_spn (x : Power) : (s.setPwr x).spn = s.spn := rfl
@[simp] theorem State.setPwr_pos (x : Power) : (s.setPwr x).pos = s.pos := rfl
@[simp] theorem State.setPwr_aux (x : Power) : (s.setPwr x).aux = s.aux := rfl
@[simp] theorem State.setPwr_tmp (x : Power) : (s.setPwr x).tmp = s.tmp := rfl
@[simp] theorem State.setPwr_agt (x : Power) : (s.setPwr x).agt = s.agt := rfl
@[simp] theorem State.setPwr_pb (x : Power) : (s.setPwr x).pb = s.pb := rfl
@[simp] theorem State.setPwr_mem (x : Power) : (s.setPwr x).mem = s.mem := rfl
@[simp] theorem State.setPwr_bst (x : Power) : (s.setPwr x).bst = s.bst := rfl
@[simp] theorem State.setPwr_flt (x : Power) : (s.setPwr x).flt = s.flt := rfl
@[simp] theorem State.setPwr_lines (x : Power) : (s.setPwr x).lines = s.lines := rfl
@[simp] theorem State.setPwr_past (x : Power) : (s.setPwr x).past = s.past := rfl
@[simp] theorem State.setPwr_fresh (x : Power) : (s.setPwr x).fresh = s.fresh := rfl
@[simp] theorem State.setPwr_free (x : Power) : (s.setPwr x).free = s.free := rfl
@[simp] theorem State.setPwr_reg (x : Power) (c j : Nat) : (s.setPwr x).reg c j = s.reg c j := rfl
@[simp] theorem State.setPwr_fld (x : Power) (g : Field) (j : Nat) : (s.setPwr x).fld g j = s.fld g j := rfl
@[simp] theorem State.setPwr_flag (x : Power) (g : Field) (j : Nat) : (s.setPwr x).flag g j = s.flag g j := rfl

/-! ### setClk -/

@[simp] theorem State.setClk_part (x : Clock) : (s.setClk x).part = s.part := rfl
@[simp] theorem State.setClk_fuses (x : Clock) : (s.setClk x).fuses = s.fuses := rfl
@[simp] theorem State.setClk_pending (x : Clock) : (s.setClk x).pending = s.pending := rfl
@[simp] theorem State.setClk_regs (x : Clock) : (s.setClk x).regs = s.regs := rfl
@[simp] theorem State.setClk_pwr (x : Clock) : (s.setClk x).pwr = s.pwr := rfl
@[simp] theorem State.setClk_clk (x : Clock) : (s.setClk x).clk = x := rfl
@[simp] theorem State.setClk_port (x : Clock) : (s.setClk x).port = s.port := rfl
@[simp] theorem State.setClk_bnd (x : Clock) : (s.setClk x).bnd = s.bnd := rfl
@[simp] theorem State.setClk_exp (x : Clock) : (s.setClk x).exp = s.exp := rfl
@[simp] theorem State.setClk_cnv (x : Clock) : (s.setClk x).cnv = s.cnv := rfl
@[simp] theorem State.setClk_lanes (x : Clock) : (s.setClk x).lanes = s.lanes := rfl
@[simp] theorem State.setClk_spn (x : Clock) : (s.setClk x).spn = s.spn := rfl
@[simp] theorem State.setClk_pos (x : Clock) : (s.setClk x).pos = s.pos := rfl
@[simp] theorem State.setClk_aux (x : Clock) : (s.setClk x).aux = s.aux := rfl
@[simp] theorem State.setClk_tmp (x : Clock) : (s.setClk x).tmp = s.tmp := rfl
@[simp] theorem State.setClk_agt (x : Clock) : (s.setClk x).agt = s.agt := rfl
@[simp] theorem State.setClk_pb (x : Clock) : (s.setClk x).pb = s.pb := rfl
@[simp] theorem State.setClk_mem (x : Clock) : (s.setClk x).mem = s.mem := rfl
@[simp] theorem State.setClk_bst (x : Clock) : (s.setClk x).bst = s.bst := rfl
@[simp] theorem State.setClk_flt (x : Clock) : (s.setClk x).flt = s.flt := rfl
@[simp] theorem State.setClk_lines (x : Clock) : (s.setClk x).lines = s.lines := rfl
@[simp] theorem State.setClk_past (x : Clock) : (s.setClk x).past = s.past := rfl
@[simp] theorem State.setClk_fresh (x : Clock) : (s.setClk x).fresh = s.fresh := rfl
@[simp] theorem State.setClk_free (x : Clock) : (s.setClk x).free = s.free := rfl
@[simp] theorem State.setClk_reg (x : Clock) (c j : Nat) : (s.setClk x).reg c j = s.reg c j := rfl
@[simp] theorem State.setClk_fld (x : Clock) (g : Field) (j : Nat) : (s.setClk x).fld g j = s.fld g j := rfl
@[simp] theorem State.setClk_flag (x : Clock) (g : Field) (j : Nat) : (s.setClk x).flag g j = s.flag g j := rfl

/-! ### setBnd -/

@[simp] theorem State.setBnd_part (x : Bindery) : (s.setBnd x).part = s.part := rfl
@[simp] theorem State.setBnd_fuses (x : Bindery) : (s.setBnd x).fuses = s.fuses := rfl
@[simp] theorem State.setBnd_pending (x : Bindery) : (s.setBnd x).pending = s.pending := rfl
@[simp] theorem State.setBnd_regs (x : Bindery) : (s.setBnd x).regs = s.regs := rfl
@[simp] theorem State.setBnd_pwr (x : Bindery) : (s.setBnd x).pwr = s.pwr := rfl
@[simp] theorem State.setBnd_clk (x : Bindery) : (s.setBnd x).clk = s.clk := rfl
@[simp] theorem State.setBnd_port (x : Bindery) : (s.setBnd x).port = s.port := rfl
@[simp] theorem State.setBnd_bnd (x : Bindery) : (s.setBnd x).bnd = x := rfl
@[simp] theorem State.setBnd_exp (x : Bindery) : (s.setBnd x).exp = s.exp := rfl
@[simp] theorem State.setBnd_cnv (x : Bindery) : (s.setBnd x).cnv = s.cnv := rfl
@[simp] theorem State.setBnd_lanes (x : Bindery) : (s.setBnd x).lanes = s.lanes := rfl
@[simp] theorem State.setBnd_spn (x : Bindery) : (s.setBnd x).spn = s.spn := rfl
@[simp] theorem State.setBnd_pos (x : Bindery) : (s.setBnd x).pos = s.pos := rfl
@[simp] theorem State.setBnd_aux (x : Bindery) : (s.setBnd x).aux = s.aux := rfl
@[simp] theorem State.setBnd_tmp (x : Bindery) : (s.setBnd x).tmp = s.tmp := rfl
@[simp] theorem State.setBnd_agt (x : Bindery) : (s.setBnd x).agt = s.agt := rfl
@[simp] theorem State.setBnd_pb (x : Bindery) : (s.setBnd x).pb = s.pb := rfl
@[simp] theorem State.setBnd_mem (x : Bindery) : (s.setBnd x).mem = s.mem := rfl
@[simp] theorem State.setBnd_bst (x : Bindery) : (s.setBnd x).bst = s.bst := rfl
@[simp] theorem State.setBnd_flt (x : Bindery) : (s.setBnd x).flt = s.flt := rfl
@[simp] theorem State.setBnd_lines (x : Bindery) : (s.setBnd x).lines = s.lines := rfl
@[simp] theorem State.setBnd_past (x : Bindery) : (s.setBnd x).past = s.past := rfl
@[simp] theorem State.setBnd_fresh (x : Bindery) : (s.setBnd x).fresh = s.fresh := rfl
@[simp] theorem State.setBnd_free (x : Bindery) : (s.setBnd x).free = s.free := rfl
@[simp] theorem State.setBnd_reg (x : Bindery) (c j : Nat) : (s.setBnd x).reg c j = s.reg c j := rfl
@[simp] theorem State.setBnd_fld (x : Bindery) (g : Field) (j : Nat) : (s.setBnd x).fld g j = s.fld g j := rfl
@[simp] theorem State.setBnd_flag (x : Bindery) (g : Field) (j : Nat) : (s.setBnd x).flag g j = s.flag g j := rfl

/-! ### setExp -/

@[simp] theorem State.setExp_part (x : Exposure) : (s.setExp x).part = s.part := rfl
@[simp] theorem State.setExp_fuses (x : Exposure) : (s.setExp x).fuses = s.fuses := rfl
@[simp] theorem State.setExp_pending (x : Exposure) : (s.setExp x).pending = s.pending := rfl
@[simp] theorem State.setExp_regs (x : Exposure) : (s.setExp x).regs = s.regs := rfl
@[simp] theorem State.setExp_pwr (x : Exposure) : (s.setExp x).pwr = s.pwr := rfl
@[simp] theorem State.setExp_clk (x : Exposure) : (s.setExp x).clk = s.clk := rfl
@[simp] theorem State.setExp_port (x : Exposure) : (s.setExp x).port = s.port := rfl
@[simp] theorem State.setExp_bnd (x : Exposure) : (s.setExp x).bnd = s.bnd := rfl
@[simp] theorem State.setExp_exp (x : Exposure) : (s.setExp x).exp = x := rfl
@[simp] theorem State.setExp_cnv (x : Exposure) : (s.setExp x).cnv = s.cnv := rfl
@[simp] theorem State.setExp_lanes (x : Exposure) : (s.setExp x).lanes = s.lanes := rfl
@[simp] theorem State.setExp_spn (x : Exposure) : (s.setExp x).spn = s.spn := rfl
@[simp] theorem State.setExp_pos (x : Exposure) : (s.setExp x).pos = s.pos := rfl
@[simp] theorem State.setExp_aux (x : Exposure) : (s.setExp x).aux = s.aux := rfl
@[simp] theorem State.setExp_tmp (x : Exposure) : (s.setExp x).tmp = s.tmp := rfl
@[simp] theorem State.setExp_agt (x : Exposure) : (s.setExp x).agt = s.agt := rfl
@[simp] theorem State.setExp_pb (x : Exposure) : (s.setExp x).pb = s.pb := rfl
@[simp] theorem State.setExp_mem (x : Exposure) : (s.setExp x).mem = s.mem := rfl
@[simp] theorem State.setExp_bst (x : Exposure) : (s.setExp x).bst = s.bst := rfl
@[simp] theorem State.setExp_flt (x : Exposure) : (s.setExp x).flt = s.flt := rfl
@[simp] theorem State.setExp_lines (x : Exposure) : (s.setExp x).lines = s.lines := rfl
@[simp] theorem State.setExp_past (x : Exposure) : (s.setExp x).past = s.past := rfl
@[simp] theorem State.setExp_fresh (x : Exposure) : (s.setExp x).fresh = s.fresh := rfl
@[simp] theorem State.setExp_free (x : Exposure) : (s.setExp x).free = s.free := rfl
@[simp] theorem State.setExp_reg (x : Exposure) (c j : Nat) : (s.setExp x).reg c j = s.reg c j := rfl
@[simp] theorem State.setExp_fld (x : Exposure) (g : Field) (j : Nat) : (s.setExp x).fld g j = s.fld g j := rfl
@[simp] theorem State.setExp_flag (x : Exposure) (g : Field) (j : Nat) : (s.setExp x).flag g j = s.flag g j := rfl

/-! ### setCnv -/

@[simp] theorem State.setCnv_part (x : Conversion) : (s.setCnv x).part = s.part := rfl
@[simp] theorem State.setCnv_fuses (x : Conversion) : (s.setCnv x).fuses = s.fuses := rfl
@[simp] theorem State.setCnv_pending (x : Conversion) : (s.setCnv x).pending = s.pending := rfl
@[simp] theorem State.setCnv_regs (x : Conversion) : (s.setCnv x).regs = s.regs := rfl
@[simp] theorem State.setCnv_pwr (x : Conversion) : (s.setCnv x).pwr = s.pwr := rfl
@[simp] theorem State.setCnv_clk (x : Conversion) : (s.setCnv x).clk = s.clk := rfl
@[simp] theorem State.setCnv_port (x : Conversion) : (s.setCnv x).port = s.port := rfl
@[simp] theorem State.setCnv_bnd (x : Conversion) : (s.setCnv x).bnd = s.bnd := rfl
@[simp] theorem State.setCnv_exp (x : Conversion) : (s.setCnv x).exp = s.exp := rfl
@[simp] theorem State.setCnv_cnv (x : Conversion) : (s.setCnv x).cnv = x := rfl
@[simp] theorem State.setCnv_lanes (x : Conversion) : (s.setCnv x).lanes = s.lanes := rfl
@[simp] theorem State.setCnv_spn (x : Conversion) : (s.setCnv x).spn = s.spn := rfl
@[simp] theorem State.setCnv_pos (x : Conversion) : (s.setCnv x).pos = s.pos := rfl
@[simp] theorem State.setCnv_aux (x : Conversion) : (s.setCnv x).aux = s.aux := rfl
@[simp] theorem State.setCnv_tmp (x : Conversion) : (s.setCnv x).tmp = s.tmp := rfl
@[simp] theorem State.setCnv_agt (x : Conversion) : (s.setCnv x).agt = s.agt := rfl
@[simp] theorem State.setCnv_pb (x : Conversion) : (s.setCnv x).pb = s.pb := rfl
@[simp] theorem State.setCnv_mem (x : Conversion) : (s.setCnv x).mem = s.mem := rfl
@[simp] theorem State.setCnv_bst (x : Conversion) : (s.setCnv x).bst = s.bst := rfl
@[simp] theorem State.setCnv_flt (x : Conversion) : (s.setCnv x).flt = s.flt := rfl
@[simp] theorem State.setCnv_lines (x : Conversion) : (s.setCnv x).lines = s.lines := rfl
@[simp] theorem State.setCnv_past (x : Conversion) : (s.setCnv x).past = s.past := rfl
@[simp] theorem State.setCnv_fresh (x : Conversion) : (s.setCnv x).fresh = s.fresh := rfl
@[simp] theorem State.setCnv_free (x : Conversion) : (s.setCnv x).free = s.free := rfl
@[simp] theorem State.setCnv_reg (x : Conversion) (c j : Nat) : (s.setCnv x).reg c j = s.reg c j := rfl
@[simp] theorem State.setCnv_fld (x : Conversion) (g : Field) (j : Nat) : (s.setCnv x).fld g j = s.fld g j := rfl
@[simp] theorem State.setCnv_flag (x : Conversion) (g : Field) (j : Nat) : (s.setCnv x).flag g j = s.flag g j := rfl

/-! ### setLane -/

@[simp] theorem State.setLane_part (q : Nat) (x : Lane) : (s.setLane q x).part = s.part := rfl
@[simp] theorem State.setLane_fuses (q : Nat) (x : Lane) : (s.setLane q x).fuses = s.fuses := rfl
@[simp] theorem State.setLane_pending (q : Nat) (x : Lane) : (s.setLane q x).pending = s.pending := rfl
@[simp] theorem State.setLane_regs (q : Nat) (x : Lane) : (s.setLane q x).regs = s.regs := rfl
@[simp] theorem State.setLane_pwr (q : Nat) (x : Lane) : (s.setLane q x).pwr = s.pwr := rfl
@[simp] theorem State.setLane_clk (q : Nat) (x : Lane) : (s.setLane q x).clk = s.clk := rfl
@[simp] theorem State.setLane_port (q : Nat) (x : Lane) : (s.setLane q x).port = s.port := rfl
@[simp] theorem State.setLane_bnd (q : Nat) (x : Lane) : (s.setLane q x).bnd = s.bnd := rfl
@[simp] theorem State.setLane_exp (q : Nat) (x : Lane) : (s.setLane q x).exp = s.exp := rfl
@[simp] theorem State.setLane_cnv (q : Nat) (x : Lane) : (s.setLane q x).cnv = s.cnv := rfl
@[simp] theorem State.setLane_spn (q : Nat) (x : Lane) : (s.setLane q x).spn = s.spn := rfl
@[simp] theorem State.setLane_pos (q : Nat) (x : Lane) : (s.setLane q x).pos = s.pos := rfl
@[simp] theorem State.setLane_aux (q : Nat) (x : Lane) : (s.setLane q x).aux = s.aux := rfl
@[simp] theorem State.setLane_tmp (q : Nat) (x : Lane) : (s.setLane q x).tmp = s.tmp := rfl
@[simp] theorem State.setLane_agt (q : Nat) (x : Lane) : (s.setLane q x).agt = s.agt := rfl
@[simp] theorem State.setLane_pb (q : Nat) (x : Lane) : (s.setLane q x).pb = s.pb := rfl
@[simp] theorem State.setLane_mem (q : Nat) (x : Lane) : (s.setLane q x).mem = s.mem := rfl
@[simp] theorem State.setLane_bst (q : Nat) (x : Lane) : (s.setLane q x).bst = s.bst := rfl
@[simp] theorem State.setLane_flt (q : Nat) (x : Lane) : (s.setLane q x).flt = s.flt := rfl
@[simp] theorem State.setLane_lines (q : Nat) (x : Lane) : (s.setLane q x).lines = s.lines := rfl
@[simp] theorem State.setLane_past (q : Nat) (x : Lane) : (s.setLane q x).past = s.past := rfl
@[simp] theorem State.setLane_fresh (q : Nat) (x : Lane) : (s.setLane q x).fresh = s.fresh := rfl
@[simp] theorem State.setLane_free (q : Nat) (x : Lane) : (s.setLane q x).free = s.free := rfl
@[simp] theorem State.setLane_reg (q : Nat) (x : Lane) (c j : Nat) : (s.setLane q x).reg c j = s.reg c j := rfl
@[simp] theorem State.setLane_fld (q : Nat) (x : Lane) (g : Field) (j : Nat) : (s.setLane q x).fld g j = s.fld g j := rfl
@[simp] theorem State.setLane_flag (q : Nat) (x : Lane) (g : Field) (j : Nat) : (s.setLane q x).flag g j = s.flag g j := rfl

/-! ### setCounter -/

@[simp] theorem State.setCounter_part (n : Nat) (x : Counter) : (s.setCounter n x).part = s.part := rfl
@[simp] theorem State.setCounter_fuses (n : Nat) (x : Counter) : (s.setCounter n x).fuses = s.fuses := rfl
@[simp] theorem State.setCounter_pending (n : Nat) (x : Counter) : (s.setCounter n x).pending = s.pending := rfl
@[simp] theorem State.setCounter_regs (n : Nat) (x : Counter) : (s.setCounter n x).regs = s.regs := rfl
@[simp] theorem State.setCounter_pwr (n : Nat) (x : Counter) : (s.setCounter n x).pwr = s.pwr := rfl
@[simp] theorem State.setCounter_clk (n : Nat) (x : Counter) : (s.setCounter n x).clk = s.clk := rfl
@[simp] theorem State.setCounter_port (n : Nat) (x : Counter) : (s.setCounter n x).port = s.port := rfl
@[simp] theorem State.setCounter_bnd (n : Nat) (x : Counter) : (s.setCounter n x).bnd = s.bnd := rfl
@[simp] theorem State.setCounter_exp (n : Nat) (x : Counter) : (s.setCounter n x).exp = s.exp := rfl
@[simp] theorem State.setCounter_cnv (n : Nat) (x : Counter) : (s.setCounter n x).cnv = s.cnv := rfl
@[simp] theorem State.setCounter_lanes (n : Nat) (x : Counter) : (s.setCounter n x).lanes = s.lanes := rfl
@[simp] theorem State.setCounter_pos (n : Nat) (x : Counter) : (s.setCounter n x).pos = s.pos := rfl
@[simp] theorem State.setCounter_aux (n : Nat) (x : Counter) : (s.setCounter n x).aux = s.aux := rfl
@[simp] theorem State.setCounter_tmp (n : Nat) (x : Counter) : (s.setCounter n x).tmp = s.tmp := rfl
@[simp] theorem State.setCounter_agt (n : Nat) (x : Counter) : (s.setCounter n x).agt = s.agt := rfl
@[simp] theorem State.setCounter_pb (n : Nat) (x : Counter) : (s.setCounter n x).pb = s.pb := rfl
@[simp] theorem State.setCounter_mem (n : Nat) (x : Counter) : (s.setCounter n x).mem = s.mem := rfl
@[simp] theorem State.setCounter_bst (n : Nat) (x : Counter) : (s.setCounter n x).bst = s.bst := rfl
@[simp] theorem State.setCounter_flt (n : Nat) (x : Counter) : (s.setCounter n x).flt = s.flt := rfl
@[simp] theorem State.setCounter_lines (n : Nat) (x : Counter) : (s.setCounter n x).lines = s.lines := rfl
@[simp] theorem State.setCounter_past (n : Nat) (x : Counter) : (s.setCounter n x).past = s.past := rfl
@[simp] theorem State.setCounter_fresh (n : Nat) (x : Counter) : (s.setCounter n x).fresh = s.fresh := rfl
@[simp] theorem State.setCounter_free (n : Nat) (x : Counter) : (s.setCounter n x).free = s.free := rfl
@[simp] theorem State.setCounter_reg (n : Nat) (x : Counter) (c j : Nat) : (s.setCounter n x).reg c j = s.reg c j := rfl
@[simp] theorem State.setCounter_fld (n : Nat) (x : Counter) (g : Field) (j : Nat) : (s.setCounter n x).fld g j = s.fld g j := rfl
@[simp] theorem State.setCounter_flag (n : Nat) (x : Counter) (g : Field) (j : Nat) : (s.setCounter n x).flag g j = s.flag g j := rfl

/-! ### setCompare -/

@[simp] theorem State.setCompare_part (n : Nat) (x : Compare) : (s.setCompare n x).part = s.part := rfl
@[simp] theorem State.setCompare_fuses (n : Nat) (x : Compare) : (s.setCompare n x).fuses = s.fuses := rfl
@[simp] theorem State.setCompare_pending (n : Nat) (x : Compare) : (s.setCompare n x).pending = s.pending := rfl
@[simp] theorem State.setCompare_regs (n : Nat) (x : Compare) : (s.setCompare n x).regs = s.regs := rfl
@[simp] theorem State.setCompare_pwr (n : Nat) (x : Compare) : (s.setCompare n x).pwr = s.pwr := rfl
@[simp] theorem State.setCompare_clk (n : Nat) (x : Compare) : (s.setCompare n x).clk = s.clk := rfl
@[simp] theorem State.setCompare_port (n : Nat) (x : Compare) : (s.setCompare n x).port = s.port := rfl
@[simp] theorem State.setCompare_bnd (n : Nat) (x : Compare) : (s.setCompare n x).bnd = s.bnd := rfl
@[simp] theorem State.setCompare_exp (n : Nat) (x : Compare) : (s.setCompare n x).exp = s.exp := rfl
@[simp] theorem State.setCompare_cnv (n : Nat) (x : Compare) : (s.setCompare n x).cnv = s.cnv := rfl
@[simp] theorem State.setCompare_lanes (n : Nat) (x : Compare) : (s.setCompare n x).lanes = s.lanes := rfl
@[simp] theorem State.setCompare_pos (n : Nat) (x : Compare) : (s.setCompare n x).pos = s.pos := rfl
@[simp] theorem State.setCompare_aux (n : Nat) (x : Compare) : (s.setCompare n x).aux = s.aux := rfl
@[simp] theorem State.setCompare_tmp (n : Nat) (x : Compare) : (s.setCompare n x).tmp = s.tmp := rfl
@[simp] theorem State.setCompare_agt (n : Nat) (x : Compare) : (s.setCompare n x).agt = s.agt := rfl
@[simp] theorem State.setCompare_pb (n : Nat) (x : Compare) : (s.setCompare n x).pb = s.pb := rfl
@[simp] theorem State.setCompare_mem (n : Nat) (x : Compare) : (s.setCompare n x).mem = s.mem := rfl
@[simp] theorem State.setCompare_bst (n : Nat) (x : Compare) : (s.setCompare n x).bst = s.bst := rfl
@[simp] theorem State.setCompare_flt (n : Nat) (x : Compare) : (s.setCompare n x).flt = s.flt := rfl
@[simp] theorem State.setCompare_lines (n : Nat) (x : Compare) : (s.setCompare n x).lines = s.lines := rfl
@[simp] theorem State.setCompare_past (n : Nat) (x : Compare) : (s.setCompare n x).past = s.past := rfl
@[simp] theorem State.setCompare_fresh (n : Nat) (x : Compare) : (s.setCompare n x).fresh = s.fresh := rfl
@[simp] theorem State.setCompare_free (n : Nat) (x : Compare) : (s.setCompare n x).free = s.free := rfl
@[simp] theorem State.setCompare_reg (n : Nat) (x : Compare) (c j : Nat) : (s.setCompare n x).reg c j = s.reg c j := rfl
@[simp] theorem State.setCompare_fld (n : Nat) (x : Compare) (g : Field) (j : Nat) : (s.setCompare n x).fld g j = s.fld g j := rfl
@[simp] theorem State.setCompare_flag (n : Nat) (x : Compare) (g : Field) (j : Nat) : (s.setCompare n x).flag g j = s.flag g j := rfl

/-! ### setCapture -/

@[simp] theorem State.setCapture_part (n : Nat) (x : Capture) : (s.setCapture n x).part = s.part := rfl
@[simp] theorem State.setCapture_fuses (n : Nat) (x : Capture) : (s.setCapture n x).fuses = s.fuses := rfl
@[simp] theorem State.setCapture_pending (n : Nat) (x : Capture) : (s.setCapture n x).pending = s.pending := rfl
@[simp] theorem State.setCapture_regs (n : Nat) (x : Capture) : (s.setCapture n x).regs = s.regs := rfl
@[simp] theorem State.setCapture_pwr (n : Nat) (x : Capture) : (s.setCapture n x).pwr = s.pwr := rfl
@[simp] theorem State.setCapture_clk (n : Nat) (x : Capture) : (s.setCapture n x).clk = s.clk := rfl
@[simp] theorem State.setCapture_port (n : Nat) (x : Capture) : (s.setCapture n x).port = s.port := rfl
@[simp] theorem State.setCapture_bnd (n : Nat) (x : Capture) : (s.setCapture n x).bnd = s.bnd := rfl
@[simp] theorem State.setCapture_exp (n : Nat) (x : Capture) : (s.setCapture n x).exp = s.exp := rfl
@[simp] theorem State.setCapture_cnv (n : Nat) (x : Capture) : (s.setCapture n x).cnv = s.cnv := rfl
@[simp] theorem State.setCapture_lanes (n : Nat) (x : Capture) : (s.setCapture n x).lanes = s.lanes := rfl
@[simp] theorem State.setCapture_pos (n : Nat) (x : Capture) : (s.setCapture n x).pos = s.pos := rfl
@[simp] theorem State.setCapture_aux (n : Nat) (x : Capture) : (s.setCapture n x).aux = s.aux := rfl
@[simp] theorem State.setCapture_tmp (n : Nat) (x : Capture) : (s.setCapture n x).tmp = s.tmp := rfl
@[simp] theorem State.setCapture_agt (n : Nat) (x : Capture) : (s.setCapture n x).agt = s.agt := rfl
@[simp] theorem State.setCapture_pb (n : Nat) (x : Capture) : (s.setCapture n x).pb = s.pb := rfl
@[simp] theorem State.setCapture_mem (n : Nat) (x : Capture) : (s.setCapture n x).mem = s.mem := rfl
@[simp] theorem State.setCapture_bst (n : Nat) (x : Capture) : (s.setCapture n x).bst = s.bst := rfl
@[simp] theorem State.setCapture_flt (n : Nat) (x : Capture) : (s.setCapture n x).flt = s.flt := rfl
@[simp] theorem State.setCapture_lines (n : Nat) (x : Capture) : (s.setCapture n x).lines = s.lines := rfl
@[simp] theorem State.setCapture_past (n : Nat) (x : Capture) : (s.setCapture n x).past = s.past := rfl
@[simp] theorem State.setCapture_fresh (n : Nat) (x : Capture) : (s.setCapture n x).fresh = s.fresh := rfl
@[simp] theorem State.setCapture_free (n : Nat) (x : Capture) : (s.setCapture n x).free = s.free := rfl
@[simp] theorem State.setCapture_reg (n : Nat) (x : Capture) (c j : Nat) : (s.setCapture n x).reg c j = s.reg c j := rfl
@[simp] theorem State.setCapture_fld (n : Nat) (x : Capture) (g : Field) (j : Nat) : (s.setCapture n x).fld g j = s.fld g j := rfl
@[simp] theorem State.setCapture_flag (n : Nat) (x : Capture) (g : Field) (j : Nat) : (s.setCapture n x).flag g j = s.flag g j := rfl

/-! ### setPos -/

@[simp] theorem State.setPos_part (x : Position) : (s.setPos x).part = s.part := rfl
@[simp] theorem State.setPos_fuses (x : Position) : (s.setPos x).fuses = s.fuses := rfl
@[simp] theorem State.setPos_pending (x : Position) : (s.setPos x).pending = s.pending := rfl
@[simp] theorem State.setPos_regs (x : Position) : (s.setPos x).regs = s.regs := rfl
@[simp] theorem State.setPos_pwr (x : Position) : (s.setPos x).pwr = s.pwr := rfl
@[simp] theorem State.setPos_clk (x : Position) : (s.setPos x).clk = s.clk := rfl
@[simp] theorem State.setPos_port (x : Position) : (s.setPos x).port = s.port := rfl
@[simp] theorem State.setPos_bnd (x : Position) : (s.setPos x).bnd = s.bnd := rfl
@[simp] theorem State.setPos_exp (x : Position) : (s.setPos x).exp = s.exp := rfl
@[simp] theorem State.setPos_cnv (x : Position) : (s.setPos x).cnv = s.cnv := rfl
@[simp] theorem State.setPos_lanes (x : Position) : (s.setPos x).lanes = s.lanes := rfl
@[simp] theorem State.setPos_spn (x : Position) : (s.setPos x).spn = s.spn := rfl
@[simp] theorem State.setPos_pos (x : Position) : (s.setPos x).pos = x := rfl
@[simp] theorem State.setPos_aux (x : Position) : (s.setPos x).aux = s.aux := rfl
@[simp] theorem State.setPos_tmp (x : Position) : (s.setPos x).tmp = s.tmp := rfl
@[simp] theorem State.setPos_agt (x : Position) : (s.setPos x).agt = s.agt := rfl
@[simp] theorem State.setPos_pb (x : Position) : (s.setPos x).pb = s.pb := rfl
@[simp] theorem State.setPos_mem (x : Position) : (s.setPos x).mem = s.mem := rfl
@[simp] theorem State.setPos_bst (x : Position) : (s.setPos x).bst = s.bst := rfl
@[simp] theorem State.setPos_flt (x : Position) : (s.setPos x).flt = s.flt := rfl
@[simp] theorem State.setPos_lines (x : Position) : (s.setPos x).lines = s.lines := rfl
@[simp] theorem State.setPos_past (x : Position) : (s.setPos x).past = s.past := rfl
@[simp] theorem State.setPos_fresh (x : Position) : (s.setPos x).fresh = s.fresh := rfl
@[simp] theorem State.setPos_free (x : Position) : (s.setPos x).free = s.free := rfl
@[simp] theorem State.setPos_reg (x : Position) (c j : Nat) : (s.setPos x).reg c j = s.reg c j := rfl
@[simp] theorem State.setPos_fld (x : Position) (g : Field) (j : Nat) : (s.setPos x).fld g j = s.fld g j := rfl
@[simp] theorem State.setPos_flag (x : Position) (g : Field) (j : Nat) : (s.setPos x).flag g j = s.flag g j := rfl

/-! ### setAux -/

@[simp] theorem State.setAux_part (x : Aux) : (s.setAux x).part = s.part := rfl
@[simp] theorem State.setAux_fuses (x : Aux) : (s.setAux x).fuses = s.fuses := rfl
@[simp] theorem State.setAux_pending (x : Aux) : (s.setAux x).pending = s.pending := rfl
@[simp] theorem State.setAux_regs (x : Aux) : (s.setAux x).regs = s.regs := rfl
@[simp] theorem State.setAux_pwr (x : Aux) : (s.setAux x).pwr = s.pwr := rfl
@[simp] theorem State.setAux_clk (x : Aux) : (s.setAux x).clk = s.clk := rfl
@[simp] theorem State.setAux_port (x : Aux) : (s.setAux x).port = s.port := rfl
@[simp] theorem State.setAux_bnd (x : Aux) : (s.setAux x).bnd = s.bnd := rfl
@[simp] theorem State.setAux_exp (x : Aux) : (s.setAux x).exp = s.exp := rfl
@[simp] theorem State.setAux_cnv (x : Aux) : (s.setAux x).cnv = s.cnv := rfl
@[simp] theorem State.setAux_lanes (x : Aux) : (s.setAux x).lanes = s.lanes := rfl
@[simp] theorem State.setAux_spn (x : Aux) : (s.setAux x).spn = s.spn := rfl
@[simp] theorem State.setAux_pos (x : Aux) : (s.setAux x).pos = s.pos := rfl
@[simp] theorem State.setAux_aux (x : Aux) : (s.setAux x).aux = x := rfl
@[simp] theorem State.setAux_tmp (x : Aux) : (s.setAux x).tmp = s.tmp := rfl
@[simp] theorem State.setAux_agt (x : Aux) : (s.setAux x).agt = s.agt := rfl
@[simp] theorem State.setAux_pb (x : Aux) : (s.setAux x).pb = s.pb := rfl
@[simp] theorem State.setAux_mem (x : Aux) : (s.setAux x).mem = s.mem := rfl
@[simp] theorem State.setAux_bst (x : Aux) : (s.setAux x).bst = s.bst := rfl
@[simp] theorem State.setAux_flt (x : Aux) : (s.setAux x).flt = s.flt := rfl
@[simp] theorem State.setAux_lines (x : Aux) : (s.setAux x).lines = s.lines := rfl
@[simp] theorem State.setAux_past (x : Aux) : (s.setAux x).past = s.past := rfl
@[simp] theorem State.setAux_fresh (x : Aux) : (s.setAux x).fresh = s.fresh := rfl
@[simp] theorem State.setAux_free (x : Aux) : (s.setAux x).free = s.free := rfl
@[simp] theorem State.setAux_reg (x : Aux) (c j : Nat) : (s.setAux x).reg c j = s.reg c j := rfl
@[simp] theorem State.setAux_fld (x : Aux) (g : Field) (j : Nat) : (s.setAux x).fld g j = s.fld g j := rfl
@[simp] theorem State.setAux_flag (x : Aux) (g : Field) (j : Nat) : (s.setAux x).flag g j = s.flag g j := rfl

/-! ### setSlotData -/

@[simp] theorem State.setSlotData_part (k : Nat) (x : SlotData) : (s.setSlotData k x).part = s.part := rfl
@[simp] theorem State.setSlotData_fuses (k : Nat) (x : SlotData) : (s.setSlotData k x).fuses = s.fuses := rfl
@[simp] theorem State.setSlotData_pending (k : Nat) (x : SlotData) : (s.setSlotData k x).pending = s.pending := rfl
@[simp] theorem State.setSlotData_regs (k : Nat) (x : SlotData) : (s.setSlotData k x).regs = s.regs := rfl
@[simp] theorem State.setSlotData_pwr (k : Nat) (x : SlotData) : (s.setSlotData k x).pwr = s.pwr := rfl
@[simp] theorem State.setSlotData_clk (k : Nat) (x : SlotData) : (s.setSlotData k x).clk = s.clk := rfl
@[simp] theorem State.setSlotData_port (k : Nat) (x : SlotData) : (s.setSlotData k x).port = s.port := rfl
@[simp] theorem State.setSlotData_bnd (k : Nat) (x : SlotData) : (s.setSlotData k x).bnd = s.bnd := rfl
@[simp] theorem State.setSlotData_exp (k : Nat) (x : SlotData) : (s.setSlotData k x).exp = s.exp := rfl
@[simp] theorem State.setSlotData_cnv (k : Nat) (x : SlotData) : (s.setSlotData k x).cnv = s.cnv := rfl
@[simp] theorem State.setSlotData_lanes (k : Nat) (x : SlotData) : (s.setSlotData k x).lanes = s.lanes := rfl
@[simp] theorem State.setSlotData_spn (k : Nat) (x : SlotData) : (s.setSlotData k x).spn = s.spn := rfl
@[simp] theorem State.setSlotData_pos (k : Nat) (x : SlotData) : (s.setSlotData k x).pos = s.pos := rfl
@[simp] theorem State.setSlotData_tmp (k : Nat) (x : SlotData) : (s.setSlotData k x).tmp = s.tmp := rfl
@[simp] theorem State.setSlotData_agt (k : Nat) (x : SlotData) : (s.setSlotData k x).agt = s.agt := rfl
@[simp] theorem State.setSlotData_pb (k : Nat) (x : SlotData) : (s.setSlotData k x).pb = s.pb := rfl
@[simp] theorem State.setSlotData_mem (k : Nat) (x : SlotData) : (s.setSlotData k x).mem = s.mem := rfl
@[simp] theorem State.setSlotData_bst (k : Nat) (x : SlotData) : (s.setSlotData k x).bst = s.bst := rfl
@[simp] theorem State.setSlotData_flt (k : Nat) (x : SlotData) : (s.setSlotData k x).flt = s.flt := rfl
@[simp] theorem State.setSlotData_lines (k : Nat) (x : SlotData) : (s.setSlotData k x).lines = s.lines := rfl
@[simp] theorem State.setSlotData_past (k : Nat) (x : SlotData) : (s.setSlotData k x).past = s.past := rfl
@[simp] theorem State.setSlotData_fresh (k : Nat) (x : SlotData) : (s.setSlotData k x).fresh = s.fresh := rfl
@[simp] theorem State.setSlotData_free (k : Nat) (x : SlotData) : (s.setSlotData k x).free = s.free := rfl
@[simp] theorem State.setSlotData_reg (k : Nat) (x : SlotData) (c j : Nat) : (s.setSlotData k x).reg c j = s.reg c j := rfl
@[simp] theorem State.setSlotData_fld (k : Nat) (x : SlotData) (g : Field) (j : Nat) : (s.setSlotData k x).fld g j = s.fld g j := rfl
@[simp] theorem State.setSlotData_flag (k : Nat) (x : SlotData) (g : Field) (j : Nat) : (s.setSlotData k x).flag g j = s.flag g j := rfl

/-! ### setRequest -/

@[simp] theorem State.setRequest_part (k : Nat) (x : Request) : (s.setRequest k x).part = s.part := rfl
@[simp] theorem State.setRequest_fuses (k : Nat) (x : Request) : (s.setRequest k x).fuses = s.fuses := rfl
@[simp] theorem State.setRequest_pending (k : Nat) (x : Request) : (s.setRequest k x).pending = s.pending := rfl
@[simp] theorem State.setRequest_regs (k : Nat) (x : Request) : (s.setRequest k x).regs = s.regs := rfl
@[simp] theorem State.setRequest_pwr (k : Nat) (x : Request) : (s.setRequest k x).pwr = s.pwr := rfl
@[simp] theorem State.setRequest_clk (k : Nat) (x : Request) : (s.setRequest k x).clk = s.clk := rfl
@[simp] theorem State.setRequest_port (k : Nat) (x : Request) : (s.setRequest k x).port = s.port := rfl
@[simp] theorem State.setRequest_bnd (k : Nat) (x : Request) : (s.setRequest k x).bnd = s.bnd := rfl
@[simp] theorem State.setRequest_exp (k : Nat) (x : Request) : (s.setRequest k x).exp = s.exp := rfl
@[simp] theorem State.setRequest_cnv (k : Nat) (x : Request) : (s.setRequest k x).cnv = s.cnv := rfl
@[simp] theorem State.setRequest_lanes (k : Nat) (x : Request) : (s.setRequest k x).lanes = s.lanes := rfl
@[simp] theorem State.setRequest_spn (k : Nat) (x : Request) : (s.setRequest k x).spn = s.spn := rfl
@[simp] theorem State.setRequest_pos (k : Nat) (x : Request) : (s.setRequest k x).pos = s.pos := rfl
@[simp] theorem State.setRequest_tmp (k : Nat) (x : Request) : (s.setRequest k x).tmp = s.tmp := rfl
@[simp] theorem State.setRequest_agt (k : Nat) (x : Request) : (s.setRequest k x).agt = s.agt := rfl
@[simp] theorem State.setRequest_pb (k : Nat) (x : Request) : (s.setRequest k x).pb = s.pb := rfl
@[simp] theorem State.setRequest_mem (k : Nat) (x : Request) : (s.setRequest k x).mem = s.mem := rfl
@[simp] theorem State.setRequest_bst (k : Nat) (x : Request) : (s.setRequest k x).bst = s.bst := rfl
@[simp] theorem State.setRequest_flt (k : Nat) (x : Request) : (s.setRequest k x).flt = s.flt := rfl
@[simp] theorem State.setRequest_lines (k : Nat) (x : Request) : (s.setRequest k x).lines = s.lines := rfl
@[simp] theorem State.setRequest_past (k : Nat) (x : Request) : (s.setRequest k x).past = s.past := rfl
@[simp] theorem State.setRequest_fresh (k : Nat) (x : Request) : (s.setRequest k x).fresh = s.fresh := rfl
@[simp] theorem State.setRequest_free (k : Nat) (x : Request) : (s.setRequest k x).free = s.free := rfl
@[simp] theorem State.setRequest_reg (k : Nat) (x : Request) (c j : Nat) : (s.setRequest k x).reg c j = s.reg c j := rfl
@[simp] theorem State.setRequest_fld (k : Nat) (x : Request) (g : Field) (j : Nat) : (s.setRequest k x).fld g j = s.fld g j := rfl
@[simp] theorem State.setRequest_flag (k : Nat) (x : Request) (g : Field) (j : Nat) : (s.setRequest k x).flag g j = s.flag g j := rfl

/-! ### setTmp -/

@[simp] theorem State.setTmp_part (x : Temperature) : (s.setTmp x).part = s.part := rfl
@[simp] theorem State.setTmp_fuses (x : Temperature) : (s.setTmp x).fuses = s.fuses := rfl
@[simp] theorem State.setTmp_pending (x : Temperature) : (s.setTmp x).pending = s.pending := rfl
@[simp] theorem State.setTmp_regs (x : Temperature) : (s.setTmp x).regs = s.regs := rfl
@[simp] theorem State.setTmp_pwr (x : Temperature) : (s.setTmp x).pwr = s.pwr := rfl
@[simp] theorem State.setTmp_clk (x : Temperature) : (s.setTmp x).clk = s.clk := rfl
@[simp] theorem State.setTmp_port (x : Temperature) : (s.setTmp x).port = s.port := rfl
@[simp] theorem State.setTmp_bnd (x : Temperature) : (s.setTmp x).bnd = s.bnd := rfl
@[simp] theorem State.setTmp_exp (x : Temperature) : (s.setTmp x).exp = s.exp := rfl
@[simp] theorem State.setTmp_cnv (x : Temperature) : (s.setTmp x).cnv = s.cnv := rfl
@[simp] theorem State.setTmp_lanes (x : Temperature) : (s.setTmp x).lanes = s.lanes := rfl
@[simp] theorem State.setTmp_spn (x : Temperature) : (s.setTmp x).spn = s.spn := rfl
@[simp] theorem State.setTmp_pos (x : Temperature) : (s.setTmp x).pos = s.pos := rfl
@[simp] theorem State.setTmp_aux (x : Temperature) : (s.setTmp x).aux = s.aux := rfl
@[simp] theorem State.setTmp_tmp (x : Temperature) : (s.setTmp x).tmp = x := rfl
@[simp] theorem State.setTmp_agt (x : Temperature) : (s.setTmp x).agt = s.agt := rfl
@[simp] theorem State.setTmp_pb (x : Temperature) : (s.setTmp x).pb = s.pb := rfl
@[simp] theorem State.setTmp_mem (x : Temperature) : (s.setTmp x).mem = s.mem := rfl
@[simp] theorem State.setTmp_bst (x : Temperature) : (s.setTmp x).bst = s.bst := rfl
@[simp] theorem State.setTmp_flt (x : Temperature) : (s.setTmp x).flt = s.flt := rfl
@[simp] theorem State.setTmp_lines (x : Temperature) : (s.setTmp x).lines = s.lines := rfl
@[simp] theorem State.setTmp_past (x : Temperature) : (s.setTmp x).past = s.past := rfl
@[simp] theorem State.setTmp_fresh (x : Temperature) : (s.setTmp x).fresh = s.fresh := rfl
@[simp] theorem State.setTmp_free (x : Temperature) : (s.setTmp x).free = s.free := rfl
@[simp] theorem State.setTmp_reg (x : Temperature) (c j : Nat) : (s.setTmp x).reg c j = s.reg c j := rfl
@[simp] theorem State.setTmp_fld (x : Temperature) (g : Field) (j : Nat) : (s.setTmp x).fld g j = s.fld g j := rfl
@[simp] theorem State.setTmp_flag (x : Temperature) (g : Field) (j : Nat) : (s.setTmp x).flag g j = s.flag g j := rfl

/-! ### setEngine -/

@[simp] theorem State.setEngine_part (e : Nat) (x : Engine) : (s.setEngine e x).part = s.part := rfl
@[simp] theorem State.setEngine_fuses (e : Nat) (x : Engine) : (s.setEngine e x).fuses = s.fuses := rfl
@[simp] theorem State.setEngine_pending (e : Nat) (x : Engine) : (s.setEngine e x).pending = s.pending := rfl
@[simp] theorem State.setEngine_regs (e : Nat) (x : Engine) : (s.setEngine e x).regs = s.regs := rfl
@[simp] theorem State.setEngine_pwr (e : Nat) (x : Engine) : (s.setEngine e x).pwr = s.pwr := rfl
@[simp] theorem State.setEngine_clk (e : Nat) (x : Engine) : (s.setEngine e x).clk = s.clk := rfl
@[simp] theorem State.setEngine_port (e : Nat) (x : Engine) : (s.setEngine e x).port = s.port := rfl
@[simp] theorem State.setEngine_bnd (e : Nat) (x : Engine) : (s.setEngine e x).bnd = s.bnd := rfl
@[simp] theorem State.setEngine_exp (e : Nat) (x : Engine) : (s.setEngine e x).exp = s.exp := rfl
@[simp] theorem State.setEngine_cnv (e : Nat) (x : Engine) : (s.setEngine e x).cnv = s.cnv := rfl
@[simp] theorem State.setEngine_lanes (e : Nat) (x : Engine) : (s.setEngine e x).lanes = s.lanes := rfl
@[simp] theorem State.setEngine_spn (e : Nat) (x : Engine) : (s.setEngine e x).spn = s.spn := rfl
@[simp] theorem State.setEngine_pos (e : Nat) (x : Engine) : (s.setEngine e x).pos = s.pos := rfl
@[simp] theorem State.setEngine_aux (e : Nat) (x : Engine) : (s.setEngine e x).aux = s.aux := rfl
@[simp] theorem State.setEngine_tmp (e : Nat) (x : Engine) : (s.setEngine e x).tmp = s.tmp := rfl
@[simp] theorem State.setEngine_pb (e : Nat) (x : Engine) : (s.setEngine e x).pb = s.pb := rfl
@[simp] theorem State.setEngine_mem (e : Nat) (x : Engine) : (s.setEngine e x).mem = s.mem := rfl
@[simp] theorem State.setEngine_bst (e : Nat) (x : Engine) : (s.setEngine e x).bst = s.bst := rfl
@[simp] theorem State.setEngine_flt (e : Nat) (x : Engine) : (s.setEngine e x).flt = s.flt := rfl
@[simp] theorem State.setEngine_lines (e : Nat) (x : Engine) : (s.setEngine e x).lines = s.lines := rfl
@[simp] theorem State.setEngine_past (e : Nat) (x : Engine) : (s.setEngine e x).past = s.past := rfl
@[simp] theorem State.setEngine_fresh (e : Nat) (x : Engine) : (s.setEngine e x).fresh = s.fresh := rfl
@[simp] theorem State.setEngine_free (e : Nat) (x : Engine) : (s.setEngine e x).free = s.free := rfl
@[simp] theorem State.setEngine_reg (e : Nat) (x : Engine) (c j : Nat) : (s.setEngine e x).reg c j = s.reg c j := rfl
@[simp] theorem State.setEngine_fld (e : Nat) (x : Engine) (g : Field) (j : Nat) : (s.setEngine e x).fld g j = s.fld g j := rfl
@[simp] theorem State.setEngine_flag (e : Nat) (x : Engine) (g : Field) (j : Nat) : (s.setEngine e x).flag g j = s.flag g j := rfl

/-! ### setPB -/

@[simp] theorem State.setPB_part (x : PBus) : (s.setPB x).part = s.part := rfl
@[simp] theorem State.setPB_fuses (x : PBus) : (s.setPB x).fuses = s.fuses := rfl
@[simp] theorem State.setPB_pending (x : PBus) : (s.setPB x).pending = s.pending := rfl
@[simp] theorem State.setPB_regs (x : PBus) : (s.setPB x).regs = s.regs := rfl
@[simp] theorem State.setPB_pwr (x : PBus) : (s.setPB x).pwr = s.pwr := rfl
@[simp] theorem State.setPB_clk (x : PBus) : (s.setPB x).clk = s.clk := rfl
@[simp] theorem State.setPB_port (x : PBus) : (s.setPB x).port = s.port := rfl
@[simp] theorem State.setPB_bnd (x : PBus) : (s.setPB x).bnd = s.bnd := rfl
@[simp] theorem State.setPB_exp (x : PBus) : (s.setPB x).exp = s.exp := rfl
@[simp] theorem State.setPB_cnv (x : PBus) : (s.setPB x).cnv = s.cnv := rfl
@[simp] theorem State.setPB_lanes (x : PBus) : (s.setPB x).lanes = s.lanes := rfl
@[simp] theorem State.setPB_spn (x : PBus) : (s.setPB x).spn = s.spn := rfl
@[simp] theorem State.setPB_pos (x : PBus) : (s.setPB x).pos = s.pos := rfl
@[simp] theorem State.setPB_aux (x : PBus) : (s.setPB x).aux = s.aux := rfl
@[simp] theorem State.setPB_tmp (x : PBus) : (s.setPB x).tmp = s.tmp := rfl
@[simp] theorem State.setPB_agt (x : PBus) : (s.setPB x).agt = s.agt := rfl
@[simp] theorem State.setPB_pb (x : PBus) : (s.setPB x).pb = x := rfl
@[simp] theorem State.setPB_mem (x : PBus) : (s.setPB x).mem = s.mem := rfl
@[simp] theorem State.setPB_bst (x : PBus) : (s.setPB x).bst = s.bst := rfl
@[simp] theorem State.setPB_flt (x : PBus) : (s.setPB x).flt = s.flt := rfl
@[simp] theorem State.setPB_lines (x : PBus) : (s.setPB x).lines = s.lines := rfl
@[simp] theorem State.setPB_past (x : PBus) : (s.setPB x).past = s.past := rfl
@[simp] theorem State.setPB_fresh (x : PBus) : (s.setPB x).fresh = s.fresh := rfl
@[simp] theorem State.setPB_free (x : PBus) : (s.setPB x).free = s.free := rfl
@[simp] theorem State.setPB_reg (x : PBus) (c j : Nat) : (s.setPB x).reg c j = s.reg c j := rfl
@[simp] theorem State.setPB_fld (x : PBus) (g : Field) (j : Nat) : (s.setPB x).fld g j = s.fld g j := rfl
@[simp] theorem State.setPB_flag (x : PBus) (g : Field) (j : Nat) : (s.setPB x).flag g j = s.flag g j := rfl

/-! ### setMem -/

@[simp] theorem State.setMem_part (x : Memory) : (s.setMem x).part = s.part := rfl
@[simp] theorem State.setMem_fuses (x : Memory) : (s.setMem x).fuses = s.fuses := rfl
@[simp] theorem State.setMem_pending (x : Memory) : (s.setMem x).pending = s.pending := rfl
@[simp] theorem State.setMem_regs (x : Memory) : (s.setMem x).regs = s.regs := rfl
@[simp] theorem State.setMem_pwr (x : Memory) : (s.setMem x).pwr = s.pwr := rfl
@[simp] theorem State.setMem_clk (x : Memory) : (s.setMem x).clk = s.clk := rfl
@[simp] theorem State.setMem_port (x : Memory) : (s.setMem x).port = s.port := rfl
@[simp] theorem State.setMem_bnd (x : Memory) : (s.setMem x).bnd = s.bnd := rfl
@[simp] theorem State.setMem_exp (x : Memory) : (s.setMem x).exp = s.exp := rfl
@[simp] theorem State.setMem_cnv (x : Memory) : (s.setMem x).cnv = s.cnv := rfl
@[simp] theorem State.setMem_lanes (x : Memory) : (s.setMem x).lanes = s.lanes := rfl
@[simp] theorem State.setMem_spn (x : Memory) : (s.setMem x).spn = s.spn := rfl
@[simp] theorem State.setMem_pos (x : Memory) : (s.setMem x).pos = s.pos := rfl
@[simp] theorem State.setMem_aux (x : Memory) : (s.setMem x).aux = s.aux := rfl
@[simp] theorem State.setMem_tmp (x : Memory) : (s.setMem x).tmp = s.tmp := rfl
@[simp] theorem State.setMem_agt (x : Memory) : (s.setMem x).agt = s.agt := rfl
@[simp] theorem State.setMem_pb (x : Memory) : (s.setMem x).pb = s.pb := rfl
@[simp] theorem State.setMem_mem (x : Memory) : (s.setMem x).mem = x := rfl
@[simp] theorem State.setMem_bst (x : Memory) : (s.setMem x).bst = s.bst := rfl
@[simp] theorem State.setMem_flt (x : Memory) : (s.setMem x).flt = s.flt := rfl
@[simp] theorem State.setMem_lines (x : Memory) : (s.setMem x).lines = s.lines := rfl
@[simp] theorem State.setMem_past (x : Memory) : (s.setMem x).past = s.past := rfl
@[simp] theorem State.setMem_fresh (x : Memory) : (s.setMem x).fresh = s.fresh := rfl
@[simp] theorem State.setMem_free (x : Memory) : (s.setMem x).free = s.free := rfl
@[simp] theorem State.setMem_reg (x : Memory) (c j : Nat) : (s.setMem x).reg c j = s.reg c j := rfl
@[simp] theorem State.setMem_fld (x : Memory) (g : Field) (j : Nat) : (s.setMem x).fld g j = s.fld g j := rfl
@[simp] theorem State.setMem_flag (x : Memory) (g : Field) (j : Nat) : (s.setMem x).flag g j = s.flag g j := rfl

/-! ### setBst -/

@[simp] theorem State.setBst_part (x : SelfTest) : (s.setBst x).part = s.part := rfl
@[simp] theorem State.setBst_fuses (x : SelfTest) : (s.setBst x).fuses = s.fuses := rfl
@[simp] theorem State.setBst_pending (x : SelfTest) : (s.setBst x).pending = s.pending := rfl
@[simp] theorem State.setBst_regs (x : SelfTest) : (s.setBst x).regs = s.regs := rfl
@[simp] theorem State.setBst_pwr (x : SelfTest) : (s.setBst x).pwr = s.pwr := rfl
@[simp] theorem State.setBst_clk (x : SelfTest) : (s.setBst x).clk = s.clk := rfl
@[simp] theorem State.setBst_port (x : SelfTest) : (s.setBst x).port = s.port := rfl
@[simp] theorem State.setBst_bnd (x : SelfTest) : (s.setBst x).bnd = s.bnd := rfl
@[simp] theorem State.setBst_exp (x : SelfTest) : (s.setBst x).exp = s.exp := rfl
@[simp] theorem State.setBst_cnv (x : SelfTest) : (s.setBst x).cnv = s.cnv := rfl
@[simp] theorem State.setBst_lanes (x : SelfTest) : (s.setBst x).lanes = s.lanes := rfl
@[simp] theorem State.setBst_spn (x : SelfTest) : (s.setBst x).spn = s.spn := rfl
@[simp] theorem State.setBst_pos (x : SelfTest) : (s.setBst x).pos = s.pos := rfl
@[simp] theorem State.setBst_aux (x : SelfTest) : (s.setBst x).aux = s.aux := rfl
@[simp] theorem State.setBst_tmp (x : SelfTest) : (s.setBst x).tmp = s.tmp := rfl
@[simp] theorem State.setBst_agt (x : SelfTest) : (s.setBst x).agt = s.agt := rfl
@[simp] theorem State.setBst_pb (x : SelfTest) : (s.setBst x).pb = s.pb := rfl
@[simp] theorem State.setBst_mem (x : SelfTest) : (s.setBst x).mem = s.mem := rfl
@[simp] theorem State.setBst_bst (x : SelfTest) : (s.setBst x).bst = x := rfl
@[simp] theorem State.setBst_flt (x : SelfTest) : (s.setBst x).flt = s.flt := rfl
@[simp] theorem State.setBst_lines (x : SelfTest) : (s.setBst x).lines = s.lines := rfl
@[simp] theorem State.setBst_past (x : SelfTest) : (s.setBst x).past = s.past := rfl
@[simp] theorem State.setBst_fresh (x : SelfTest) : (s.setBst x).fresh = s.fresh := rfl
@[simp] theorem State.setBst_free (x : SelfTest) : (s.setBst x).free = s.free := rfl
@[simp] theorem State.setBst_reg (x : SelfTest) (c j : Nat) : (s.setBst x).reg c j = s.reg c j := rfl
@[simp] theorem State.setBst_fld (x : SelfTest) (g : Field) (j : Nat) : (s.setBst x).fld g j = s.fld g j := rfl
@[simp] theorem State.setBst_flag (x : SelfTest) (g : Field) (j : Nat) : (s.setBst x).flag g j = s.flag g j := rfl

/-! ### setFlt -/

@[simp] theorem State.setFlt_part (x : Faults) : (s.setFlt x).part = s.part := rfl
@[simp] theorem State.setFlt_fuses (x : Faults) : (s.setFlt x).fuses = s.fuses := rfl
@[simp] theorem State.setFlt_pending (x : Faults) : (s.setFlt x).pending = s.pending := rfl
@[simp] theorem State.setFlt_regs (x : Faults) : (s.setFlt x).regs = s.regs := rfl
@[simp] theorem State.setFlt_pwr (x : Faults) : (s.setFlt x).pwr = s.pwr := rfl
@[simp] theorem State.setFlt_clk (x : Faults) : (s.setFlt x).clk = s.clk := rfl
@[simp] theorem State.setFlt_port (x : Faults) : (s.setFlt x).port = s.port := rfl
@[simp] theorem State.setFlt_bnd (x : Faults) : (s.setFlt x).bnd = s.bnd := rfl
@[simp] theorem State.setFlt_exp (x : Faults) : (s.setFlt x).exp = s.exp := rfl
@[simp] theorem State.setFlt_cnv (x : Faults) : (s.setFlt x).cnv = s.cnv := rfl
@[simp] theorem State.setFlt_lanes (x : Faults) : (s.setFlt x).lanes = s.lanes := rfl
@[simp] theorem State.setFlt_spn (x : Faults) : (s.setFlt x).spn = s.spn := rfl
@[simp] theorem State.setFlt_pos (x : Faults) : (s.setFlt x).pos = s.pos := rfl
@[simp] theorem State.setFlt_aux (x : Faults) : (s.setFlt x).aux = s.aux := rfl
@[simp] theorem State.setFlt_tmp (x : Faults) : (s.setFlt x).tmp = s.tmp := rfl
@[simp] theorem State.setFlt_agt (x : Faults) : (s.setFlt x).agt = s.agt := rfl
@[simp] theorem State.setFlt_pb (x : Faults) : (s.setFlt x).pb = s.pb := rfl
@[simp] theorem State.setFlt_mem (x : Faults) : (s.setFlt x).mem = s.mem := rfl
@[simp] theorem State.setFlt_bst (x : Faults) : (s.setFlt x).bst = s.bst := rfl
@[simp] theorem State.setFlt_flt (x : Faults) : (s.setFlt x).flt = x := rfl
@[simp] theorem State.setFlt_lines (x : Faults) : (s.setFlt x).lines = s.lines := rfl
@[simp] theorem State.setFlt_past (x : Faults) : (s.setFlt x).past = s.past := rfl
@[simp] theorem State.setFlt_fresh (x : Faults) : (s.setFlt x).fresh = s.fresh := rfl
@[simp] theorem State.setFlt_free (x : Faults) : (s.setFlt x).free = s.free := rfl
@[simp] theorem State.setFlt_reg (x : Faults) (c j : Nat) : (s.setFlt x).reg c j = s.reg c j := rfl
@[simp] theorem State.setFlt_fld (x : Faults) (g : Field) (j : Nat) : (s.setFlt x).fld g j = s.fld g j := rfl
@[simp] theorem State.setFlt_flag (x : Faults) (g : Field) (j : Nat) : (s.setFlt x).flag g j = s.flag g j := rfl

/-! ### injDone -/

@[simp] theorem State.injDone_part : s.injDone.part = s.part := rfl
@[simp] theorem State.injDone_fuses : s.injDone.fuses = s.fuses := rfl
@[simp] theorem State.injDone_pending : s.injDone.pending = s.pending := rfl
@[simp] theorem State.injDone_regs : s.injDone.regs = s.regs := rfl
@[simp] theorem State.injDone_pwr : s.injDone.pwr = s.pwr := rfl
@[simp] theorem State.injDone_clk : s.injDone.clk = s.clk := rfl
@[simp] theorem State.injDone_port : s.injDone.port = s.port := rfl
@[simp] theorem State.injDone_bnd : s.injDone.bnd = s.bnd := rfl
@[simp] theorem State.injDone_exp : s.injDone.exp = s.exp := rfl
@[simp] theorem State.injDone_cnv : s.injDone.cnv = s.cnv := rfl
@[simp] theorem State.injDone_lanes : s.injDone.lanes = s.lanes := rfl
@[simp] theorem State.injDone_spn : s.injDone.spn = s.spn := rfl
@[simp] theorem State.injDone_pos : s.injDone.pos = s.pos := rfl
@[simp] theorem State.injDone_aux : s.injDone.aux = s.aux := rfl
@[simp] theorem State.injDone_tmp : s.injDone.tmp = s.tmp := rfl
@[simp] theorem State.injDone_agt : s.injDone.agt = s.agt := rfl
@[simp] theorem State.injDone_pb : s.injDone.pb = s.pb := rfl
@[simp] theorem State.injDone_mem : s.injDone.mem = s.mem := rfl
@[simp] theorem State.injDone_bst : s.injDone.bst = s.bst := rfl
@[simp] theorem State.injDone_flt : s.injDone.flt = { s.flt with pending := none } := rfl
@[simp] theorem State.injDone_lines : s.injDone.lines = s.lines := rfl
@[simp] theorem State.injDone_past : s.injDone.past = s.past := rfl
@[simp] theorem State.injDone_fresh : s.injDone.fresh = s.fresh := rfl
@[simp] theorem State.injDone_free : s.injDone.free = s.free := rfl
@[simp] theorem State.injDone_reg (c j : Nat) : s.injDone.reg c j = s.reg c j := rfl
@[simp] theorem State.injDone_fld (g : Field) (j : Nat) : s.injDone.fld g j = s.fld g j := rfl
@[simp] theorem State.injDone_flag (g : Field) (j : Nat) : s.injDone.flag g j = s.flag g j := rfl

/-! ### raise -/

@[simp] theorem State.raise_part (code unit data : Nat) : (s.raise code unit data).part = s.part := by
  unfold State.raise; split <;> rfl
@[simp] theorem State.raise_fuses (code unit data : Nat) : (s.raise code unit data).fuses = s.fuses := by
  unfold State.raise; split <;> rfl
@[simp] theorem State.raise_pending (code unit data : Nat) : (s.raise code unit data).pending = s.pending := by
  unfold State.raise; split <;> rfl
@[simp] theorem State.raise_pwr (code unit data : Nat) : (s.raise code unit data).pwr = s.pwr := by
  unfold State.raise; split <;> rfl
@[simp] theorem State.raise_clk (code unit data : Nat) : (s.raise code unit data).clk = s.clk := by
  unfold State.raise; split <;> rfl
@[simp] theorem State.raise_port (code unit data : Nat) : (s.raise code unit data).port = s.port := by
  unfold State.raise; split <;> rfl
@[simp] theorem State.raise_bnd (code unit data : Nat) : (s.raise code unit data).bnd = s.bnd := by
  unfold State.raise; split <;> rfl
@[simp] theorem State.raise_exp (code unit data : Nat) : (s.raise code unit data).exp = s.exp := by
  unfold State.raise; split <;> rfl
@[simp] theorem State.raise_cnv (code unit data : Nat) : (s.raise code unit data).cnv = s.cnv := by
  unfold State.raise; split <;> rfl
@[simp] theorem State.raise_lanes (code unit data : Nat) : (s.raise code unit data).lanes = s.lanes := by
  unfold State.raise; split <;> rfl
@[simp] theorem State.raise_spn (code unit data : Nat) : (s.raise code unit data).spn = s.spn := by
  unfold State.raise; split <;> rfl
@[simp] theorem State.raise_pos (code unit data : Nat) : (s.raise code unit data).pos = s.pos := by
  unfold State.raise; split <;> rfl
@[simp] theorem State.raise_aux (code unit data : Nat) : (s.raise code unit data).aux = s.aux := by
  unfold State.raise; split <;> rfl
@[simp] theorem State.raise_tmp (code unit data : Nat) : (s.raise code unit data).tmp = s.tmp := by
  unfold State.raise; split <;> rfl
@[simp] theorem State.raise_agt (code unit data : Nat) : (s.raise code unit data).agt = s.agt := by
  unfold State.raise; split <;> rfl
@[simp] theorem State.raise_pb (code unit data : Nat) : (s.raise code unit data).pb = s.pb := by
  unfold State.raise; split <;> rfl
@[simp] theorem State.raise_mem (code unit data : Nat) : (s.raise code unit data).mem = s.mem := by
  unfold State.raise; split <;> rfl
@[simp] theorem State.raise_bst (code unit data : Nat) : (s.raise code unit data).bst = s.bst := by
  unfold State.raise; split <;> rfl
@[simp] theorem State.raise_lines (code unit data : Nat) : (s.raise code unit data).lines = s.lines := by
  unfold State.raise; split <;> rfl
@[simp] theorem State.raise_past (code unit data : Nat) : (s.raise code unit data).past = s.past := by
  unfold State.raise; split <;> rfl
@[simp] theorem State.raise_fresh (code unit data : Nat) : (s.raise code unit data).fresh = s.fresh := by
  unfold State.raise; split <;> rfl
@[simp] theorem State.raise_free (code unit data : Nat) : (s.raise code unit data).free = s.free := by
  unfold State.raise; split <;> rfl

/-- With room in the log, an event is one entry more (R619). -/
theorem State.raise_events (code unit data : Nat) (h : s.flt.events.length < 64) :
    (s.raise code unit data).flt.events = s.flt.events ++
      [⟨code, s.flt.mark, unit, data % 2 ^ 16, s.timeBits 32, false⟩] := by
  simp [State.raise, h]

/-- With room in the log, an event changes no register. -/
theorem State.raise_regs (code unit data : Nat) (h : s.flt.events.length < 64) :
    (s.raise code unit data).regs = s.regs := by
  simp [State.raise, h]

/-- An event leaves every register but FLT_EV_LOST alone. -/
theorem State.raise_reg (code unit data : Nat) {a i : Nat}
    (hne : regKey a i ≠ regKey R.FLT_EV_LOST 0) : (s.raise code unit data).reg a i = s.reg a i := by
  unfold State.raise
  split
  · rfl
  · exact Cells.get_set_ne _ _ hne

/-! ### Registers and their fields -/

/-- A register reads as written. -/
theorem State.reg_setReg (a : Nat) (w : Word) (i : Nat) : (s.setReg a w i).reg a i = w :=
  Cells.get_set_self _ _ _

/-- A register write leaves every other register instance alone. -/
theorem State.reg_setReg_ne {a b i j : Nat} (w : Word)
    (hne : regKey b j ≠ regKey a i) : (s.setReg a w i).reg b j = s.reg b j :=
  Cells.get_set_ne _ _ hne

/-- A field write leaves every other register instance alone. -/
theorem State.reg_setFld_ne {f : Field} {v b i j : Nat}
    (hne : regKey b j ≠ regKey f.addr i) : (s.setFld f v i).reg b j = s.reg b j :=
  Cells.get_set_ne _ _ hne

/-- A field write leaves the fields of every other register instance alone. -/
theorem State.fld_setFld_ne {f g : Field} {v i j : Nat}
    (hne : regKey g.addr j ≠ regKey f.addr i) : (s.setFld f v i).fld g j = s.fld g j := by
  unfold State.fld
  rw [State.reg_setFld_ne s hne]

theorem Field.into_toNat {f : Field} (w : Word) (v : Nat) (hf : f.lo ≤ f.hi) (h16 : f.hi < 16) :
    (f.into w v).toNat = w.toNat % 2 ^ f.lo + 2 ^ f.lo * (v % 2 ^ (f.hi + 1 - f.lo))
      + 2 ^ (f.hi + 1) * (w.toNat / 2 ^ (f.hi + 1)) := by
  have hw := w.isLt
  have hp : 2 ^ (f.hi + 1) = 2 ^ f.lo * 2 ^ (f.hi + 1 - f.lo) := by
    rw [← Nat.pow_add]; congr 1; omega
  have hq : (2 : Nat) ^ 16 = 2 ^ (f.hi + 1) * 2 ^ (15 - f.hi) := by
    rw [← Nat.pow_add]; congr 1; omega
  have h1 : w.toNat = w.toNat % 2 ^ f.lo + 2 ^ f.lo * f.of w + 2 ^ (f.hi + 1) * (w.toNat / 2 ^ (f.hi + 1)) := by
    rw [hp]
    show w.toNat = w.toNat % 2 ^ f.lo + 2 ^ f.lo * (w.toNat / 2 ^ f.lo % 2 ^ (f.hi + 1 - f.lo)) + _
    rw [← Nat.div_div_eq_div_mul, Nat.mul_assoc, Nat.add_assoc, ← Nat.mul_add, Nat.mod_add_div, Nat.mod_add_div]
  have hv : v % 2 ^ (f.hi + 1 - f.lo) < 2 ^ (f.hi + 1 - f.lo) := Nat.mod_lt _ (Nat.two_pow_pos _)
  have hl : w.toNat % 2 ^ f.lo < 2 ^ f.lo := Nat.mod_lt _ (Nat.two_pow_pos _)
  have hd : w.toNat / 2 ^ (f.hi + 1) < 2 ^ (15 - f.hi) := by
    rw [Nat.div_lt_iff_lt_mul (Nat.two_pow_pos _), Nat.mul_comm, ← hq]; exact hw
  have hval : w.toNat - f.of w * 2 ^ f.lo + v % 2 ^ (f.hi + 1 - f.lo) * 2 ^ f.lo =
      w.toNat % 2 ^ f.lo + 2 ^ f.lo * (v % 2 ^ (f.hi + 1 - f.lo)) + 2 ^ (f.hi + 1) * (w.toNat / 2 ^ (f.hi + 1)) := by
    rw [Nat.mul_comm (f.of w), Nat.mul_comm (v % _)]
    generalize 2 ^ f.lo * f.of w = y at *
    omega
  unfold Field.into
  rw [BitVec.toNat_ofNat, hval]
  refine Nat.mod_eq_of_lt ?_
  rw [hq]
  have h2 : w.toNat % 2 ^ f.lo + 2 ^ f.lo * (v % 2 ^ (f.hi + 1 - f.lo)) < 2 ^ (f.hi + 1) := by
    rw [hp]
    calc _ < 2 ^ f.lo + 2 ^ f.lo * (v % 2 ^ (f.hi + 1 - f.lo)) := by omega
      _ = 2 ^ f.lo * (v % 2 ^ (f.hi + 1 - f.lo) + 1) := by rw [Nat.mul_add, Nat.mul_one, Nat.add_comm]
      _ ≤ 2 ^ f.lo * 2 ^ (f.hi + 1 - f.lo) := Nat.mul_le_mul_left _ hv
  calc _ < 2 ^ (f.hi + 1) + 2 ^ (f.hi + 1) * (w.toNat / 2 ^ (f.hi + 1)) := by omega
    _ = 2 ^ (f.hi + 1) * (w.toNat / 2 ^ (f.hi + 1) + 1) := by rw [Nat.mul_add, Nat.mul_one, Nat.add_comm]
    _ ≤ 2 ^ (f.hi + 1) * 2 ^ (15 - f.hi) := Nat.mul_le_mul_left _ hd

/-- A field reads as written, within its bits. -/
theorem Field.of_into {f : Field} (w : Word) (v : Nat) (hf : f.lo ≤ f.hi) (h16 : f.hi < 16) :
    f.of (f.into w v) = v % 2 ^ (f.hi + 1 - f.lo) := by
  have hp : 2 ^ (f.hi + 1) = 2 ^ f.lo * 2 ^ (f.hi + 1 - f.lo) := by
    rw [← Nat.pow_add]; congr 1; omega
  show (f.into w v).toNat / 2 ^ f.lo % 2 ^ (f.hi + 1 - f.lo) = _
  rw [Field.into_toNat w v hf h16, hp, Nat.mul_assoc, Nat.add_assoc, ← Nat.mul_add,
    Nat.add_mul_div_left _ _ (Nat.two_pow_pos _), Nat.div_eq_of_lt (Nat.mod_lt _ (Nat.two_pow_pos _)), Nat.zero_add,
    Nat.add_mul_mod_self_left, Nat.mod_mod]

/-- A field that lies above or below the written one keeps its value. -/
theorem Field.of_into_ne {f g : Field} (w : Word) (v : Nat) (hf : f.lo ≤ f.hi) (h16 : f.hi < 16) (hg : g.lo ≤ g.hi)
    (hd : g.hi < f.lo ∨ f.hi < g.lo) : g.of (f.into w v) = g.of w := by
  have hp : 2 ^ (f.hi + 1) = 2 ^ f.lo * 2 ^ (f.hi + 1 - f.lo) := by
    rw [← Nat.pow_add]; congr 1; omega
  show (f.into w v).toNat / 2 ^ g.lo % 2 ^ (g.hi + 1 - g.lo) = w.toNat / 2 ^ g.lo % 2 ^ (g.hi + 1 - g.lo)
  rw [Field.into_toNat w v hf h16]
  rcases hd with hd | hd
  · have hgp : 2 ^ f.lo = 2 ^ g.lo * 2 ^ (g.hi + 1 - g.lo) * 2 ^ (f.lo - (g.hi + 1)) := by
      rw [← Nat.pow_add, ← Nat.pow_add]; congr 1; omega
    have hmod : ∀ x y z : Nat, (x % 2 ^ f.lo + 2 ^ f.lo * y + 2 ^ (f.hi + 1) * z) / 2 ^ g.lo % 2 ^ (g.hi + 1 - g.lo)
        = x / 2 ^ g.lo % 2 ^ (g.hi + 1 - g.lo) := by
      intro x y z
      have e1 : ∀ u t : Nat, (u + 2 ^ f.lo * t) / 2 ^ g.lo % 2 ^ (g.hi + 1 - g.lo) =
          u / 2 ^ g.lo % 2 ^ (g.hi + 1 - g.lo) := by
        intro u t
        rw [hgp, Nat.mul_assoc (2 ^ g.lo), Nat.mul_assoc (2 ^ g.lo), Nat.add_mul_div_left _ _ (Nat.two_pow_pos _),
          Nat.mul_assoc (2 ^ (g.hi + 1 - g.lo)), Nat.add_mul_mod_self_left]
      rw [hp, Nat.mul_assoc, e1, e1]
      conv_rhs => rw [← Nat.mod_add_div x (2 ^ f.lo)]
      rw [e1]
    rw [hmod]
  · have hle : 2 ^ g.lo = 2 ^ (f.hi + 1) * 2 ^ (g.lo - (f.hi + 1)) := by
      rw [← Nat.pow_add]; congr 1; omega
    have hlt : w.toNat % 2 ^ f.lo + 2 ^ f.lo * (v % 2 ^ (f.hi + 1 - f.lo)) < 2 ^ (f.hi + 1) := by
      have hv : v % 2 ^ (f.hi + 1 - f.lo) < 2 ^ (f.hi + 1 - f.lo) := Nat.mod_lt _ (Nat.two_pow_pos _)
      have hl : w.toNat % 2 ^ f.lo < 2 ^ f.lo := Nat.mod_lt _ (Nat.two_pow_pos _)
      rw [hp]
      calc _ < 2 ^ f.lo + 2 ^ f.lo * (v % 2 ^ (f.hi + 1 - f.lo)) := by omega
        _ = 2 ^ f.lo * (v % 2 ^ (f.hi + 1 - f.lo) + 1) := by rw [Nat.mul_add, Nat.mul_one, Nat.add_comm]
        _ ≤ 2 ^ f.lo * 2 ^ (f.hi + 1 - f.lo) := Nat.mul_le_mul_left _ hv
    congr 1
    rw [hle, ← Nat.div_div_eq_div_mul, ← Nat.div_div_eq_div_mul, Nat.add_mul_div_left _ _ (Nat.two_pow_pos _),
      Nat.div_eq_of_lt hlt, Nat.zero_add]

/-- A stored field reads as written, within its bits. -/
theorem State.fld_setFld {f : Field} (hf : f.lo ≤ f.hi) (h16 : f.hi < 16) (v i : Nat) :
    (s.setFld f v i).fld f i = v % 2 ^ (f.hi + 1 - f.lo) := by
  unfold State.fld State.setFld
  rw [State.reg_setReg s, Field.of_into _ _ hf h16]

/-- A stored field that lies above or below the written one of the same register keeps its value. -/
theorem State.fld_setFld_disjoint {f g : Field} (hf : f.lo ≤ f.hi) (h16 : f.hi < 16)
    (hg : g.lo ≤ g.hi) (ha : g.addr = f.addr) (hd : g.hi < f.lo ∨ f.hi < g.lo) (v i : Nat) :
    (s.setFld f v i).fld g i = s.fld g i := by
  unfold State.fld State.setFld
  rw [ha, State.reg_setReg s, Field.of_into_ne _ _ hf h16 hg hd]

/-- A stored flag reads as written. -/
theorem State.flag_setFlag {f : Field} (hf : f.hi = f.lo) (h16 : f.hi < 16) (b : Bool)
    (i : Nat) : (s.setFlag f b i).flag f i = b := by
  unfold State.flag State.fld
  rw [State.setFlag_reg, ← State.fld, State.fld_setFld s (by omega) h16, hf, show f.lo + 1 - f.lo = 1 by omega]
  cases b <;> rfl

end Sys2Proof.Machine
end

