-- ==== Sys2Proof/Laws/Frame.lean ====
section
/-! SUPPORT.
The laws of `State.regsKept`: which register bits the shared operations leave alone.
-/
namespace Sys2Proof.Machine

/-- Register keys of instances below 256 tell address and instance apart. -/
theorem regKey_inj {a b i j : Nat} (hi : i < 256) (hj : j < 256) (h : regKey a i = regKey b j) : a = b ∧ i = j := by
  unfold regKey at h; omega

/-- A field write leaves the bits outside the field alone. -/
theorem Field.into_getLsbD {f : Field} (w : Word) (v b : Nat) (hf : f.lo ≤ f.hi) (h16 : f.hi < 16)
    (hb : ¬(f.lo ≤ b ∧ b ≤ f.hi)) : (f.into w v).getLsbD b = w.getLsbD b := by
  by_cases h : b < 16
  · have key := Field.of_into_ne (f := f) (g := ⟨0, b, b, .rw, 0, .none⟩) w v hf h16 (Nat.le_refl b) (by
      simp only; omega)
    have e : ∀ x : Word, (⟨0, b, b, .rw, 0, .none⟩ : Field).of x = (x.getLsbD b).toNat := by
      intro x
      show x.toNat / 2 ^ b % 2 ^ (b + 1 - b) = _
      rw [show b + 1 - b = 1 by omega, BitVec.getLsbD, Nat.testBit_eq_decide_div_mod_eq]
      have := Nat.mod_two_eq_zero_or_one (x.toNat / 2 ^ b)
      rcases this with h | h <;> simp [h]
    rw [e, e] at key
    cases h1 : (f.into w v).getLsbD b <;> cases h2 : w.getLsbD b <;> simp_all
  · rw [BitVec.getLsbD_of_ge _ _ (by omega), BitVec.getLsbD_of_ge _ _ (by omega)]

namespace State

variable {s t u : State} {l m : List (Field × Nat)}

/-- Equal registers are kept. -/
theorem regsKept_of_regs (h : t.regs = s.regs) (hf : t.fresh = s.fresh) : s.regsKept t l := by
  intro a i b _ _; unfold State.reg State.freshBits; rw [h, hf]; exact ⟨rfl, rfl⟩

/-- Nothing changed is kept. -/
theorem regsKept_refl : s.regsKept s l := regsKept_of_regs rfl rfl

/-- What two changes keep one after the other. -/
theorem regsKept_trans (h1 : s.regsKept t l) (h2 : t.regsKept u l) : s.regsKept u l :=
  fun a i b hi hb => ⟨(h2 a i b hi hb).1.trans (h1 a i b hi hb).1, (h2 a i b hi hb).2.trans (h1 a i b hi hb).2⟩

/-- Fewer fields changed. -/
theorem regsKept_mono (h : s.regsKept t l) (hs : ∀ x ∈ l, x ∈ m) : s.regsKept t m :=
  fun a i b hi hb => h a i b hi fun ⟨x, hx, hy⟩ => hb ⟨x, hs x hx, hy⟩

/-- A field write changes that field. -/
theorem regsKept_setFld {f : Field} {v i : Nat} (hi : i < 256) (hf : f.lo ≤ f.hi)
    (h16 : f.hi < 16) (hm : (f, i) ∈ l) : s.regsKept (s.setFld f v i) l := by
  intro a j b hj hb
  refine ⟨?_, rfl⟩
  by_cases hk : regKey a j = regKey f.addr i
  · obtain ⟨rfl, rfl⟩ := regKey_inj hj hi hk
    unfold State.setFld
    rw [State.reg_setReg s]
    exact Field.into_getLsbD _ _ _ hf h16 fun hx => hb ⟨_, hm, rfl, rfl, hx⟩
  · rw [State.reg_setFld_ne s hk]

/-- A flag write changes that flag. -/
theorem regsKept_setFlag {f : Field} {v : Bool} {i : Nat} (hi : i < 256)
    (hf : f.lo ≤ f.hi) (h16 : f.hi < 16) (hm : (f, i) ∈ l) : s.regsKept (s.setFlag f v i) l := by
  intro a j b hj hb
  refine ⟨by rw [setFlag_reg]; exact (regsKept_setFld hi hf h16 hm a j b hj hb).1, ?_⟩
  unfold State.setFlag
  dsimp only
  split
  · by_cases hk : regKey a j = regKey f.addr i
    · obtain ⟨rfl, rfl⟩ := regKey_inj hj hi hk
      have h0 := Field.into_getLsbD (f := f) 0 0xFFFF b hf h16 fun hx => hb ⟨_, hm, rfl, rfl, hx⟩
      simp only [BitVec.ofNat_eq_ofNat, BitVec.getLsbD_zero] at h0
      simp [State.markFresh, State.freshBits, BitVec.getLsbD_or, h0]
    · simp only [State.markFresh, State.freshBits, Cells.get_set_ne _ _ hk, setFld_fresh]
  · rfl

/-- A count changes its field. -/
theorem regsKept_count {f : Field} {i : Nat} (hi : i < 256)
    (hf : f.lo ≤ f.hi) (h16 : f.hi < 16) (hm : (f, i) ∈ l) : s.regsKept (s.count f i) l :=
  regsKept_setFld hi hf h16 hm

/-- A register write changes that register. -/
theorem regsKept_setReg {a : Nat} {w : Word} {i : Nat} (hi : i < 256)
    (hm : (Field.word a, i) ∈ l) : s.regsKept (s.setReg a w i) l := by
  intro c j b hj hb
  refine ⟨?_, rfl⟩
  by_cases hk : regKey c j = regKey a i
  · obtain ⟨rfl, rfl⟩ := regKey_inj hj hi hk
    by_cases hlt : b < 16
    · exact absurd ⟨_, hm, rfl, rfl, Nat.zero_le b, by show b ≤ 15; omega⟩ hb
    · rw [BitVec.getLsbD_of_ge _ _ (by omega), BitVec.getLsbD_of_ge _ _ (by omega)]
  · rw [State.reg_setReg_ne s _ hk]

/-- An event changes at most the count of lost events. -/
theorem regsKept_raise {code unit data : Nat} (hm : (F.FLT_EV_LOST_COUNT, 0) ∈ l) :
    s.regsKept (s.raise code unit data) l := by
  unfold State.raise
  split
  · exact regsKept_of_regs rfl rfl
  · exact regsKept_count (by decide) (by decide) (by decide) hm

/-- The registers stay canonical under a register write. -/
theorem setReg_wf (h : Cells.wf 0 s.regs = true) (a : Nat) (w : Word) (i : Nat) :
    Cells.wf 0 (s.setReg a w i).regs = true := Cells.wf_set h

/-- The registers stay canonical under a field write. -/
theorem setFld_wf (h : Cells.wf 0 s.regs = true) (f : Field) (v i : Nat) :
    Cells.wf 0 (s.setFld f v i).regs = true := Cells.wf_set h

/-- The registers stay canonical under a flag write. -/
theorem setFlag_wf (h : Cells.wf 0 s.regs = true) (f : Field) (v : Bool) (i : Nat) :
    Cells.wf 0 (s.setFlag f v i).regs = true := by rw [setFlag_regs]; exact setFld_wf h f _ i

/-- The registers stay canonical under a count. -/
theorem count_wf (h : Cells.wf 0 s.regs = true) (f : Field) (i : Nat) :
    Cells.wf 0 (s.count f i).regs = true := Cells.wf_set h

/-- The registers stay canonical under an event. -/
theorem raise_wf (h : Cells.wf 0 s.regs = true) (code unit data : Nat) :
    Cells.wf 0 (s.raise code unit data).regs = true := by
  unfold State.raise; split
  · exact h
  · exact count_wf h _ _

/-- The canonical form's part about registers. -/
theorem canonical_regs (h : s.canonical = true) : Cells.wf 0 s.regs = true := by
  simp only [State.canonical, Bool.and_eq_true] at h; exact h.1

end State
end Sys2Proof.Machine
end

