-- ==== Sys2Proof/Laws/Port.lean ====
section
/-! SUPPORT.
A packet that meets nothing in its way: its slot begins, it executes, it is answered, its slot ends.
-/
namespace Sys2Proof.Machine

variable {s : State} {p : Packet}

/-- The parts of `State.portFree`. -/
theorem State.portFree_iff : s.portFree p = true ↔
    s.portAnswers = true ∧ s.mem.failing = [] ∧ s.port.inSlot = false ∧ s.port.resp = .empty ∧
    s.port.burst = none ∧ s.commitDue = false ∧ (s.injArg 0x0D).isNone = true ∧
    (∀ k, s.port.kept = some k → k.1 ≠ p.bytes) ∧ p.len ≤ maxPayload ∧ p.check = none ∧ s.powerCheck p = Status.ok := by
  unfold State.portFree
  cases hk : s.port.kept <;> simp [and_assoc, State.faultFree]

/-- The slot of a packet begins with the port free: nothing but the port changes. -/
theorem State.slotBegin_free (h1 : s.portAnswers = true) (h2 : s.port.inSlot = false) (h3 : s.port.resp = .empty) :
    s.slotBegin = s.setPort { s.port with
      inSlot := true, ready := false, readyBefore := s.port.ready, undo := [], prepAtBegin := false
      pendAtBegin := false, sdo := [], sdoFill := 0xFF } := by
  simp [State.slotBegin, h1, h2, h3]

/-- Without a commit due, nothing applies before an access. -/
theorem State.dueApply_of (h : s.commitDue = false) : s.dueApply = s := by
  unfold State.dueApply
  simp only [State.commitDue, Bool.and_eq_false_iff, beq_eq_false_iff_ne] at h
  rw [if_neg]
  rintro ⟨a, b⟩
  rcases h with h | h
  · exact h a
  · exact h b

@[simp] theorem State.setPort_commitDue (x : Port) : (s.setPort x).commitDue = s.commitDue := rfl
@[simp] theorem State.setPort_injArg (x : Port) (d : Nat) : (s.setPort x).injArg d = s.injArg d := rfl
@[simp] theorem State.setPort_powerCheck (x : Port) : (s.setPort x).powerCheck p = s.powerCheck p := rfl

/-- A packet that meets nothing in its way is taken up in its slot. -/
theorem State.packetSlot_free (h : s.portFree p = true) (lost : BitVec 32) :
    s.packetSlot p lost = (if p.isBurst then s.slotBegin.burstNext ⟨p, 0, Status.ok, [], lost⟩
      else (s.slotBegin.execPacket p (lost.getLsbD 0)).finish p).closeSlot := by
  obtain ⟨h1, -, h2, h3, h10, h4, h5, h6, h7, h8, h9⟩ := State.portFree_iff.1 h
  have hlen : (hasPayload p.opcode && decide (maxPayload < p.len)) = false := by
    simp only [Bool.and_eq_false_iff, decide_eq_false_iff_not]; right; omega
  unfold State.packetSlot
  rw [State.slotBegin_free h1 h2 h3]
  simp only [State.setPort_port, Bool.not_true, Bool.false_eq_true, if_false]
  rw [show Port.release _ = { s.port with
      inSlot := true, ready := false, readyBefore := s.port.ready, undo := [], prepAtBegin := false
      pendAtBegin := false, sdo := [], sdoFill := 0xFF } by simp [Port.release, h3]]
  have hp : ∀ x : Port, (s.setPort x).setPort x = s.setPort x := fun _ => rfl
  rw [hp]
  have ha : ∀ x : Port, x.burst = none → (s.setPort x).atPacket = s.setPort x := by
    intro x hx
    simp [State.atPacket, State.endBurst, hx]
  unfold State.takePacket
  simp only [ha, h10, State.pipelineFull, State.setPort_port, h3, RespState.isPrep, Bool.false_and, Bool.or_false, hlen,
    Bool.not_true, State.setPort_injArg, Option.isSome_eq_false_iff.2 h5, Bool.false_eq_true, if_false]
  unfold State.runPacket
  have hd : ∀ x : Port, (s.setPort x).dueApply = s.setPort x := fun x => State.dueApply_of (s := s.setPort x) h4
  rw [hd]
  unfold State.freshPacket
  simp only [h8, State.setPort_powerCheck, h9, not_true_eq_false, ne_eq, if_false, State.setPort_port]
  cases hk : s.port.kept with
  | none => rfl
  | some k =>
    obtain ⟨b, r⟩ := k
    have hb : ¬b = p.bytes := h6 _ hk
    cases r <;> simp only [hb, if_false]

/-- A slot that begins under a free port leaves no BULK_WR in progress. -/
theorem State.slotBegin_undo (h : s.portFree p = true) : { s.slotBegin.port with undo := [] } = s.slotBegin.port := by
  obtain ⟨h1, -, h2, h3, -⟩ := State.portFree_iff.1 h
  rw [State.slotBegin_free h1 h2 h3]; rfl

/-- What a packet of one register or one command does: its answer. -/
def State.execOne (s : State) (p : Packet) (lost : BitVec 32) : Answer :=
  if p.isBurst then s.burstAccess ⟨p, 0, Status.ok, [], lost⟩ else s.execPacket p (lost.getLsbD 0)

/-- What an executed packet leaves: LAST_SEQ and the answered port, over the state `u` of its effect. -/
theorem State.packetSlot_answered (h : s.portFree p = true) {lost : BitVec 32} {st : Nat} {d : List Byte} {u : State}
    {undo : List (WordAddr × List Byte × Bool)} (h1 : p.isBurst = true → p.len / 2 ≤ 1)
    (hx : s.slotBegin.execOne p lost = ⟨st, d, u⟩) (hr : (p.writes && u.resetting) = false) (hf : u.mem.failing = [])
    (hd : ¬(p.opcode = 0x8A ∧ u.pwr.state = .dormant)) (hp : u.port = { s.slotBegin.port with undo := undo }) :
    s.packetSlot p lost = (u.setFld F.CP_STATUS_LAST_SEQ p.seq).setPort (Port.answered p st d
      ((u.setFld F.CP_STATUS_LAST_SEQ p.seq).flag F.CP_MODE_SPI) u.pwr.state.onSclk undo) := by
  obtain ⟨g1, -, g2, g3, g10, -⟩ := State.portFree_iff.1 h
  rw [State.packetSlot_free h]
  have hu : u.setPort { u.port with burst := none, resp := .empty } = u := by
    rw [hp, State.slotBegin_free g1 g2 g3]
    rw [State.slotBegin_free g1 g2 g3] at hp
    cases u
    simp_all [State.setPort]
  have key : (if p.isBurst then s.slotBegin.burstNext ⟨p, 0, Status.ok, [], lost⟩
      else (s.slotBegin.execPacket p (lost.getLsbD 0)).finish p) = Answer.finish ⟨st, d, u⟩ p := by
    unfold State.execOne at hx
    split
    · next hb =>
      rw [if_pos hb] at hx
      unfold State.burstNext
      simp only [hx, hr, Bool.false_eq_true, if_false, Nat.zero_add, if_true, List.nil_append, hu,
        if_neg (show ¬(1 < p.len / 2 ∧ u.mem.failing = []) from fun hh => absurd hh.1 (by have := h1 hb; omega))]
      rw [State.slotBegin_free g1 g2 g3]
      simp only [State.setPort_port, g3]
      rfl
    · next hb =>
      rw [if_neg hb] at hx
      rw [hx]
  rw [key]
  rw [State.slotBegin_free g1 g2 g3] at hp
  unfold Answer.finish
  simp only [hr, Bool.false_eq_true, if_false, State.setFld_mem, hf, List.isEmpty_nil, Bool.not_true, Bool.false_or,
    State.setFld_pwr]
  rw [if_neg (by simpa using hd)]
  simp only [State.setFld_port, hp]
  cases hw : p.wantsResponse <;> by_cases hs : st = Status.ok <;>
    simp [State.closeSlot, State.prepare, Port.answered, State.setPort, hw, hs, g3, g10, State.setFld, State.setReg,
      State.flag, State.fld, State.reg]

/-- SEQ has four bits. -/
theorem Packet.seq_lt : p.seq < 16 := Nat.mod_lt _ (by decide)

/-- An executed packet is answered, and changes no register bit but LAST_SEQ beside its effect. -/
theorem State.answers_of {u : State} {st : Nat} {d : List Byte} {undo : List (WordAddr × List Byte × Bool)} :
    ((u.setFld F.CP_STATUS_LAST_SEQ p.seq).setPort (Port.answered p st d
      ((u.setFld F.CP_STATUS_LAST_SEQ p.seq).flag F.CP_MODE_SPI) u.pwr.state.onSclk undo)).answers p st d undo := by
  refine ⟨rfl, ?_⟩
  show (u.setFld F.CP_STATUS_LAST_SEQ p.seq).fld F.CP_STATUS_LAST_SEQ = p.seq
  rw [State.fld_setFld u (by decide) (by decide)]
  exact Nat.mod_eq_of_lt p.seq_lt

/-- An executed packet, said once: it is answered, and beside its effect `u` only LAST_SEQ and the port change. -/
theorem State.packetSlot_spec (h : s.portFree p = true) {lost : BitVec 32} {st : Nat} {d : List Byte} {u : State}
    {undo : List (WordAddr × List Byte × Bool)} (h1 : p.isBurst = true → p.len / 2 ≤ 1)
    (hx : s.slotBegin.execOne p lost = ⟨st, d, u⟩) (hr : (p.writes && u.resetting) = false) (hf : u.mem.failing = [])
    (hd : ¬(p.opcode = 0x8A ∧ u.pwr.state = .dormant)) (hp : u.port = { s.slotBegin.port with undo := undo }) :
    (s.packetSlot p lost).answers p st d undo ∧
    s.packetSlot p lost = { u with regs := (s.packetSlot p lost).regs, port := (s.packetSlot p lost).port } ∧
    u.regsKept (s.packetSlot p lost) [(F.CP_STATUS_LAST_SEQ, 0)] := by
  rw [State.packetSlot_answered h h1 hx hr hf hd hp]
  refine ⟨State.answers_of, rfl, ?_⟩
  intro a i b hi hb
  exact State.regsKept_setFld (s := u) (v := p.seq) (by decide) (by decide) (by decide) List.mem_cons_self a i b hi hb

/-- The slot's beginning under a free port changes the port alone. -/
theorem State.portFree_begin (h : s.portFree p = true) : ∃ x, s.slotBegin = s.setPort x := by
  obtain ⟨h1, -, h2, h3, -⟩ := State.portFree_iff.1 h
  exact ⟨_, State.slotBegin_free h1 h2 h3⟩

end Sys2Proof.Machine
end

