-- ==== Sys2Proof/Laws/SoundMemory.lean ====
section
/-! SUPPORT.
What the operations of Machine/Ops, Flags, Memory, PixelPath keep (`Sound`), one lemma per operation.
-/
namespace Sys2Proof.Machine

variable {qu : List Instr} {mb : Part}

/-! ### Ops: crossbar events, free values -/

/-- Crossbar events keep. -/
theorem State.raiseLine_sound {s : State} {n : Nat} (h : Sound qu mb s) : Sound qu mb (s.raiseLine n) :=
  ⟨h.1, h.2, h.3, h.4, h.5, h.6, h.7⟩

/-- Marks of this tick's flags keep. -/
theorem State.markFresh_sound {s : State} {a i : Nat} {w : Word} (h : Sound qu mb s) :
    Sound qu mb (s.markFresh a w i) :=
  ⟨h.1, h.2, h.3, h.4, h.5, h.6, h.7⟩

/-- A free value taken keeps. -/
theorem State.spent_sound {s : State} (h : Sound qu mb s) : Sound qu mb s.spent :=
  ⟨h.1, h.2, h.3, h.4, h.5, h.6, h.7⟩

/-! ### Flags -/

theorem State.setAndRaise_sound {s : State} {f : Field} {code unit data : Nat} (hS : Sound qu mb s) :
    Sound qu mb (State.setAndRaise s f code unit data) := by
  unfold State.setAndRaise
  repeat' first
    | with_reducible assumption
    | with_reducible refine State.setFlag_sound ?_
    | with_reducible refine State.raise_sound ?_
    | split

theorem State.streamLoss_sound {s : State} {f : Field} {unit data : Nat} (hS : Sound qu mb s) :
    Sound qu mb (State.streamLoss s f unit data) := by
  unfold State.streamLoss
  repeat' first
    | with_reducible assumption
    | with_reducible refine State.setAndRaise_sound ?_

theorem State.injDone_sound {s : State} (hS : Sound qu mb s) :
    Sound qu mb (State.injDone s) := by
  unfold State.injDone
  dsimp only
  exact Sound.build hS fun hx => ⟨hx.regs, hx.mem, hx.events, hx.staged, hx.queue⟩

theorem State.changesTo_sound {s : State} {st : PState} (hS : Sound qu mb s) :
    Sound qu mb (State.changesTo s st) := by
  unfold State.changesTo
  dsimp only
  refine Sound.build ?_ fun hx => ⟨hx.regs, hx.mem, hx.events, hx.staged, hx.queue⟩
  split
  · exact hS
  · exact State.injDone_sound hS

/-! ### Memory -/

theorem State.writeWord_sound {s : State} {w : WordAddr} {d : List Byte} (hS : Sound qu mb s) :
    Sound qu mb (State.writeWord s w d) := by
  unfold State.writeWord
  dsimp only
  repeat' first
    | with_reducible exact hx.regs
    | with_reducible exact hx.events
    | with_reducible exact hx.staged
    | with_reducible exact hx.queue
    | with_reducible exact Memory.putRaw_wf hx.mem
    | with_reducible exact Memory.keep_wf (Memory.putRaw_wf hx.mem)
    | split
    | (with_reducible refine Sound.build ?_ (fun hx => ⟨?_, ?_, ?_, ?_, ?_⟩)
       on_goal 1 => with_reducible assumption)

theorem State.appendLog_sound {s : State} {e : FaultEntry} (hS : Sound qu mb s) :
    Sound qu mb (State.appendLog s e) := by
  unfold State.appendLog
  dsimp only
  repeat' first
    | with_reducible assumption
    | with_reducible refine State.writeWord_sound ?_
    | with_reducible refine State.setFld_sound ?_
    | with_reducible refine State.setFlag_sound ?_
    | split
    | with_reducible refine Sound.foldl _ ?_ (fun _ _ _ => ?_)

theorem State.logFault_sound {s : State} {kind store reader : Nat} {bank : Bool} {offset syn : Nat} (hS : Sound qu mb
    s) :
    Sound qu mb (State.logFault s kind store reader bank offset syn) := by
  unfold State.logFault
  dsimp only
  repeat' first
    | with_reducible refine State.setFld_sound ?_
    | with_reducible refine State.appendLog_sound ?_
    | with_reducible refine State.setFlag_sound ?_
    | with_reducible refine State.raise_sound ?_
    | with_reducible exact hx.regs
    | with_reducible exact hx.events
    | with_reducible exact hx.staged
    | with_reducible exact hx.queue
    | with_reducible exact hx.mem
    | split
    | (with_reducible refine Sound.build ?_ (fun hx => ⟨?_, ?_, ?_, ?_, ?_⟩)
       on_goal 1 => with_reducible assumption)

theorem State.readWord_sound {s : State} {rd : Reader} {inspect : Bool} {w : WordAddr} (hS : Sound qu mb s) :
    Sound qu mb ((State.readWord s rd inspect w).2) := by
  unfold State.readWord
  dsimp only
  split
  · split
    · exact hS
    · split
      · exact hS
      · dsimp only
        refine State.setFlag_sound ?_
        exact Sound.build hS fun hx => ⟨hx.regs, Memory.keepCorrected_wf hx.mem, hx.events, hx.staged, hx.queue⟩
    · have hl := State.logFault_sound (kind := kindUncorr) (store := w.store) (reader := rd.code) (bank := w.bank)
        (offset := w.offset) (syn := by assumption) hS
      exact Sound.build hl fun hx => ⟨hx.regs, Memory.keep_wf hx.mem, hx.events, hx.staged, hx.queue⟩
  · exact hS

theorem State.readWords_sound {s : State} {rd : Reader} {inspect : Bool} {id : Nat} {bank : Bool} {k : Nat} {n : Nat}
    (hS : Sound qu mb s) :
    Sound qu mb ((State.readWords s rd inspect id bank k n).2) := by
  induction n generalizing s rd inspect id bank k with
  | zero =>
    unfold State.readWords
    dsimp only
    repeat' first
      | with_reducible assumption
  | succ n ih =>
    unfold State.readWords
    repeat' first
      | with_reducible refine ih ?_
      | with_reducible assumption
      | with_reducible refine State.readWord_sound ?_
      | with_reducible refine Sound.snd ?_ (by assumption)
      | split

theorem State.readBytes_sound {s : State} {rd : Reader} {inspect : Bool} {id : Nat} {bank : Bool} {off len : Nat} (hS
    : Sound qu mb s) :
    Sound qu mb ((State.readBytes s rd inspect id bank off len).2) := by
  unfold State.readBytes
  dsimp only
  repeat' first
    | with_reducible assumption
    | with_reducible refine State.readWords_sound ?_
    | with_reducible refine Sound.snd ?_ (by assumption)
    | split

theorem State.writePart_sound {s : State} {w : WordAddr} {at_ : Nat} {d : List Byte} (hS : Sound qu mb s) :
    Sound qu mb (State.writePart s w at_ d) := by
  unfold State.writePart
  dsimp only
  repeat' first
    | with_reducible assumption
    | with_reducible refine State.writeWord_sound ?_
    | with_reducible refine State.readWord_sound ?_
    | with_reducible refine Sound.snd ?_ (by assumption)
    | with_reducible exact hx.regs
    | with_reducible exact hx.events
    | with_reducible exact hx.staged
    | with_reducible exact hx.queue
    | with_reducible exact Memory.putRaw_wf hx.mem
    | with_reducible exact Memory.keep_wf (Memory.putRaw_wf hx.mem)
    | split
    | (with_reducible refine Sound.build ?_ (fun hx => ⟨?_, ?_, ?_, ?_, ?_⟩)
       on_goal 1 => with_reducible assumption)

theorem State.writeWords_sound {s : State} {id : Nat} {bank : Bool} {off : Nat} {d : List Byte} {n : Nat} (hS : Sound
    qu mb s) :
    Sound qu mb (State.writeWords s id bank off d n) := by
  induction n generalizing s id bank off d with
  | zero =>
    unfold State.writeWords
    repeat' first
      | with_reducible assumption
  | succ n ih =>
    unfold State.writeWords
    dsimp only
    repeat' first
      | with_reducible refine ih ?_
      | with_reducible assumption
      | with_reducible refine State.writePart_sound ?_
      | split

theorem State.writeBytes_sound {s : State} {id : Nat} {bank : Bool} {off : Nat} {d : List Byte} (hS : Sound qu mb s) :
    Sound qu mb (State.writeBytes s id bank off d) := by
  unfold State.writeBytes
  repeat' first
    | with_reducible assumption
    | with_reducible refine State.writeWords_sound ?_

theorem State.usePages_sound {s : State} {ps : List Nat} {u : PageUse} (hS : Sound qu mb s) :
    Sound qu mb (State.usePages s ps u) := by
  unfold State.usePages
  repeat' first
    | with_reducible assumption
    | with_reducible refine State.usePage_sound ?_
    | with_reducible refine Sound.foldl _ ?_ (fun _ _ _ => ?_)

/-! ### PixelPath -/

theorem State.readCal_sound {s : State} {gains : List Nat} (hS : Sound qu mb s) :
    Sound qu mb ((State.readCal s gains).2.2) := by
  unfold State.readCal
  dsimp only
  repeat' first
    | with_reducible assumption
    | with_reducible refine State.readWord_sound ?_
    | with_reducible refine Sound.snd ?_ (by assumption)
    | split
    | with_reducible refine Sound.foldl_thd _ ?_ (fun _ _ _ => ?_)

end Sys2Proof.Machine
end

