-- ==== Sys2Proof/Laws/SoundSensing.lean ====
section
/-! SUPPORT.
What the operations of Machine/Spine, Position, Streaming, Temperature, AuxConv, Agate, Attention keep (`Sound`), one lemma per operation.
-/
namespace Sys2Proof.Machine

variable {qu : List Instr} {mb : Part}

/-! ### Spine -/

theorem State.setCounter_sound {s : State} {n : Nat} {c : Counter} (hS : Sound qu mb s) :
    Sound qu mb (State.setCounter s n c) := by
  unfold State.setCounter
  dsimp only
  exact Sound.build hS fun hx => ⟨hx.regs, hx.mem, hx.events, hx.staged, hx.queue⟩

theorem State.setCompare_sound {s : State} {m : Nat} {c : Compare} (hS : Sound qu mb s) :
    Sound qu mb (State.setCompare s m c) := by
  unfold State.setCompare
  dsimp only
  exact Sound.build hS fun hx => ⟨hx.regs, hx.mem, hx.events, hx.staged, hx.queue⟩

theorem State.setCapture_sound {s : State} {k : Nat} {c : Capture} (hS : Sound qu mb s) :
    Sound qu mb (State.setCapture s k c) := by
  unfold State.setCapture
  dsimp only
  exact Sound.build hS fun hx => ⟨hx.regs, hx.mem, hx.events, hx.staged, hx.queue⟩

theorem State.markStep_sound {s : State} {n : Nat} {spent : Bool} (hS : Sound qu mb s) :
    Sound qu mb (State.markStep s n spent) := by
  unfold State.markStep
  dsimp only
  repeat' first
    | with_reducible exact hx.regs
    | with_reducible exact hx.events
    | with_reducible exact hx.staged
    | with_reducible exact hx.queue
    | with_reducible exact hx.mem
    | split
    | (with_reducible refine Sound.build ?_ (fun hx => ⟨?_, ?_, ?_, ?_, ?_⟩)
       on_goal 1 => with_reducible assumption)

theorem State.markAdded_sound {s : State} {m : Nat} (hS : Sound qu mb s) :
    Sound qu mb (State.markAdded s m) := by
  unfold State.markAdded
  dsimp only
  exact Sound.build hS fun hx => ⟨hx.regs, hx.mem, hx.events, hx.staged, hx.queue⟩

theorem State.spend_sound {s : State} {n : Nat} (hS : Sound qu mb s) :
    Sound qu mb (State.spend s n) := by
  unfold State.spend
  dsimp only
  repeat' first
    | with_reducible assumption
    | with_reducible refine State.raiseLine_sound ?_
    | with_reducible refine State.markStep_sound ?_
    | with_reducible refine State.setCounter_sound ?_
    | split

theorem State.doMatch_sound {s : State} {m : Nat} (hS : Sound qu mb s) :
    Sound qu mb (State.doMatch s m) := by
  unfold State.doMatch
  dsimp only
  repeat' first
    | with_reducible assumption
    | with_reducible refine State.setCompare_sound ?_
    | with_reducible refine State.spend_sound ?_
    | with_reducible refine State.setFlag_sound ?_
    | with_reducible refine State.markAdded_sound ?_
    | with_reducible refine State.raiseLine_sound ?_
    | split

theorem State.compareOne_sound {s : State} {m : Nat} (hS : Sound qu mb s) :
    Sound qu mb (State.compareOne s m) := by
  unfold State.compareOne
  dsimp only
  repeat' first
    | with_reducible assumption
    | with_reducible refine State.doMatch_sound ?_
    | with_reducible refine State.setCompare_sound ?_
    | split

theorem State.compareAll_sound {s : State} (hS : Sound qu mb s) :
    Sound qu mb (State.compareAll s) := by
  unfold State.compareAll
  repeat' first
    | with_reducible assumption
    | with_reducible refine State.compareOne_sound ?_
    | with_reducible refine Sound.foldl _ ?_ (fun _ _ _ => ?_)

theorem State.realign_sound {s : State} {n : Nat} (hS : Sound qu mb s) :
    Sound qu mb ((State.realign s n).2) := by
  unfold State.realign
  dsimp only
  repeat' first
    | with_reducible assumption
    | with_reducible refine State.setCompare_sound ?_
    | split
    | with_reducible refine Sound.foldl_snd _ ?_ (fun _ _ _ => ?_)

theorem State.stepTo_sound {s : State} {n : Nat} {c : Counter} (hS : Sound qu mb s) :
    Sound qu mb ((State.stepTo s n c).2) := by
  unfold State.stepTo
  dsimp only
  repeat' first
    | with_reducible assumption
    | with_reducible refine State.realign_sound ?_
    | with_reducible refine State.markStep_sound ?_
    | with_reducible refine State.setCounter_sound ?_
    | split

theorem State.feedOne_sound {s : State} {n : Nat} {units : Int} (hS : Sound qu mb s) :
    Sound qu mb ((State.feedOne s n units).2) := by
  unfold State.feedOne
  dsimp only
  repeat' first
    | with_reducible assumption
    | with_reducible refine State.stepTo_sound ?_
    | split

theorem State.lockOne_sound {s : State} {n : Nat} (hS : Sound qu mb s) :
    Sound qu mb ((State.lockOne s n).2) := by
  unfold State.lockOne
  dsimp only
  repeat' first
    | with_reducible assumption
    | with_reducible refine State.stepTo_sound ?_
    | split

theorem State.followOne_sound {s : State} {kind : Move} {old : BitVec 48} {n : Nat} (hS : Sound qu mb s) :
    Sound qu mb ((State.followOne s kind old n).2) := by
  unfold State.followOne
  dsimp only
  repeat' first
    | with_reducible assumption
    | with_reducible refine State.feedOne_sound ?_
    | with_reducible refine State.lockOne_sound ?_
    | split

theorem State.eachCounter_sound {s : State} {f : State → Nat → List (Nat × Int) × State} (hS : Sound qu mb s)
    (hf : ∀ t n, Sound qu mb t → Sound qu mb (f t n).2) : Sound qu mb (State.eachCounter s f).2 := by
  unfold State.eachCounter
  exact Sound.foldl_snd _ hS fun t n ht => hf t.2 n ht

theorem State.followAll_sound {s : State} {kind : Move} {old : BitVec 48} (hS : Sound qu mb s) :
    Sound qu mb ((State.followAll s kind old).2) :=
  State.eachCounter_sound hS fun _ _ ht => State.followOne_sound ht

theorem State.countInput_sound {s : State} {n : Nat} (hS : Sound qu mb s) :
    Sound qu mb (State.countInput s n) := by
  unfold State.countInput
  repeat' first
    | with_reducible assumption
    | with_reducible refine State.feedOne_sound ?_
    | split

theorem State.underOld_sound {s : State} {old : State} {n : Nat} {f : State → Nat → List (Nat × Int) × State}
    (hS : Sound qu mb s) (hf : ∀ t n, Sound qu mb t → Sound qu mb (f t n).2) :
    Sound qu mb ((State.underOld s old n f).2) := by
  unfold State.underOld
  dsimp only
  split
  · exact hf s n hS
  · exact State.stepTo_sound hS

theorem State.goOne_sound {s : State} {go halt : Nat} {n : Nat} (hS : Sound qu mb s) :
    Sound qu mb (State.goOne s go halt n) := by
  unfold State.goOne
  dsimp only
  repeat' first
    | with_reducible assumption
    | with_reducible refine State.setCounter_sound ?_
    | split

theorem State.spnGo_sound {s : State} {go halt : Nat} (hS : Sound qu mb s) :
    Sound qu mb (State.spnGo s go halt) := by
  unfold State.spnGo
  repeat' first
    | with_reducible assumption
    | with_reducible refine State.goOne_sound ?_
    | with_reducible refine State.compareAll_sound ?_
    | with_reducible refine Sound.foldl _ ?_ (fun _ _ _ => ?_)

theorem State.lockedAs_sound {s old : State} (hS : Sound qu mb s) : Sound qu mb (State.lockedAs s old) := by
  unfold State.lockedAs
  refine Sound.foldl _ hS (fun t n ht => ?_)
  split
  · exact State.setCounter_sound ht
  · exact ht

theorem State.arm_sound {s : State} {n : Nat} (hS : Sound qu mb s) :
    Sound qu mb (State.arm s n) := by
  unfold State.arm
  dsimp only
  repeat' first
    | with_reducible assumption
    | with_reducible refine State.setCounter_sound ?_
    | split

theorem State.loadCounter_sound {s : State} {n : Nat} {lo : Word} (hS : Sound qu mb s) :
    Sound qu mb (State.loadCounter s n lo) := by
  unfold State.loadCounter
  dsimp only
  repeat' first
    | with_reducible assumption
    | with_reducible refine State.compareAll_sound ?_
    | with_reducible refine State.setCounter_sound ?_

theorem State.loadCompare_sound {s : State} {m : Nat} {lo : Word} {lost : Bool} (hS : Sound qu mb s) :
    Sound qu mb (State.loadCompare s m lo lost) := by
  unfold State.loadCompare
  dsimp only
  repeat' first
    | with_reducible assumption
    | with_reducible refine State.compareAll_sound ?_
    | with_reducible refine State.setFlag_sound ?_
    | with_reducible refine State.setCompare_sound ?_
    | split

theorem State.counterSettings_sound {s : State} {n : Nat} {cfgChanged takeDiv : Bool} (hS : Sound qu mb s) :
    Sound qu mb (State.counterSettings s n cfgChanged takeDiv) := by
  unfold State.counterSettings
  dsimp only
  repeat' first
    | with_reducible assumption
    | with_reducible refine State.setCounter_sound ?_
    | split

theorem State.enableCompare_sound {s : State} {m : Nat} (hS : Sound qu mb s) :
    Sound qu mb (State.enableCompare s m) := by
  unfold State.enableCompare
  dsimp only
  repeat' first
    | with_reducible assumption
    | with_reducible refine State.setCompare_sound ?_

theorem State.putCapture_sound {s : State} {k : Nat} {c : Capture} {ovr done : Bool} (hS : Sound qu mb s) :
    Sound qu mb (State.putCapture s k c ovr done) := by
  unfold State.putCapture
  dsimp only
  repeat' first
    | with_reducible assumption
    | with_reducible refine State.markFresh_sound ?_
    | with_reducible refine State.setCapture_sound ?_
    | split

theorem State.pulseStart_sound {s : State} {k : Nat} (hS : Sound qu mb s) :
    Sound qu mb (State.pulseStart s k) := by
  unfold State.pulseStart
  dsimp only
  repeat' first
    | with_reducible assumption
    | with_reducible refine State.putCapture_sound ?_
    | with_reducible refine State.raiseLine_sound ?_
    | split

theorem State.pulseEnd_sound {s : State} {k : Nat} (hS : Sound qu mb s) :
    Sound qu mb (State.pulseEnd s k) := by
  unfold State.pulseEnd
  dsimp only
  repeat' first
    | with_reducible assumption
    | with_reducible refine State.putCapture_sound ?_
    | with_reducible refine State.raiseLine_sound ?_
    | split

theorem State.captureTick_sound {s : State} {events : BitVec 64} {rise fall : Byte} (hS : Sound qu mb s) :
    Sound qu mb (State.captureTick s events rise fall) := by
  unfold State.captureTick
  dsimp only
  repeat' first
    | with_reducible assumption
    | with_reducible refine State.pulseStart_sound ?_
    | with_reducible refine State.pulseEnd_sound ?_
    | split
    | with_reducible refine Sound.foldl _ ?_ (fun _ _ _ => ?_)

theorem State.spineTick_sound {s : State} {old : State} {was : BitVec 48} {events : BitVec 64} {rise fall : Byte}
    (hS : Sound qu mb s) : Sound qu mb (State.spineTick s old was events rise fall) := by
  unfold State.spineTick
  refine State.eachCounter_sound (State.compareAll_sound (State.captureTick_sound
    (State.eachCounter_sound hS fun t n ht => ?_))) fun t n ht => ?_
  · exact State.underOld_sound ht fun _ _ hu => State.lockOne_sound hu
  · refine State.underOld_sound ht fun u k hu => ?_
    split
    · exact hu
    · exact State.feedOne_sound hu

theorem State.writeCaptureCfg_sound {s : State} {k : Nat} {w : Word} (hS : Sound qu mb s) :
    Sound qu mb (State.writeCaptureCfg s k w) := by
  unfold State.writeCaptureCfg
  dsimp only
  repeat' first
    | with_reducible assumption
    | with_reducible refine State.setCapture_sound ?_

/-! ### Position -/

theorem State.setPos_sound {s : State} {x : Position} (hS : Sound qu mb s) :
    Sound qu mb (State.setPos s x) := by
  unfold State.setPos
  exact Sound.build hS fun hx => ⟨hx.regs, hx.mem, hx.events, hx.staged, hx.queue⟩

theorem State.moveP_sound {s : State} {kind : Move} {new : BitVec 48} (hS : Sound qu mb s) :
    Sound qu mb ((State.moveP s kind new).2) := by
  unfold State.moveP
  dsimp only
  repeat' first
    | with_reducible assumption
    | with_reducible refine State.setPos_sound ?_
    | with_reducible refine State.followAll_sound ?_

theorem State.account_sound {s : State} {k : Int} (hS : Sound qu mb s) :
    Sound qu mb (State.account s k) := by
  unfold State.account
  dsimp only
  repeat' first
    | with_reducible assumption
    | with_reducible refine State.setPos_sound ?_
    | with_reducible refine State.countBy_sound ?_
    | split

theorem State.rebase_sound {s : State} (hS : Sound qu mb s) :
    Sound qu mb (State.rebase s) := by
  unfold State.rebase
  dsimp only
  repeat' first
    | with_reducible assumption
    | with_reducible refine State.setPos_sound ?_

theorem State.anchorAtC_sound {s : State} (hS : Sound qu mb s) :
    Sound qu mb (State.anchorAtC s) := by
  unfold State.anchorAtC
  dsimp only
  repeat' first
    | with_reducible assumption
    | with_reducible refine State.setPos_sound ?_

theorem State.stillFall_sound {s : State} (hS : Sound qu mb s) :
    Sound qu mb (State.stillFall s) := by
  unfold State.stillFall
  dsimp only
  repeat' first
    | with_reducible assumption
    | with_reducible refine State.setPos_sound ?_
    | split

theorem State.slewAdvance_sound {s : State} (hS : Sound qu mb s) :
    Sound qu mb (State.slewAdvance s) := by
  unfold State.slewAdvance
  dsimp only
  repeat' first
    | with_reducible assumption
    | with_reducible refine State.setPos_sound ?_
    | split

theorem State.encLose_sound {s : State} (hS : Sound qu mb s) :
    Sound qu mb (State.encLose s) := by
  unfold State.encLose
  dsimp only
  repeat' first
    | with_reducible assumption
    | with_reducible refine State.setPos_sound ?_
    | with_reducible refine State.setFlag_sound ?_
    | with_reducible refine State.raise_sound ?_
    | with_reducible refine State.rebase_sound ?_
    | with_reducible refine State.injectedIf_sound ?_ (fun _ _ => ?_)
    | split

theorem State.encHold_sound {s : State} {inj : Bool} (hS : Sound qu mb s) :
    Sound qu mb (State.encHold s inj) := by
  unfold State.encHold
  dsimp only
  repeat' first
    | with_reducible assumption
    | with_reducible refine State.encLose_sound ?_
    | with_reducible refine State.setPos_sound ?_
    | with_reducible refine State.moveP_sound ?_
    | with_reducible refine State.setFlag_sound ?_
    | with_reducible refine State.account_sound ?_
    | with_reducible refine State.raise_sound ?_
    | with_reducible refine State.injectedIf_sound ?_ (fun _ _ => ?_)
    | split

theorem State.holdEvent_sound {s : State} (hS : Sound qu mb s) :
    Sound qu mb (State.holdEvent s) := by
  unfold State.holdEvent
  dsimp only
  repeat' first
    | with_reducible assumption
    | with_reducible refine State.encLose_sound ?_
    | with_reducible refine State.setPos_sound ?_
    | split

theorem State.posClose_sound {s : State} (hS : Sound qu mb s) :
    Sound qu mb (State.posClose s) := by
  unfold State.posClose
  dsimp only
  repeat' first
    | with_reducible assumption
    | with_reducible refine State.encLose_sound ?_
    | with_reducible refine State.holdEvent_sound ?_
    | with_reducible refine State.encHold_sound ?_
    | split

theorem State.converge_sound {s : State} (hS : Sound qu mb s) :
    Sound qu mb (State.converge s) := by
  unfold State.converge
  dsimp only
  repeat' first
    | with_reducible assumption
    | with_reducible refine State.anchorAtC_sound ?_
    | with_reducible refine State.setPos_sound ?_
    | with_reducible refine State.moveP_sound ?_
    | with_reducible refine State.setFlag_sound ?_
    | with_reducible refine State.raise_sound ?_
    | with_reducible refine State.injectedIf_sound ?_ (fun _ _ => ?_)
    | split

theorem State.encRelocked_sound {s : State} (hS : Sound qu mb s) :
    Sound qu mb (State.encRelocked s) := by
  unfold State.encRelocked
  repeat' first
    | with_reducible assumption
    | with_reducible refine State.followAll_sound ?_
    | with_reducible refine State.converge_sound ?_
    | split

theorem State.posTick_sound {s : State} (hS : Sound qu mb s) :
    Sound qu mb (State.posTick s) := by
  unfold State.posTick
  dsimp only
  repeat' first
    | with_reducible assumption
    | with_reducible refine State.slewAdvance_sound ?_
    | with_reducible refine State.converge_sound ?_
    | with_reducible refine State.setPos_sound ?_
    | with_reducible refine State.stillFall_sound ?_
    | split

theorem State.jump_sound {s : State} (hS : Sound qu mb s) :
    Sound qu mb (State.jump s) := by
  unfold State.jump
  dsimp only
  repeat' first
    | with_reducible assumption
    | with_reducible refine State.anchorAtC_sound ?_
    | with_reducible refine State.setPos_sound ?_
    | with_reducible refine State.moveP_sound ?_
    | with_reducible refine State.account_sound ?_

theorem State.encReturn_sound {s : State} {v' : Option Rat} (hS : Sound qu mb s) :
    Sound qu mb (State.encReturn s v') := by
  unfold State.encReturn
  dsimp only
  repeat' first
    | with_reducible assumption
    | with_reducible refine State.setPos_sound ?_
    | with_reducible refine State.jump_sound ?_
    | with_reducible refine State.rebase_sound ?_
    | split

theorem State.edge_sound {s : State} {fwd : Bool} (hS : Sound qu mb s) :
    Sound qu mb (State.edge s fwd) := by
  unfold State.edge
  dsimp only
  repeat' first
    | with_reducible assumption
    | with_reducible refine State.anchorAtC_sound ?_
    | with_reducible refine State.setPos_sound ?_
    | with_reducible refine State.moveP_sound ?_
    | with_reducible refine State.encReturn_sound ?_
    | split

theorem State.index_sound {s : State} {fwd : Bool} (hS : Sound qu mb s) :
    Sound qu mb (State.index s fwd) := by
  unfold State.index
  dsimp only
  repeat' first
    | with_reducible assumption
    | with_reducible refine State.anchorAtC_sound ?_
    | with_reducible refine State.setPos_sound ?_
    | with_reducible refine State.moveP_sound ?_
    | with_reducible refine State.raiseLine_sound ?_
    | with_reducible refine State.setFlag_sound ?_
    | with_reducible refine State.injDone_sound ?_
    | with_reducible refine State.raise_sound ?_
    | with_reducible refine State.injectedIf_sound ?_ (fun _ _ => ?_)
    | split

theorem State.encLevels_sound {s : State} {a b : Bool} (hS : Sound qu mb s) :
    Sound qu mb (State.encLevels s a b) := by
  unfold State.encLevels
  dsimp only
  repeat' first
    | with_reducible assumption
    | with_reducible refine State.index_sound ?_
    | with_reducible refine State.lockedAs_sound ?_
    | with_reducible refine State.setPos_sound ?_
    | with_reducible refine State.edge_sound ?_
    | with_reducible refine State.setFlag_sound ?_
    | with_reducible refine State.injDone_sound ?_
    | split

theorem State.encZ_sound {s : State} {z : Bool} (hS : Sound qu mb s) :
    Sound qu mb (State.encZ s z) := by
  unfold State.encZ
  dsimp only
  repeat' first
    | with_reducible assumption
    | with_reducible refine State.index_sound ?_
    | with_reducible refine State.setPos_sound ?_
    | split

theorem State.preset_sound {s : State} {new : BitVec 48} (hS : Sound qu mb s) :
    Sound qu mb (State.preset s new) := by
  unfold State.preset
  dsimp only
  repeat' first
    | with_reducible assumption
    | with_reducible refine State.setPos_sound ?_
    | with_reducible refine State.moveP_sound ?_

theorem State.posConfig_sound {s : State} {old : Word} (hS : Sound qu mb s) :
    Sound qu mb (State.posConfig s old) := by
  unfold State.posConfig
  dsimp only
  repeat' first
    | with_reducible assumption
    | with_reducible refine State.setPos_sound ?_
    | split

theorem State.posWrite_sound {s : State} {part : Nat} {w : Word} (hS : Sound qu mb s) :
    Sound qu mb (State.posWrite s part w) := by
  unfold State.posWrite
  dsimp only
  repeat' first
    | with_reducible assumption
    | with_reducible refine State.setPos_sound ?_
    | split

/-! ### Streaming -/

theorem State.dropTdiLines_sound {s : State} (hS : Sound qu mb s) :
    Sound qu mb ((State.dropTdiLines s).2) := by
  unfold State.dropTdiLines
  dsimp only
  repeat' first
    | with_reducible assumption
    | with_reducible refine State.usePages_sound ?_
    | with_reducible exact hx.regs
    | with_reducible exact hx.events
    | with_reducible exact hx.staged
    | with_reducible exact hx.queue
    | with_reducible exact hx.mem
    | (with_reducible refine Sound.build ?_ (fun hx => ⟨?_, ?_, ?_, ?_, ?_⟩)
       on_goal 1 => with_reducible refine Sound.foldl _ ?_ (fun _ _ _ => ?_))

theorem State.stopRun_sound {s : State} (hS : Sound qu mb s) :
    Sound qu mb (State.stopRun s) := by
  unfold State.stopRun
  dsimp only
  repeat' first
    | with_reducible assumption
    | with_reducible refine State.setFlag_sound ?_
    | with_reducible exact hx.regs
    | with_reducible exact hx.events
    | with_reducible exact hx.staged
    | with_reducible exact hx.queue
    | with_reducible exact hx.mem
    | (with_reducible refine Sound.build ?_ (fun hx => ⟨?_, ?_, ?_, ?_, ?_⟩)
       on_goal 1 => with_reducible refine State.dropTdiLines_sound ?_)

theorem State.restartTdi_sound {s : State} (hS : Sound qu mb s) :
    Sound qu mb (State.restartTdi s) := by
  unfold State.restartTdi
  dsimp only
  repeat' first
    | with_reducible assumption
    | with_reducible refine State.dropTdiLines_sound ?_
    | with_reducible exact hx.regs
    | with_reducible exact hx.events
    | with_reducible exact hx.staged
    | with_reducible exact hx.queue
    | with_reducible exact hx.mem
    | split
    | (with_reducible refine Sound.build ?_ (fun hx => ⟨?_, ?_, ?_, ?_, ?_⟩)
       on_goal 1 => with_reducible refine State.countBy_sound ?_)

/-! ### Temperature -/

theorem State.setTmp_sound {s : State} {x : Temperature} (hS : Sound qu mb s) :
    Sound qu mb (State.setTmp s x) := by
  unfold State.setTmp
  exact Sound.build hS fun hx => ⟨hx.regs, hx.mem, hx.events, hx.staged, hx.queue⟩

theorem State.changeBand_sound {s : State} {b' : Nat} (hS : Sound qu mb s) :
    Sound qu mb (State.changeBand s b') := by
  unfold State.changeBand
  dsimp only
  repeat' first
    | with_reducible assumption
    | with_reducible refine State.restartTdi_sound ?_
    | with_reducible refine State.setTmp_sound ?_
    | with_reducible refine State.raiseLine_sound ?_
    | with_reducible refine State.setFlag_sound ?_
    | with_reducible refine State.raise_sound ?_
    | split

theorem State.sensorFault_sound {s : State} {data : Nat} (hS : Sound qu mb s) :
    Sound qu mb (State.sensorFault s data) := by
  unfold State.sensorFault
  repeat' first
    | with_reducible assumption
    | with_reducible refine State.setFlag_sound ?_
    | with_reducible refine State.raise_sound ?_

theorem State.limitEvent_sound {s : State} {f : Field} {code : Nat} {t : Int} (hS : Sound qu mb s) :
    Sound qu mb (State.limitEvent s f code t) := by
  unfold State.limitEvent
  dsimp only
  repeat' first
    | with_reducible assumption
    | with_reducible refine State.setTmp_sound ?_
    | with_reducible refine State.setFlag_sound ?_
    | with_reducible refine State.stopRun_sound ?_
    | with_reducible refine State.raise_sound ?_
    | split

theorem State.limits_sound {s : State} {t : Int} (hS : Sound qu mb s) :
    Sound qu mb (State.limits s t) := by
  unfold State.limits
  dsimp only
  repeat' first
    | with_reducible assumption
    | with_reducible refine State.setTmp_sound ?_
    | with_reducible refine State.limitEvent_sound ?_
    | split

theorem State.useTemp_sound {s : State} {t0 : Int} (hS : Sound qu mb s) :
    Sound qu mb (State.useTemp s t0) := by
  unfold State.useTemp
  dsimp only
  repeat' first
    | with_reducible assumption
    | with_reducible refine State.sensorFault_sound ?_
    | with_reducible refine State.setTmp_sound ?_
    | with_reducible refine State.limits_sound ?_
    | with_reducible refine State.changeBand_sound ?_
    | with_reducible refine State.setFlag_sound ?_
    | with_reducible refine State.injDone_sound ?_
    | with_reducible refine State.injectedIf_sound ?_ (fun _ _ => ?_)
    | split

theorem State.auxTemp_sound {s : State} {chan n : Nat} {sum : Int} {r : Nat} {sat : Bool} (hS : Sound qu mb s) :
    Sound qu mb (State.auxTemp s chan n sum r sat) := by
  unfold State.auxTemp
  dsimp only
  repeat' first
    | with_reducible assumption
    | with_reducible refine State.sensorFault_sound ?_
    | with_reducible refine State.useTemp_sound ?_
    | split

theorem State.staleNow_sound {s : State} (hS : Sound qu mb s) :
    Sound qu mb (State.staleNow s) := by
  unfold State.staleNow
  try dsimp only
  repeat' first
    | with_reducible assumption
    | with_reducible refine State.setFlag_sound ?_
    | with_reducible refine State.setTmp_sound ?_
    | with_reducible refine State.raise_sound ?_
    | with_reducible exact hx.regs
    | with_reducible exact hx.events
    | with_reducible exact hx.staged
    | with_reducible exact hx.queue
    | with_reducible exact hx.mem
    | with_reducible exact Memory.keep_wf hx.mem
    | split

theorem State.tempStale_sound {s : State} (hS : Sound qu mb s) :
    Sound qu mb (State.tempStale s) := by
  unfold State.tempStale
  repeat' first
    | with_reducible assumption
    | with_reducible refine State.staleNow_sound ?_
    | split

theorem State.tempTick_sound {s : State} (hS : Sound qu mb s) :
    Sound qu mb (State.tempTick s) := by
  unfold State.tempTick
  dsimp only
  repeat' first
    | with_reducible assumption
    | with_reducible refine State.setTmp_sound ?_
    | with_reducible refine State.tempStale_sound ?_
    | split

theorem State.tempConfig_sound {s : State} {a : Nat} {old : Word} (hS : Sound qu mb s) :
    Sound qu mb (State.tempConfig s a old) := by
  unfold State.tempConfig
  dsimp only
  repeat' first
    | with_reducible assumption
    | with_reducible refine State.setTmp_sound ?_
    | with_reducible refine State.tempStale_sound ?_
    | split

/-! ### AuxConv -/

theorem State.setSlotData_sound {s : State} {k : Nat} {d : SlotData} (hS : Sound qu mb s) :
    Sound qu mb (State.setSlotData s k d) := by
  unfold State.setSlotData
  dsimp only
  repeat' first
    | with_reducible assumption
    | with_reducible refine State.setAux_sound ?_ (fun hx => ?_)
    | with_reducible exact hx.queue

theorem State.readSlot_sound {s : State} {inj : Bool} {i : Nat} (hS : Sound qu mb s) :
    Sound qu mb ((State.readSlot s inj i).2) := by
  unfold State.readSlot
  repeat' first
    | with_reducible assumption
    | with_reducible refine State.readBytes_sound ?_
    | with_reducible refine Sound.snd ?_ (by assumption)
    | split

theorem State.dropRequest_sound {s : State} {i : Nat} (hS : Sound qu mb s) :
    Sound qu mb (State.dropRequest s i) := by
  unfold State.dropRequest
  repeat' first
    | with_reducible assumption
    | with_reducible refine State.count_sound ?_
    | with_reducible refine State.raise_sound ?_

theorem State.setRequest_sound {s : State} {i : Nat} {r : Request} (hS : Sound qu mb s) :
    Sound qu mb (State.setRequest s i r) := by
  unfold State.setRequest
  dsimp only
  repeat' first
    | with_reducible assumption
    | with_reducible refine State.setSlotData_sound ?_

theorem State.startInjected_sound {s : State} {i : Nat} {x : Slot} {frame : Option Nat} (hS : Sound qu mb s) :
    Sound qu mb (State.startInjected s i x frame) := by
  unfold State.startInjected
  dsimp only
  repeat' first
    | with_reducible assumption
    | with_reducible refine State.setAux_sound ?_ (fun hx => ?_)
    | with_reducible refine State.setRequest_sound ?_
    | with_reducible exact hx.queue

theorem State.startWaiting_sound {s : State} (hS : Sound qu mb s) :
    Sound qu mb (State.startWaiting s) := by
  unfold State.startWaiting
  repeat' first
    | with_reducible assumption
    | with_reducible refine State.dropRequest_sound ?_
    | with_reducible refine State.setRequest_sound ?_
    | with_reducible refine State.startInjected_sound ?_
    | split
    | with_reducible refine Sound.foldl _ ?_ (fun _ _ _ => ?_)

theorem State.readRound_sound {s : State} {i : Nat} {n : Nat} (hS : Sound qu mb s) :
    Sound qu mb ((State.readRound s i n).2) := by
  induction n generalizing s i with
  | zero =>
    unfold State.readRound
    dsimp only
    repeat' first
      | with_reducible assumption
  | succ n ih =>
    unfold State.readRound
    repeat' first
      | with_reducible refine ih ?_
      | with_reducible assumption
      | with_reducible refine State.readSlot_sound ?_
      | with_reducible refine Sound.snd ?_ (by assumption)
      | split

theorem State.beginRound_sound {s : State} (hS : Sound qu mb s) :
    Sound qu mb (State.beginRound s) := by
  unfold State.beginRound
  dsimp only
  repeat' first
    | with_reducible assumption
    | with_reducible refine State.setAux_sound ?_ (fun hx => ?_)
    | with_reducible refine State.readRound_sound ?_
    | with_reducible refine Sound.snd ?_ (by assumption)
    | with_reducible exact hx.queue
    | split

theorem State.endRound_sound {s : State} (hS : Sound qu mb s) :
    Sound qu mb (State.endRound s) := by
  unfold State.endRound
  dsimp only
  repeat' first
    | with_reducible assumption
    | with_reducible refine State.setAux_sound ?_ (fun hx => ?_)
    | with_reducible refine State.raiseLine_sound ?_
    | with_reducible exact hx.queue
    | split

theorem State.roundStep_sound {s : State} (hS : Sound qu mb s) :
    Sound qu mb (State.roundStep s) := by
  unfold State.roundStep
  dsimp only
  repeat' first
    | with_reducible assumption
    | with_reducible refine State.setAux_sound ?_ (fun hx => ?_)
    | with_reducible refine State.beginRound_sound ?_
    | with_reducible refine State.endRound_sound ?_
    | with_reducible exact hx.queue
    | split

theorem State.askRound_sound {s : State} (hS : Sound qu mb s) :
    Sound qu mb (State.askRound s) := by
  unfold State.askRound
  dsimp only
  repeat' first
    | with_reducible assumption
    | with_reducible refine State.setAux_sound ?_ (fun hx => ?_)
    | with_reducible refine State.beginRound_sound ?_
    | with_reducible refine State.setFlag_sound ?_
    | with_reducible refine State.roundStep_sound ?_
    | with_reducible exact hx.queue
    | split

theorem State.startSlot_sound {s : State} (hS : Sound qu mb s) :
    Sound qu mb (State.startSlot s) := by
  unfold State.startSlot
  dsimp only
  repeat' first
    | with_reducible assumption
    | with_reducible refine State.setAux_sound ?_ (fun hx => ?_)
    | with_reducible refine State.roundStep_sound ?_
    | with_reducible exact hx.queue
    | split

theorem State.unsettle_sound {s : State} {x : Slot} (hS : Sound qu mb s) :
    Sound qu mb (State.unsettle s x) := by
  unfold State.unsettle
  dsimp only
  repeat' first
    | with_reducible assumption
    | with_reducible refine State.setAux_sound ?_ (fun hx => ?_)
    | with_reducible exact hx.queue

theorem State.abortRegular_sound {s : State} (hS : Sound qu mb s) :
    Sound qu mb (State.abortRegular s) := by
  unfold State.abortRegular
  dsimp only
  repeat' first
    | with_reducible assumption
    | with_reducible refine State.unsettle_sound ?_
    | with_reducible refine State.setAux_sound ?_ (fun hx => ?_)
    | with_reducible exact hx.queue
    | split

theorem State.injAccept_sound {s : State} {i : Nat} (hS : Sound qu mb s) :
    Sound qu mb (State.injAccept s i) := by
  unfold State.injAccept
  dsimp only
  repeat' first
    | with_reducible assumption
    | with_reducible refine State.dropRequest_sound ?_
    | with_reducible refine State.readSlot_sound ?_
    | with_reducible refine State.setSlotData_sound ?_
    | with_reducible refine Sound.snd ?_ (by assumption)
    | split

theorem State.injLine_sound {s : State} {n : Nat} (hS : Sound qu mb s) :
    Sound qu mb (State.injLine s n) := by
  unfold State.injLine
  dsimp only
  repeat' first
    | with_reducible assumption
    | with_reducible refine State.count_sound ?_
    | with_reducible refine State.injAccept_sound ?_
    | with_reducible refine State.setAux_sound ?_ (fun hx => ?_)
    | with_reducible exact hx.queue
    | split
    | with_reducible refine Sound.foldl _ ?_ (fun _ _ _ => ?_)

theorem State.injEvents_sound {s : State} {lines : BitVec 64} (hS : Sound qu mb s) :
    Sound qu mb (State.injEvents s lines) := by
  unfold State.injEvents
  repeat' first
    | with_reducible assumption
    | with_reducible refine State.injLine_sound ?_
    | split
    | with_reducible refine Sound.foldl _ ?_ (fun _ _ _ => ?_)

theorem State.injRequest_sound {s : State} {i : Nat} (hS : Sound qu mb s) :
    Sound qu mb (State.injRequest s i) := by
  unfold State.injRequest
  repeat' first
    | with_reducible assumption
    | with_reducible refine State.dropRequest_sound ?_
    | with_reducible refine State.abortRegular_sound ?_
    | with_reducible refine State.injDone_sound ?_
    | with_reducible refine State.injected_sound ?_ (fun _ _ => ?_)
    | with_reducible refine State.setRequest_sound ?_
    | with_reducible refine State.startInjected_sound ?_
    | split

theorem State.enqueue_sound {s : State} {e : BitVec 32} (hS : Sound qu mb s) :
    Sound qu mb (State.enqueue s e) := by
  unfold State.enqueue
  have hs : Sound qu mb (if (s.injArg 0x0F).isSome then s.injDone else s) := by
    split
    · exact State.injDone_sound hS
    · exact hS
  dsimp only
  generalize (if (s.injArg 0x0F).isSome then s.injDone else s) = t at hs ⊢
  split
  · refine State.injectedIf_sound (State.setFlag_sound (State.count_sound ?_)) fun _ hu => State.raise_sound hu
    split
    · refine State.setAux_sound hs fun hx => ?_
      have := hx.queue
      simp only [List.length_append, List.length_drop, List.length_singleton]
      omega
    · exact hs
  · rename_i hc
    refine State.setAux_sound hs fun hx => ?_
    simp only [Bool.or_eq_true, decide_eq_true_eq, not_or, not_le] at hc
    simp only [List.length_append, List.length_singleton]
    omega

theorem State.finishRun_sound {s : State} {r : Run} {long : Bool} (hS : Sound qu mb s) :
    Sound qu mb (State.finishRun s r long) := by
  unfold State.finishRun
  extract_lets k v s1 d s2 s3 s4 a1 s5 a2 s6 s7 s8 a3 s9
  have h1 : Sound qu mb s1 := by
    dsimp only [s1]; split
    · exact State.spent_sound hS
    · exact hS
  have h2 : Sound qu mb s2 := State.setSlotData_sound h1
  have h3 : Sound qu mb s3 := State.enqueue_sound h2
  have h4 : Sound qu mb s4 := by
    dsimp only [s4]; split
    · exact State.setFlag_sound h3
    · exact h3
  have h5 : Sound qu mb s5 := by
    dsimp only [s5]; split
    · exact State.setAux_sound h4 fun hx => hx.queue
    · exact h4
  have h6 : Sound qu mb s6 := by
    dsimp only [s6]; split
    · exact State.setAux_sound h5 fun hx => hx.queue
    · exact h5
  have h7 : Sound qu mb s7 := by
    dsimp only [s7]; split
    · exact h6
    · exact State.auxTemp_sound h6
  have h8 : Sound qu mb s8 := State.unsettle_sound h7
  have h9 : Sound qu mb s9 := by
    dsimp only [s9]; split
    · exact State.raiseLine_sound (State.setAux_sound h8 fun hx => hx.queue)
    · exact State.setAux_sound h8 fun hx => hx.queue
  exact State.roundStep_sound (State.startWaiting_sound h9)

theorem State.putRun_sound {s : State} {r : Run} (hS : Sound qu mb s) :
    Sound qu mb (State.putRun s r) := by
  unfold State.putRun
  dsimp only
  repeat' first
    | with_reducible assumption
    | with_reducible refine State.setAux_sound ?_ (fun hx => ?_)
    | with_reducible exact hx.queue
    | split

theorem State.wireCheck_sound {s : State} {land vUp vDn : Nat} (hS : Sound qu mb s) :
    Sound qu mb (State.wireCheck s land vUp vDn) := by
  unfold State.wireCheck
  dsimp only
  repeat' first
    | with_reducible assumption
    | with_reducible refine State.markFresh_sound ?_
    | with_reducible refine State.injectedIf_sound ?_ (fun _ _ => ?_)
    | with_reducible refine State.setFld_sound ?_
    | with_reducible refine State.injDone_sound ?_
    | with_reducible refine State.raise_sound ?_
    | split

theorem State.conversionEnd_sound {s : State} {k : Nat} {nv : Int} (hS : Sound qu mb s) :
    Sound qu mb (State.conversionEnd s k nv) := by
  unfold State.conversionEnd
  dsimp only
  repeat' first
    | with_reducible assumption
    | with_reducible refine State.wireCheck_sound ?_
    | with_reducible refine State.finishRun_sound ?_
    | with_reducible refine State.setFlag_sound ?_
    | with_reducible refine State.putRun_sound ?_
    | split

theorem State.flashStop_sound {s : State} {going : BitVec 2} (hS : Sound qu mb s) :
    Sound qu mb (State.flashStop s going) := by
  unfold State.flashStop
  dsimp only
  repeat' first
    | with_reducible assumption
    | with_reducible refine State.finishRun_sound ?_
    | with_reducible refine State.putRun_sound ?_
    | split
    | with_reducible refine Sound.foldl _ ?_ (fun _ _ _ => ?_)

theorem State.stopNow_sound {s : State} (hS : Sound qu mb s) :
    Sound qu mb (State.stopNow s) := by
  unfold State.stopNow
  repeat' first
    | with_reducible assumption
    | with_reducible refine State.finishRun_sound ?_
    | with_reducible refine Sound.foldl _ ?_ (fun _ _ _ => ?_)

theorem State.stopPast_sound {s : State} (hS : Sound qu mb s) :
    Sound qu mb (State.stopPast s) := by
  unfold State.stopPast
  dsimp only
  repeat' first
    | with_reducible assumption
    | with_reducible refine State.finishRun_sound ?_
    | with_reducible refine State.spent_sound ?_
    | with_reducible refine State.putRun_sound ?_
    | split
    | with_reducible refine Sound.foldl _ ?_ (fun _ _ _ => ?_)

theorem State.refSettled_sound {s : State} {k : Nat} (hS : Sound qu mb s) :
    Sound qu mb (State.refSettled s k) := by
  unfold State.refSettled
  dsimp only
  repeat' first
    | with_reducible assumption
    | with_reducible refine State.setAux_sound ?_ (fun hx => ?_)
    | with_reducible exact hx.queue
    | split

theorem State.popQueue_sound {s : State} (hS : Sound qu mb s) :
    Sound qu mb ((State.popQueue s).2) := by
  unfold State.popQueue
  split
  · exact State.setAux_sound hS fun hx => hx.queue
  · rename_i e l hl
    refine State.setAux_sound hS fun hx => ?_
    have := hx.queue
    rw [hl] at this
    simp only [List.length_cons] at this
    exact Nat.le_of_succ_le this

theorem State.auxConfig_sound {s : State} {old : Word} (hS : Sound qu mb s) :
    Sound qu mb (State.auxConfig s old) := by
  unfold State.auxConfig
  dsimp only
  repeat' first
    | with_reducible assumption
    | with_reducible refine State.unsettle_sound ?_
    | with_reducible refine State.startWaiting_sound ?_
    | with_reducible refine State.setAux_sound ?_ (fun hx => ?_)
    | with_reducible refine State.roundStep_sound ?_
    | with_reducible exact hx.queue
    | split
    | with_reducible refine Sound.foldl _ ?_ (fun _ _ _ => ?_)

theorem State.auxSwap_sound {s : State} {oldBank : Bool} (hS : Sound qu mb s) :
    Sound qu mb (State.auxSwap s oldBank) := by
  unfold State.auxSwap
  dsimp only
  repeat' first
    | with_reducible assumption
    | with_reducible refine State.setSlotData_sound ?_
    | with_reducible refine State.setAux_sound ?_ (fun hx => ?_)
    | with_reducible exact hx.queue
    | split
    | with_reducible refine Sound.foldl _ ?_ (fun _ _ _ => ?_)

/-! ### Agate -/

theorem State.setEngine_sound {s : State} {e : Nat} {x : Engine} (hS : Sound qu mb s) :
    Sound qu mb (State.setEngine s e x) := by
  unfold State.setEngine
  dsimp only
  exact Sound.build hS fun hx => ⟨hx.regs, hx.mem, hx.events, hx.staged, hx.queue⟩

theorem State.readRow_sound {s : State} {e : Nat} (hS : Sound qu mb s) :
    Sound qu mb ((State.readRow s e).2) := by
  unfold State.readRow
  repeat' first
    | with_reducible assumption
    | with_reducible refine State.readBytes_sound ?_
    | with_reducible refine Sound.snd ?_ (by assumption)
    | split

theorem State.sticky_sound {s : State} {e mask : Nat} (hS : Sound qu mb s) :
    Sound qu mb (State.sticky s e mask) := by
  unfold State.sticky
  dsimp only
  repeat' first
    | with_reducible assumption
    | with_reducible refine State.markFresh_sound ?_
    | with_reducible refine State.setReg_sound ?_
    | with_reducible refine State.raise_sound ?_
    | split

theorem State.conflicts_sound {s : State} (hS : Sound qu mb s) :
    Sound qu mb (State.conflicts s) := by
  unfold State.conflicts
  repeat' first
    | with_reducible assumption
    | with_reducible refine State.sticky_sound ?_
    | split
    | with_reducible refine Sound.foldl _ ?_ (fun _ _ _ => ?_)

theorem State.atPins_sound {s : State} {pins edges : Byte} (hS : Sound qu mb s) :
    Sound qu mb (State.atPins s pins edges) := by
  unfold State.atPins
  dsimp only
  exact Sound.build hS fun hx => ⟨hx.regs, hx.mem, hx.events, hx.staged, hx.queue⟩

theorem State.drive_sound {s : State} (hS : Sound qu mb s) :
    Sound qu mb (State.drive s) := by
  unfold State.drive
  dsimp only
  exact Sound.build hS fun hx => ⟨hx.regs, hx.mem, hx.events, hx.staged, hx.queue⟩

theorem State.skipRows_sound {s : State} {e : Nat} (hS : Sound qu mb s) :
    Sound qu mb (State.skipRows s e) := by
  unfold State.skipRows
  dsimp only
  repeat' first
    | with_reducible assumption
    | with_reducible refine State.setEngine_sound ?_
    | split

theorem State.trace_sound {s : State} {e : Nat} {b : List Byte} (hS : Sound qu mb s) :
    Sound qu mb (State.trace s e b) := by
  unfold State.trace
  dsimp only
  repeat' first
    | with_reducible assumption
    | with_reducible refine State.writeBytes_sound ?_
    | with_reducible refine State.setFld_sound ?_
    | with_reducible refine State.setFlag_sound ?_
    | split

theorem State.executeRow_sound {s : State} {e : Nat} {r : Row} {levels : Byte} {inj tmo : Bool} (hS : Sound qu mb s) :
    Sound qu mb (State.executeRow s e r levels inj tmo) := by
  unfold State.executeRow
  dsimp only
  repeat' first
    | with_reducible assumption
    | with_reducible refine State.conflicts_sound ?_
    | with_reducible refine State.sticky_sound ?_
    | with_reducible refine State.trace_sound ?_
    | with_reducible exact hx.regs
    | with_reducible exact hx.events
    | with_reducible exact hx.staged
    | with_reducible exact hx.queue
    | with_reducible exact hx.mem
    | split
    | (with_reducible refine Sound.build ?_ (fun hx => ⟨?_, ?_, ?_, ?_, ?_⟩)
       on_goal 1 => with_reducible refine State.setEngine_sound ?_)

theorem State.haltEngine_sound {s : State} {e : Nat} {why : HaltWhy} (hS : Sound qu mb s) :
    Sound qu mb (State.haltEngine s e why) := by
  unfold State.haltEngine
  dsimp only
  repeat' first
    | with_reducible assumption
    | with_reducible refine State.setEngine_sound ?_

theorem State.slot_sound {s : State} {e : Nat} {r : Row} {levels : Byte} {expired : Bool} (hS : Sound qu mb s) :
    Sound qu mb (State.slot s e r levels expired) := by
  unfold State.slot
  try dsimp only
  repeat' first
    | with_reducible assumption
    | with_reducible refine State.executeRow_sound ?_
    | with_reducible refine State.setEngine_sound ?_
    | with_reducible exact hx.regs
    | with_reducible exact hx.events
    | with_reducible exact hx.staged
    | with_reducible exact hx.queue
    | with_reducible exact hx.mem
    | with_reducible exact Memory.keep_wf hx.mem
    | split

theorem State.stepDone_sound {s : State} {e : Nat} (hS : Sound qu mb s) :
    Sound qu mb (State.stepDone s e) := by
  unfold State.stepDone
  repeat' first
    | with_reducible assumption
    | with_reducible refine State.haltEngine_sound ?_
    | split

theorem State.newCycle_sound {s : State} {e : Nat} (hS : Sound qu mb s) :
    Sound qu mb (State.newCycle s e) := by
  unfold State.newCycle
  dsimp only
  repeat' first
    | with_reducible assumption
    | with_reducible refine State.setEngine_sound ?_

theorem State.useCycle_sound {s : State} {e : Nat} {r : Row} {expired : Bool} (hS : Sound qu mb s) :
    Sound qu mb (State.useCycle s e r expired) := by
  unfold State.useCycle
  dsimp only
  repeat' first
    | with_reducible assumption
    | with_reducible refine State.executeRow_sound ?_
    | with_reducible refine State.slot_sound ?_
    | with_reducible refine State.haltEngine_sound ?_
    | with_reducible refine State.stepDone_sound ?_
    | with_reducible refine State.sticky_sound ?_
    | split

theorem State.engineCycle_sound {s : State} {e : Nat} {expired : Bool} (hS : Sound qu mb s) :
    Sound qu mb (State.engineCycle s e expired) := by
  unfold State.engineCycle
  repeat' first
    | with_reducible assumption
    | with_reducible refine State.readRow_sound ?_
    | with_reducible refine State.skipRows_sound ?_
    | with_reducible refine State.useCycle_sound ?_
    | with_reducible refine State.newCycle_sound ?_
    | with_reducible refine Sound.snd ?_ (by assumption)
    | split

theorem State.waitLimit_sound {s : State} {e : Nat} (hS : Sound qu mb s) :
    Sound qu mb (State.waitLimit s e) := by
  unfold State.waitLimit
  repeat' first
    | with_reducible assumption
    | with_reducible refine State.engineCycle_sound ?_
    | split

theorem State.injectedRow_sound {s : State} {e : Nat} (hS : Sound qu mb s) :
    Sound qu mb (State.injectedRow s e) := by
  unfold State.injectedRow
  repeat' first
    | with_reducible assumption
    | with_reducible refine State.readRow_sound ?_
    | with_reducible refine State.executeRow_sound ?_
    | with_reducible refine Sound.snd ?_ (by assumption)
    | split

theorem State.agtGo_sound {s : State} {start halt step : Nat} (hS : Sound qu mb s) :
    Sound qu mb (State.agtGo s start halt step) := by
  unfold State.agtGo
  dsimp only
  repeat' first
    | with_reducible assumption
    | with_reducible refine State.setEngine_sound ?_
    | split
    | with_reducible refine Sound.foldl _ ?_ (fun _ _ _ => ?_)

theorem State.forceHalt_sound {s : State} {mask : Nat} (hS : Sound qu mb s) :
    Sound qu mb (State.forceHalt s mask) := by
  unfold State.forceHalt
  dsimp only
  repeat' first
    | with_reducible assumption
    | with_reducible refine State.sticky_sound ?_
    | with_reducible refine State.haltEngine_sound ?_
    | split
    | with_reducible refine Sound.foldl _ ?_ (fun _ _ _ => ?_)

theorem State.injectPart_sound {s : State} {e : Nat} {w : Word} (hS : Sound qu mb s) :
    Sound qu mb (State.injectPart s e w) := by
  unfold State.injectPart
  dsimp only
  repeat' first
    | with_reducible assumption
    | with_reducible refine State.setEngine_sound ?_
    | split

theorem State.clearParts_sound {s : State} (hS : Sound qu mb s) :
    Sound qu mb (State.clearParts s) := by
  unfold State.clearParts
  dsimp only
  exact Sound.build hS fun hx => ⟨hx.regs, hx.mem, hx.events, hx.staged, hx.queue⟩

theorem State.fifoPush_sound {s : State} {e : Nat} {w : Word} (hS : Sound qu mb s) :
    Sound qu mb (State.fifoPush s e w) := by
  unfold State.fifoPush
  dsimp only
  repeat' first
    | with_reducible assumption
    | with_reducible refine State.sticky_sound ?_
    | with_reducible refine State.setEngine_sound ?_
    | split

theorem State.fifoPop_sound {s : State} {e : Nat} (hS : Sound qu mb s) :
    Sound qu mb ((State.fifoPop s e).2) := by
  unfold State.fifoPop
  dsimp only
  repeat' first
    | with_reducible assumption
    | with_reducible refine State.sticky_sound ?_
    | with_reducible refine State.setEngine_sound ?_
    | split

theorem State.writeCore_sound {s : State} {e : Nat} {w : Word} (hS : Sound qu mb s) :
    Sound qu mb (State.writeCore s e w) := by
  unfold State.writeCore
  dsimp only
  repeat' first
    | with_reducible assumption
    | with_reducible refine State.setEngine_sound ?_

theorem State.agtClose_sound {s : State} (hS : Sound qu mb s) :
    Sound qu mb (State.agtClose s) := by
  unfold State.agtClose
  dsimp only
  repeat' first
    | with_reducible exact hx.regs
    | with_reducible exact hx.events
    | with_reducible exact hx.staged
    | with_reducible exact hx.queue
    | with_reducible exact hx.mem
    | split
    | (with_reducible refine Sound.build ?_ (fun hx => ⟨?_, ?_, ?_, ?_, ?_⟩)
       on_goal 1 => with_reducible assumption)

theorem State.agtOpen_sound {s : State} (hS : Sound qu mb s) :
    Sound qu mb (State.agtOpen s) := by
  unfold State.agtOpen
  dsimp only
  exact Sound.build hS fun hx => ⟨hx.regs, hx.mem, hx.events, hx.staged, hx.queue⟩

theorem State.agtDrive_sound {s : State} (hS : Sound qu mb s) :
    Sound qu mb (State.agtDrive s) := by
  unfold State.agtDrive
  repeat' first
    | with_reducible assumption
    | with_reducible refine State.drive_sound ?_
    | with_reducible refine State.conflicts_sound ?_
    | split

theorem State.haltForTest_sound {s : State} (hS : Sound qu mb s) :
    Sound qu mb (State.haltForTest s) := by
  unfold State.haltForTest
  dsimp only
  repeat' first
    | with_reducible assumption
    | with_reducible refine State.setEngine_sound ?_
    | with_reducible refine State.drive_sound ?_
    | with_reducible refine Sound.foldl _ ?_ (fun _ _ _ => ?_)

/-! ### Attention -/

theorem State.beginLbist_sound {s : State} (hS : Sound qu mb s) :
    Sound qu mb (State.beginLbist s) := by
  unfold State.beginLbist
  dsimp only
  exact Sound.build hS fun hx => ⟨hx.regs, hx.mem, hx.events, hx.staged, hx.queue⟩

end Sys2Proof.Machine
end

