-- ==== Sys2Proof/Laws/SoundImaging.lean ====
section
/-! SUPPORT.
What the operations of Machine/PBus, Lanes, Conversion, Bindery, Exposure keep (`Sound`), one lemma per operation.
-/
namespace Sys2Proof.Machine

variable {qu : List Instr} {mb : Part}

/-! ### PBus -/

theorem State.setPB_sound {s : State} {x : PBus} (hS : Sound qu mb s) :
    Sound qu mb (State.setPB s x) := by
  unfold State.setPB
  exact Sound.build hS fun hx => ⟨hx.regs, hx.mem, hx.events, hx.staged, hx.queue⟩

theorem State.startOwn_sound {s : State} {job : BusJob} (hS : Sound qu mb s) :
    Sound qu mb (State.startOwn s job) := by
  unfold State.startOwn
  dsimp only
  repeat' first
    | with_reducible assumption
    | with_reducible refine State.setPB_sound ?_
    | split

theorem State.ownEnded_sound {s : State} {job : BusJob} {err : BusError} {data : List Byte} (hS : Sound qu mb s) :
    Sound qu mb (State.ownEnded s job err data) := by
  unfold State.ownEnded
  repeat' first
    | with_reducible assumption
    | with_reducible refine State.startOwn_sound ?_
    | with_reducible refine State.beginLbist_sound ?_
    | with_reducible refine State.setFld_sound ?_
    | with_reducible refine State.setFlag_sound ?_
    | split

theorem State.endTransfer_sound {s : State} {t : Transfer} {err : BusError} {data : List Byte} (hS : Sound qu mb s) :
    Sound qu mb (State.endTransfer s t err data) := by
  unfold State.endTransfer
  dsimp only
  repeat' first
    | with_reducible assumption
    | with_reducible refine State.setFld_sound ?_
    | with_reducible refine State.setPB_sound ?_
    | with_reducible refine State.setFlag_sound ?_
    | with_reducible refine State.ownEnded_sound ?_
    | with_reducible refine State.raise_sound ?_
    | split

theorem State.putTransfer_sound {s : State} {t : Transfer} (hS : Sound qu mb s) :
    Sound qu mb (State.putTransfer s t) := by
  unfold State.putTransfer
  dsimp only
  repeat' first
    | with_reducible assumption
    | with_reducible refine State.setPB_sound ?_

theorem State.loseAttempt_sound {s : State} {t : Transfer} (hS : Sound qu mb s) :
    Sound qu mb (State.loseAttempt s t) := by
  unfold State.loseAttempt
  dsimp only
  repeat' first
    | with_reducible assumption
    | with_reducible refine State.endTransfer_sound ?_
    | with_reducible refine State.putTransfer_sound ?_
    | with_reducible refine State.count_sound ?_
    | split

theorem State.sendStart_sound {s : State} {t : Transfer} (hS : Sound qu mb s) :
    Sound qu mb (State.sendStart s t) := by
  unfold State.sendStart
  repeat' first
    | with_reducible assumption
    | with_reducible refine State.loseAttempt_sound ?_
    | with_reducible refine State.endTransfer_sound ?_
    | with_reducible refine State.putTransfer_sound ?_
    | with_reducible refine State.injected_sound ?_ (fun _ _ => ?_)
    | with_reducible refine State.setFlag_sound ?_
    | with_reducible refine State.injDone_sound ?_
    | split

theorem State.busFree_sound {s : State} (hS : Sound qu mb s) :
    Sound qu mb (State.busFree s) := by
  unfold State.busFree
  repeat' first
    | with_reducible assumption
    | with_reducible refine State.sendStart_sound ?_
    | with_reducible refine State.setPB_sound ?_
    | split

theorem State.backoffEnd_sound {s : State} (hS : Sound qu mb s) :
    Sound qu mb (State.backoffEnd s) := by
  unfold State.backoffEnd
  repeat' first
    | with_reducible assumption
    | with_reducible refine State.sendStart_sound ?_
    | with_reducible refine State.setPB_sound ?_
    | split

theorem State.arbLost_sound {s : State} {winner : Option Byte} (hS : Sound qu mb s) :
    Sound qu mb (State.arbLost s winner) := by
  unfold State.arbLost
  dsimp only
  repeat' first
    | with_reducible assumption
    | with_reducible refine State.loseAttempt_sound ?_
    | with_reducible refine State.setPB_sound ?_
    | split

theorem State.arbSr_sound {s : State} (hS : Sound qu mb s) :
    Sound qu mb (State.arbSr s) := by
  unfold State.arbSr
  repeat' first
    | with_reducible assumption
    | with_reducible refine State.endTransfer_sound ?_
    | with_reducible refine State.count_sound ?_
    | split

theorem State.fillBuffer_sound {s : State} {d : List Byte} (hS : Sound qu mb s) :
    Sound qu mb (State.fillBuffer s d) := by
  unfold State.fillBuffer
  dsimp only
  repeat' first
    | with_reducible assumption
    | with_reducible refine State.setPB_sound ?_

theorem State.received_sound {s : State} {t : Transfer} {d : List Byte} (hS : Sound qu mb s) :
    Sound qu mb (State.received s t d) := by
  unfold State.received
  repeat' first
    | with_reducible assumption
    | with_reducible refine State.fillBuffer_sound ?_
    | split

theorem State.busDone_sound {s : State} {e : BusEnd} (hS : Sound qu mb s) :
    Sound qu mb (State.busDone s e) := by
  unfold State.busDone
  dsimp only
  repeat' first
    | with_reducible assumption
    | with_reducible refine State.endTransfer_sound ?_
    | with_reducible refine State.putTransfer_sound ?_
    | with_reducible refine State.injected_sound ?_ (fun _ _ => ?_)
    | with_reducible refine State.count_sound ?_
    | with_reducible refine State.received_sound ?_
    | with_reducible refine State.injDone_sound ?_
    | with_reducible refine State.arbSr_sound ?_
    | split

theorem State.pollEnd_sound {s : State} {acknowledged : Bool} (hS : Sound qu mb s) :
    Sound qu mb (State.pollEnd s acknowledged) := by
  unfold State.pollEnd
  repeat' first
    | with_reducible assumption
    | with_reducible refine State.endTransfer_sound ?_
    | split

theorem State.recovered_sound {s : State} {freed : Bool} (hS : Sound qu mb s) :
    Sound qu mb (State.recovered s freed) := by
  unfold State.recovered
  dsimp only
  repeat' first
    | with_reducible assumption
    | with_reducible refine State.endTransfer_sound ?_
    | with_reducible refine State.setFlag_sound ?_
    | split

theorem State.sclStuck_sound {s : State} (hS : Sound qu mb s) :
    Sound qu mb (State.sclStuck s) := by
  unfold State.sclStuck
  repeat' first
    | with_reducible assumption
    | with_reducible refine State.endTransfer_sound ?_
    | split

theorem State.startHost_sound {s : State} {op : BusOp} {wlen rlen : Nat} (hS : Sound qu mb s) :
    Sound qu mb (State.startHost s op wlen rlen) := by
  unfold State.startHost
  dsimp only
  repeat' first
    | with_reducible assumption
    | with_reducible refine State.endTransfer_sound ?_
    | with_reducible refine State.putTransfer_sound ?_
    | with_reducible refine State.setFld_sound ?_
    | with_reducible refine State.setFlag_sound ?_
    | split

theorem State.abortHost_sound {s : State} (hS : Sound qu mb s) :
    Sound qu mb (State.abortHost s) := by
  unfold State.abortHost
  repeat' first
    | with_reducible assumption
    | with_reducible refine State.endTransfer_sound ?_
    | with_reducible refine State.putTransfer_sound ?_
    | split

theorem State.writeXfer_sound {s : State} {w : Word} (hS : Sound qu mb s) :
    Sound qu mb (State.writeXfer s w) := by
  unfold State.writeXfer
  dsimp only
  repeat' first
    | with_reducible assumption
    | with_reducible refine State.setFld_sound ?_
    | with_reducible refine State.abortHost_sound ?_
    | with_reducible refine State.startHost_sound ?_
    | split

theorem State.bufferNext_sound {s : State} (hS : Sound qu mb s) :
    Sound qu mb (State.bufferNext s) := by
  unfold State.bufferNext
  repeat' first
    | with_reducible assumption
    | with_reducible refine State.setFld_sound ?_

theorem State.bufferWrite_sound {s : State} {w : Word} (hS : Sound qu mb s) :
    Sound qu mb (State.bufferWrite s w) := by
  unfold State.bufferWrite
  dsimp only
  repeat' first
    | with_reducible assumption
    | with_reducible refine State.setPB_sound ?_
    | with_reducible refine State.bufferNext_sound ?_

theorem State.targetPointer_sound {s : State} {b : Byte} (hS : Sound qu mb s) :
    Sound qu mb (State.targetPointer s b) := by
  unfold State.targetPointer
  dsimp only
  repeat' first
    | with_reducible assumption
    | with_reducible refine State.setPB_sound ?_
    | split

theorem State.targetStop_sound {s : State} (hS : Sound qu mb s) :
    Sound qu mb (State.targetStop s) := by
  unfold State.targetStop
  dsimp only
  repeat' first
    | with_reducible assumption
    | with_reducible refine State.setPB_sound ?_

/-! ### Lanes -/

theorem State.setLane_sound {s : State} {q : Nat} {x : Lane} (hS : Sound qu mb s) :
    Sound qu mb (State.setLane s q x) := by
  unfold State.setLane
  dsimp only
  exact Sound.build hS fun hx => ⟨hx.regs, hx.mem, hx.events, hx.staged, hx.queue⟩

theorem State.dropFolio_sound {s : State} {q : Nat} (hS : Sound qu mb s) :
    Sound qu mb (State.dropFolio s q) := by
  unfold State.dropFolio
  dsimp only
  repeat' first
    | with_reducible assumption
    | with_reducible refine State.streamLoss_sound ?_
    | with_reducible refine State.count_sound ?_
    | with_reducible refine State.setLane_sound ?_

theorem State.spillFolio_sound {s : State} {q p : Nat} {f : Folio} (hS : Sound qu mb s) :
    Sound qu mb (State.spillFolio s q p f) := by
  unfold State.spillFolio
  dsimp only
  repeat' first
    | with_reducible assumption
    | with_reducible refine State.usePage_sound ?_
    | with_reducible refine State.writeBytes_sound ?_
    | with_reducible refine State.setLane_sound ?_
    | with_reducible refine State.setFlag_sound ?_

theorem State.assemble_sound {s : State} {f : Folio} (hS : Sound qu mb s) :
    Sound qu mb (State.assemble s f) := by
  unfold State.assemble
  dsimp only
  repeat' first
    | with_reducible assumption
    | with_reducible refine State.injected_sound ?_ (fun _ _ => ?_)
    | with_reducible refine State.setLane_sound ?_
    | with_reducible refine State.dropFolio_sound ?_
    | with_reducible refine State.spillFolio_sound ?_
    | with_reducible refine State.injDone_sound ?_
    | split

theorem State.unspillOne_sound {s : State} {q : Nat} (hS : Sound qu mb s) :
    Sound qu mb (State.unspillOne s q) := by
  unfold State.unspillOne
  dsimp only
  repeat' first
    | with_reducible assumption
    | with_reducible refine State.readBytes_sound ?_
    | with_reducible refine State.usePage_sound ?_
    | with_reducible refine State.setLane_sound ?_
    | with_reducible refine Sound.snd ?_ (by assumption)
    | split

theorem State.unspill_sound {s : State} {q : Nat} {n : Nat} (hS : Sound qu mb s) :
    Sound qu mb (State.unspill s q n) := by
  induction n generalizing s q with
  | zero =>
    unfold State.unspill
    repeat' first
      | with_reducible assumption
  | succ n ih =>
    unfold State.unspill
    dsimp only
    repeat' first
      | with_reducible refine ih ?_
      | with_reducible assumption
      | with_reducible refine State.unspillOne_sound ?_
      | split

theorem State.marker_sound {s : State} {q : Nat} (hS : Sound qu mb s) :
    Sound qu mb (State.marker s q) := by
  unfold State.marker
  dsimp only
  repeat' first
    | with_reducible assumption
    | with_reducible refine State.setLane_sound ?_
    | split

theorem State.handed_sound {s : State} {q : Nat} (hS : Sound qu mb s) :
    Sound qu mb (State.handed s q) := by
  unfold State.handed
  dsimp only
  repeat' first
    | with_reducible assumption
    | with_reducible refine State.unspill_sound ?_
    | with_reducible refine State.setLane_sound ?_
    | with_reducible refine State.spent_sound ?_
    | split

theorem State.stopLanes_sound {s : State} {how : FolioEnd} (hS : Sound qu mb s) :
    Sound qu mb (State.stopLanes s how) := by
  unfold State.stopLanes
  dsimp only
  repeat' first
    | with_reducible refine State.usePages_sound ?_
    | with_reducible exact hx.regs
    | with_reducible exact hx.events
    | with_reducible exact hx.staged
    | with_reducible exact hx.queue
    | with_reducible exact hx.mem
    | (with_reducible refine Sound.build ?_ (fun hx => ⟨?_, ?_, ?_, ?_, ?_⟩)
       on_goal 1 => with_reducible assumption)

theorem State.cutLanes_sound {s : State} (hS : Sound qu mb s) :
    Sound qu mb (State.cutLanes s) := by
  unfold State.cutLanes
  repeat' first
    | with_reducible assumption
    | with_reducible refine State.stopLanes_sound ?_

theorem State.clearLanes_sound {s : State} (hS : Sound qu mb s) :
    Sound qu mb (State.clearLanes s) := by
  unfold State.clearLanes
  dsimp only
  repeat' first
    | with_reducible assumption
    | with_reducible exact hx.regs
    | with_reducible exact hx.events
    | with_reducible exact hx.staged
    | with_reducible exact hx.queue
    | with_reducible exact hx.mem
    | (with_reducible refine Sound.build ?_ (fun hx => ⟨?_, ?_, ?_, ?_, ?_⟩)
       on_goal 1 => with_reducible refine State.stopLanes_sound ?_)

theorem State.annex_sound {s : State} {n q kind count : Nat} {payload : List Byte} {took : State → State}
    (h : Sound qu mb s) (ht : ∀ t, Sound qu mb t → Sound qu mb (took t)) :
    Sound qu mb (State.annex s n q kind count payload took) := by
  unfold State.annex
  dsimp only
  split
  · refine ht _ ?_
    have hl := State.setLane_sound (q := q)
      (x := { s.lane q with fifo := (s.lane q).fifo ++ [s.annexFolio n q kind count payload] }) h
    exact ⟨hl.1, hl.2, hl.3, hl.4, hl.5, hl.6, hl.7⟩
  · exact State.streamLoss_sound h

theorem markCarried_length (n : Nat) (es : List Event) : (markCarried n es).length = es.length := by
  induction es generalizing n with
  | nil => cases n <;> rfl
  | cons e es ih =>
    cases n <;> simp only [markCarried] <;> split <;> simp [ih]

theorem State.annexPoint_sound {s : State} {frame : Option Nat} {q : Nat} {due : Bool} (hS : Sound qu mb s) :
    Sound qu mb (State.annexPoint s frame q due) := by
  unfold State.annexPoint
  dsimp only
  split
  · exact hS
  have h1 : Sound qu mb (if (s.flag F.LN_ANNEX_STATUS_EN &&
      (q == s.fld F.LN_ANNEX_LANE || s.flag F.LN_ANNEX_STATUS_ALL) && due) = true then
        s.annex (s.annexFrame frame) q 1 1 s.statusPayload id else s) := by
    split
    · exact State.annex_sound hS fun _ ht => ht
    · exact hS
  generalize (if (s.flag F.LN_ANNEX_STATUS_EN &&
      (q == s.fld F.LN_ANNEX_LANE || s.flag F.LN_ANNEX_STATUS_ALL) && due) = true then
        s.annex (s.annexFrame frame) q 1 1 s.statusPayload id else s) = t at h1 ⊢
  have h2 : Sound qu mb (if (q == s.fld F.LN_ANNEX_LANE && t.flag F.LN_ANNEX_AUX_EN && !t.aux.queue.isEmpty) = true then
      t.annex (s.annexFrame frame) q 2 (min 64 t.aux.queue.length)
        ((t.aux.queue.take (min 64 t.aux.queue.length)).flatMap fun e => bytesBE 4 e.toNat)
          fun u => u.setAux { u.aux with queue := u.aux.queue.drop (min 64 t.aux.queue.length) } else t) := by
    split
    · refine State.annex_sound h1 fun u hu => State.setAux_sound hu fun hx => ?_
      have := hx.queue
      simp only [List.length_drop]
      omega
    · exact h1
  generalize (if (q == s.fld F.LN_ANNEX_LANE && t.flag F.LN_ANNEX_AUX_EN && !t.aux.queue.isEmpty) = true then
      t.annex (s.annexFrame frame) q 2 (min 64 t.aux.queue.length)
        ((t.aux.queue.take (min 64 t.aux.queue.length)).flatMap fun e => bytesBE 4 e.toNat)
          fun u => u.setAux { u.aux with queue := u.aux.queue.drop (min 64 t.aux.queue.length) } else t) = v at h2 ⊢
  split
  · refine State.annex_sound h2 fun u hu => ?_
    refine Sound.build hu fun hx => ⟨hx.regs, hx.mem, ?_, hx.staged, hx.queue⟩
    rw [markCarried_length]
    exact hx.events
  · exact h2

/-! ### Conversion -/

theorem State.setCnv_sound {s : State} {x : Conversion} (hS : Sound qu mb s) :
    Sound qu mb (State.setCnv s x) := by
  unfold State.setCnv
  exact Sound.build hS fun hx => ⟨hx.regs, hx.mem, hx.events, hx.staged, hx.queue⟩

theorem State.checkWave_sound {s : State} {k : Nat} (hS : Sound qu mb s) :
    Sound qu mb ((State.checkWave s k).2) := by
  unfold State.checkWave
  dsimp only
  repeat' first
    | with_reducible assumption
    | with_reducible refine State.readBytes_sound ?_
    | with_reducible refine Sound.snd ?_ (by assumption)
    | split

theorem State.checkWaves_sound {s : State} (hS : Sound qu mb s) :
    Sound qu mb (State.checkWaves s) := by
  unfold State.checkWaves
  dsimp only
  repeat' first
    | with_reducible assumption
    | with_reducible refine State.setCnv_sound ?_
    | with_reducible refine State.setFlag_sound ?_
    | with_reducible refine State.checkWave_sound ?_
    | split
    | with_reducible refine Sound.foldl_thd _ ?_ (fun _ _ _ => ?_)

theorem State.noteGeometry_sound {s : State} {c : Context} (hS : Sound qu mb s) :
    Sound qu mb (State.noteGeometry s c) := by
  unfold State.noteGeometry
  dsimp only
  repeat' first
    | with_reducible assumption
    | with_reducible refine State.setFld_sound ?_
    | with_reducible refine State.setFlag_sound ?_
    | split
    | with_reducible refine Sound.foldl _ ?_ (fun _ _ _ => ?_)

theorem State.takeContext_sound {s : State} {c : Context} (hS : Sound qu mb s) :
    Sound qu mb (State.takeContext s c) := by
  unfold State.takeContext
  dsimp only
  repeat' first
    | with_reducible assumption
    | with_reducible refine State.setCnv_sound ?_
    | with_reducible refine State.setFlag_sound ?_
    | with_reducible refine State.noteGeometry_sound ?_
    | split

theorem State.compileStep_sound {s : State} (hS : Sound qu mb s) :
    Sound qu mb (State.compileStep s) := by
  unfold State.compileStep
  dsimp only
  repeat' first
    | with_reducible assumption
    | with_reducible refine State.setCnv_sound ?_
    | with_reducible refine State.count_sound ?_
    | with_reducible refine State.readWord_sound ?_
    | with_reducible refine Sound.snd ?_ (by assumption)
    | split

theorem State.startCompile_sound {s : State} (hS : Sound qu mb s) :
    Sound qu mb (State.startCompile s) := by
  unfold State.startCompile
  dsimp only
  repeat' first
    | with_reducible assumption
    | with_reducible refine State.compileStep_sound ?_
    | with_reducible refine State.setFld_sound ?_
    | with_reducible refine State.setCnv_sound ?_

theorem State.compileRest_sound {s : State} {n : Nat} (hS : Sound qu mb s) :
    Sound qu mb (State.compileRest s n) := by
  induction n generalizing s with
  | zero =>
    unfold State.compileRest
    repeat' first
      | with_reducible assumption
  | succ n ih =>
    unfold State.compileRest
    repeat' first
      | with_reducible refine ih ?_
      | with_reducible assumption
      | with_reducible refine State.compileStep_sound ?_
      | split

theorem State.compileDone_sound {s : State} (hS : Sound qu mb s) :
    Sound qu mb (State.compileDone s) := by
  unfold State.compileDone
  dsimp only
  repeat' first
    | with_reducible assumption
    | with_reducible refine State.setCnv_sound ?_
    | with_reducible refine State.compileRest_sound ?_
    | split

theorem State.conversionArmed_sound {s : State} (hS : Sound qu mb s) :
    Sound qu mb (State.conversionArmed s) := by
  unfold State.conversionArmed
  repeat' first
    | with_reducible assumption
    | with_reducible refine State.setCnv_sound ?_
    | with_reducible refine State.startCompile_sound ?_
    | with_reducible refine State.checkWaves_sound ?_

/-! ### Bindery -/

/-- A bank sync leaves the staging slots alone. -/
theorem Bindery.setSync_slots {b : Bindery} {x : BankedStore} {y : SyncState} {n : Nat} (h : b.staged.length ≤ n) :
    (b.setSync x y).staged.length ≤ n := by
  cases x <;> exact h

/-- No transaction holds no slot. -/
theorem Bindery.idle_slots {b : Bindery} : b.idle.staged.length ≤ stagingSlots := Nat.zero_le _

theorem State.nextGen_sound {s : State} (hS : Sound qu mb s) :
    Sound qu mb (State.nextGen s) := by
  unfold State.nextGen
  repeat' first
    | with_reducible assumption
    | with_reducible refine State.setFld_sound ?_

theorem State.liveHook_sound {s : State} {a i : Nat} {old : Word} (hS : Sound qu mb s) :
    Sound qu mb (State.liveHook s a i old) := by
  unfold State.liveHook
  dsimp only
  repeat' first
    | with_reducible assumption
    | with_reducible refine State.counterSettings_sound ?_
    | with_reducible refine State.posConfig_sound ?_
    | with_reducible refine State.auxConfig_sound ?_
    | with_reducible refine State.enableCompare_sound ?_
    | with_reducible refine State.agtDrive_sound ?_
    | with_reducible refine State.tempConfig_sound ?_
    | split

theorem State.cancelDisabled_sound {s t : State} (h : Sound qu mb t) : Sound qu mb (State.cancelDisabled s t) := by
  unfold State.cancelDisabled
  dsimp only
  split <;> split
  all_goals first | exact h | exact State.injDone_sound h

theorem State.makeLive_sound {s : State} {ws : List Staged} {divs : List Nat} (hS : Sound qu mb s) :
    Sound qu mb (State.makeLive s ws divs) := by
  unfold State.makeLive
  dsimp only
  repeat' first
    | with_reducible assumption
    | with_reducible refine State.restartTdi_sound ?_
    | with_reducible refine State.cancelDisabled_sound ?_
    | with_reducible refine State.counterSettings_sound ?_
    | with_reducible refine State.setReg_sound ?_
    | with_reducible refine State.liveHook_sound ?_
    | split
    | with_reducible refine Sound.foldl _ ?_ (fun _ _ _ => ?_)

theorem State.liveWrite_sound {s : State} {a i : Nat} {v : Word} (hS : Sound qu mb s) :
    Sound qu mb (State.liveWrite s a i v) := by
  unfold State.liveWrite
  dsimp only
  repeat' first
    | with_reducible assumption
    | with_reducible refine State.nextGen_sound ?_
    | with_reducible refine State.makeLive_sound ?_
    | split

theorem State.syncStart_sound {s : State} {x : BankedStore} (hS : Sound qu mb s) :
    Sound qu mb (State.syncStart s x) := by
  unfold State.syncStart
  repeat' first
    | with_reducible assumption
    | with_reducible refine State.setBnd_sound ?_ (fun hx => ?_)
    | with_reducible exact Bindery.setSync_slots (Sound.staged (by assumption))
    | split

theorem State.copyActive_sound {s : State} {x : BankedStore} (hS : Sound qu mb s) :
    Sound qu mb (State.copyActive s x) := by
  unfold State.copyActive
  dsimp only
  repeat' first
    | with_reducible assumption
    | with_reducible exact hx.regs
    | with_reducible exact hx.events
    | with_reducible exact hx.staged
    | with_reducible exact hx.queue
    | with_reducible exact Memory.keep_wf hx.mem
    | with_reducible exact Memory.copyBank_wf hx.mem
    | split
    | (with_reducible refine Sound.build ?_ (fun hx => ⟨?_, ?_, ?_, ?_, ?_⟩)
       on_goal 1 => first
        | with_reducible assumption
        | with_reducible refine State.logFault_sound ?_)

theorem State.syncDone_sound {s : State} {x : BankedStore} (hS : Sound qu mb s) :
    Sound qu mb (State.syncDone s x) := by
  unfold State.syncDone
  repeat' first
    | with_reducible assumption
    | with_reducible refine State.copyActive_sound ?_
    | with_reducible refine State.setBnd_sound ?_ (fun hx => ?_)
    | with_reducible exact Bindery.setSync_slots (Sound.staged (by assumption))
    | split

theorem State.finishSyncs_sound {s : State} (hS : Sound qu mb s) :
    Sound qu mb (State.finishSyncs s) := by
  unfold State.finishSyncs
  repeat' first
    | with_reducible assumption
    | with_reducible refine State.copyActive_sound ?_
    | with_reducible refine State.setBnd_sound ?_ (fun hx => ?_)
    | with_reducible exact Bindery.setSync_slots (Sound.staged (by assumption))
    | split
    | with_reducible refine Sound.foldl _ ?_ (fun _ _ _ => ?_)

theorem State.holdRate_sound {s : State} {ws : List Staged} (hS : Sound qu mb s) :
    Sound qu mb ((State.holdRate s ws).2) := by
  unfold State.holdRate
  dsimp only
  repeat' first
    | with_reducible assumption
    | with_reducible refine State.setFlag_sound ?_
    | split

theorem State.swapBanks_sound {s : State} (hS : Sound qu mb s) :
    Sound qu mb (State.swapBanks s) := by
  unfold State.swapBanks
  dsimp only
  repeat' first
    | with_reducible assumption
    | with_reducible refine State.restartTdi_sound ?_
    | with_reducible refine State.setFlag_sound ?_
    | with_reducible refine State.checkWaves_sound ?_
    | with_reducible refine State.auxSwap_sound ?_
    | split
    | with_reducible refine Sound.foldl _ ?_ (fun _ _ _ => ?_)

theorem State.applyTxn_sound {s : State} (hS : Sound qu mb s) :
    Sound qu mb (State.applyTxn s) := by
  unfold State.applyTxn
  dsimp only
  repeat' first
    | with_reducible assumption
    | with_reducible refine State.swapBanks_sound ?_
    | with_reducible refine State.setBnd_sound ?_ (fun hx => ?_)
    | with_reducible refine State.setFlag_sound ?_
    | with_reducible refine State.nextGen_sound ?_
    | with_reducible refine State.holdRate_sound ?_
    | with_reducible refine State.raise_sound ?_
    | with_reducible refine State.makeLive_sound ?_
    | with_reducible exact Bindery.idle_slots
    | split

theorem State.atPosition_sound {s : State} (hS : Sound qu mb s) :
    Sound qu mb (State.atPosition s) := by
  unfold State.atPosition
  dsimp only
  repeat' first
    | with_reducible assumption
    | with_reducible refine State.applyTxn_sound ?_
    | split

theorem State.txnBegin_sound {s : State} (hS : Sound qu mb s) :
    Sound qu mb ((State.txnBegin s).2) := by
  unfold State.txnBegin
  dsimp only
  repeat' first
    | with_reducible assumption
    | with_reducible refine State.setBnd_sound ?_ (fun hx => ?_)
    | with_reducible exact hx.staged
    | with_reducible exact Bindery.idle_slots
    | split

theorem State.commitOpen_sound {s : State} {point : ApplyPoint} {target : BitVec 48} (hS : Sound qu mb s) :
    Sound qu mb ((State.commitOpen s point target).2) := by
  unfold State.commitOpen
  dsimp only
  repeat' first
    | with_reducible assumption
    | with_reducible refine State.setBnd_sound ?_ (fun hx => ?_)
    | with_reducible refine State.setReg_sound ?_
    | with_reducible exact hx.staged
    | split

theorem State.txnCommit_sound {s : State} {point : ApplyPoint} {target : BitVec 48} (hS : Sound qu mb s) :
    Sound qu mb ((State.txnCommit s point target).2) := by
  unfold State.txnCommit
  repeat' first
    | with_reducible assumption
    | with_reducible refine State.commitOpen_sound ?_
    | with_reducible refine State.setBnd_sound ?_ (fun hx => ?_)
    | with_reducible exact Bindery.idle_slots
    | split

theorem State.rollback_sound {s : State} (hS : Sound qu mb s) :
    Sound qu mb (State.rollback s) := by
  unfold State.rollback
  repeat' first
    | with_reducible assumption
    | with_reducible refine State.setBnd_sound ?_ (fun hx => ?_)
    | with_reducible exact Bindery.idle_slots

theorem State.txnAbort_sound {s : State} (hS : Sound qu mb s) :
    Sound qu mb ((State.txnAbort s).2) := by
  unfold State.txnAbort
  repeat' first
    | with_reducible assumption
    | with_reducible refine State.setBnd_sound ?_ (fun hx => ?_)
    | with_reducible refine State.rollback_sound ?_
    | with_reducible exact Bindery.idle_slots
    | split

theorem State.txnTimeout_sound {s : State} (hS : Sound qu mb s) :
    Sound qu mb (State.txnTimeout s) := by
  unfold State.txnTimeout
  dsimp only
  repeat' first
    | with_reducible assumption
    | with_reducible refine State.setBnd_sound ?_ (fun hx => ?_)
    | with_reducible refine State.setFlag_sound ?_
    | with_reducible refine State.rollback_sound ?_
    | with_reducible refine State.raise_sound ?_
    | with_reducible exact hx.staged
    | split

/-! ### Exposure -/

theorem State.setExp_sound {s : State} {x : Exposure} (hS : Sound qu mb s) :
    Sound qu mb (State.setExp s x) := by
  unfold State.setExp
  exact Sound.build hS fun hx => ⟨hx.regs, hx.mem, hx.events, hx.staged, hx.queue⟩

theorem State.markGap_sound {s : State} (hS : Sound qu mb s) :
    Sound qu mb (State.markGap s) := by
  unfold State.markGap
  dsimp only
  repeat' first
    | with_reducible assumption
    | with_reducible refine State.setExp_sound ?_

theorem State.sendLine_sound {s : State} {h : LineInfo} {q row : Nat} {codes : List Nat} {gap ecc last : Bool} (hS :
    Sound qu mb s) :
    Sound qu mb (State.sendLine s h q row codes gap ecc last) := by
  unfold State.sendLine
  dsimp only
  repeat' first
    | with_reducible assumption
    | with_reducible refine State.assemble_sound ?_
    | with_reducible refine State.setExp_sound ?_
    | split

theorem State.lutFault_sound {s : State} {w : WordAddr} {syn : Nat} (hS : Sound qu mb s) :
    Sound qu mb (State.lutFault s w syn) := by
  unfold State.lutFault
  dsimp only
  repeat' first
    | with_reducible assumption
    | with_reducible exact hx.regs
    | with_reducible exact hx.events
    | with_reducible exact hx.staged
    | with_reducible exact hx.queue
    | with_reducible exact Memory.keep_wf hx.mem
    | (with_reducible refine Sound.build ?_ (fun hx => ⟨?_, ?_, ?_, ?_, ?_⟩)
       on_goal 1 => with_reducible refine State.logFault_sound ?_)

theorem State.sendValues_sound {s : State} {h : LineInfo} {q row : Nat} {test : Bool} {rows : List (List Int)} {left
    right : List Int} {gap ecc last : Bool} (hS : Sound qu mb s) :
    Sound qu mb (State.sendValues s h q row test rows left right gap ecc last) := by
  unfold State.sendValues
  repeat' first
    | with_reducible assumption
    | with_reducible refine State.lutFault_sound ?_
    | with_reducible refine State.sendLine_sound ?_
    | split

theorem State.latchFlash_sound {s : State} {f : Frame} (hS : Sound qu mb s) :
    Sound qu mb ((State.latchFlash s f).2) := by
  unfold State.latchFlash
  dsimp only
  repeat' first
    | with_reducible assumption
    | with_reducible refine State.setAux_sound ?_ (fun hx => ?_)
    | with_reducible exact hx.queue
    | split

theorem State.flatRow_sound {s : State} {c : Context} {q i : Nat} (hS : Sound qu mb s) :
    Sound qu mb ((State.flatRow s c q i).2.2) := by
  unfold State.flatRow
  repeat' first
    | with_reducible assumption
    | with_reducible refine State.readBytes_sound ?_
    | with_reducible refine Sound.snd ?_ (by assumption)
    | split

theorem State.activeValues_sound {s : State} {r : Reading} {x : Samples} {q row b : Nat} (hS : Sound qu mb s) :
    Sound qu mb ((State.activeValues s r x q row b).2.2) := by
  unfold State.activeValues
  dsimp only
  repeat' first
    | with_reducible assumption
    | with_reducible refine State.flatRow_sound ?_

theorem State.readPage_sound {s : State} {p : Nat} (hS : Sound qu mb s) :
    Sound qu mb ((State.readPage s p).2.2) := by
  unfold State.readPage
  repeat' first
    | with_reducible assumption
    | with_reducible refine State.readBytes_sound ?_
    | with_reducible refine Sound.snd ?_ (by assumption)
    | split

theorem State.writePage_sound {s : State} {p : Nat} {vs : List Int} (hS : Sound qu mb s) :
    Sound qu mb (State.writePage s p vs) := by
  unfold State.writePage
  repeat' first
    | with_reducible assumption
    | with_reducible refine State.writeBytes_sound ?_

theorem State.addStage_sound {s : State} {l : TdiLine} {qi : Nat} {vs : List Int} (hS : Sound qu mb s) :
    Sound qu mb ((State.addStage s l qi vs).2) := by
  unfold State.addStage
  dsimp only
  repeat' first
    | with_reducible assumption
    | with_reducible refine State.readPage_sound ?_
    | with_reducible refine State.writePage_sound ?_
    | split

theorem State.linePages_sound {s : State} {c : Context} {l : TdiLine} (hS : Sound qu mb s) :
    Sound qu mb ((State.linePages s c l).2) := by
  unfold State.linePages
  repeat' first
    | with_reducible assumption
    | with_reducible refine State.usePages_sound ?_
    | split

theorem State.tdiRow_sound {s : State} {r : Reading} {x : Samples} {row b : Nat} (hS : Sound qu mb s) :
    Sound qu mb (State.tdiRow s r x row b) := by
  unfold State.tdiRow
  dsimp only
  repeat' first
    | with_reducible assumption
    | with_reducible refine State.addStage_sound ?_
    | with_reducible refine State.linePages_sound ?_
    | with_reducible refine State.activeValues_sound ?_
    | with_reducible refine State.setExp_sound ?_
    | split
    | with_reducible refine Sound.foldl_snd _ ?_ (fun _ _ _ => ?_)

theorem State.takeNumber_sound {s : State} (hS : Sound qu mb s) :
    Sound qu mb ((State.takeNumber s).2) := by
  unfold State.takeNumber
  dsimp only
  repeat' first
    | with_reducible assumption
    | with_reducible refine State.setExp_sound ?_

theorem State.annexPoints_sound {s : State} {frame : Option Nat} {lanes : List Nat} {due : Bool} (hS : Sound qu mb s) :
    Sound qu mb (State.annexPoints s frame lanes due) :=
  Sound.foldl _ hS fun _ _ ht => State.annexPoint_sound ht

theorem State.countLine_sound {s : State} {due : Bool} (hS : Sound qu mb s) :
    Sound qu mb (State.countLine s due) := by
  unfold State.countLine
  repeat' first
    | with_reducible assumption
    | with_reducible refine State.setExp_sound ?_

theorem State.tdiOut_sound {s : State} {l : TdiLine} (hS : Sound qu mb s) :
    Sound qu mb (State.tdiOut s l) := by
  unfold State.tdiOut
  dsimp only
  repeat' first
    | with_reducible assumption
    | with_reducible refine State.annexPoints_sound ?_
    | with_reducible refine State.readPage_sound ?_
    | with_reducible refine State.sendValues_sound ?_
    | with_reducible refine State.usePages_sound ?_
    | with_reducible refine State.countLine_sound ?_
    | with_reducible refine State.takeNumber_sound ?_
    | with_reducible refine State.setExp_sound ?_
    | split
    | with_reducible refine Sound.foldl _ ?_ (fun _ _ _ => ?_)

theorem State.tdiFlush_sound {s : State} (hS : Sound qu mb s) :
    Sound qu mb (State.tdiFlush s) := by
  unfold State.tdiFlush
  dsimp only
  repeat' first
    | with_reducible assumption
    | with_reducible refine State.tdiOut_sound ?_
    | with_reducible refine State.setExp_sound ?_
    | with_reducible refine Sound.foldl _ ?_ (fun _ _ _ => ?_)

theorem State.loseTrigger_sound {s : State} {k : LostKind} (hS : Sound qu mb s) :
    Sound qu mb (State.loseTrigger s k) := by
  unfold State.loseTrigger
  dsimp only
  repeat' first
    | with_reducible assumption
    | with_reducible refine State.streamLoss_sound ?_
    | with_reducible refine State.count_sound ?_
    | with_reducible refine State.markGap_sound ?_
    | with_reducible refine State.tdiFlush_sound ?_
    | with_reducible refine State.setExp_sound ?_
    | split

theorem State.convertNext_sound {s : State} {r : Reading} (hS : Sound qu mb s) :
    Sound qu mb (State.convertNext s r) := by
  unfold State.convertNext
  dsimp only
  repeat' first
    | with_reducible assumption
    | with_reducible refine State.readCal_sound ?_
    | with_reducible refine State.setExp_sound ?_

theorem State.startReadout_sound {s : State} {f : Frame} {k : Nat} (hS : Sound qu mb s) :
    Sound qu mb (State.startReadout s f k) := by
  unfold State.startReadout
  dsimp only
  repeat' first
    | with_reducible assumption
    | with_reducible refine State.loseTrigger_sound ?_
    | with_reducible refine State.convertNext_sound ?_
    | with_reducible refine State.usePages_sound ?_
    | with_reducible refine State.setCnv_sound ?_
    | with_reducible refine State.setExp_sound ?_
    | split

theorem State.sendPlain_sound {s : State} {r : Reading} {x : Samples} {p : RowPair} {test last : Bool} (hS : Sound qu
    mb s) :
    Sound qu mb (State.sendPlain s r x p test last) := by
  unfold State.sendPlain
  dsimp only
  repeat' first
    | with_reducible assumption
    | with_reducible refine State.sendValues_sound ?_
    | with_reducible refine State.latchFlash_sound ?_
    | with_reducible refine State.setExp_sound ?_
    | split
    | with_reducible refine Sound.foldl _ ?_ (fun _ _ _ => ?_)

theorem State.measureBlack_sound {s : State} {r : Reading} {x : Samples} {final : Bool} (hS : Sound qu mb s) :
    Sound qu mb (State.measureBlack s r x final) := by
  unfold State.measureBlack
  dsimp only
  repeat' first
    | with_reducible assumption
    | with_reducible refine State.setCnv_sound ?_
    | with_reducible refine State.setFlag_sound ?_
    | with_reducible refine State.injDone_sound ?_
    | split

theorem State.noteEcc_sound {s : State} {p : Nat} {ecc : Bool} (hS : Sound qu mb s) :
    Sound qu mb (State.noteEcc s p ecc) := by
  unfold State.noteEcc
  dsimp only
  repeat' first
    | with_reducible assumption
    | with_reducible refine State.setExp_sound ?_
    | split

theorem State.storeSub_sound {s : State} {r : Reading} {x : Samples} {row n : Nat} (hS : Sound qu mb s) :
    Sound qu mb (State.storeSub s r x row n) := by
  unfold State.storeSub
  dsimp only
  repeat' first
    | with_reducible assumption
    | with_reducible refine State.noteEcc_sound ?_
    | with_reducible refine State.readPage_sound ?_
    | with_reducible refine State.activeValues_sound ?_
    | with_reducible refine State.writePage_sound ?_
    | split
    | with_reducible refine Sound.foldl _ ?_ (fun _ _ _ => ?_)

theorem State.finalValues_sound {s : State} {r : Reading} {x : Samples} {q qi row n b : Nat} (hS : Sound qu mb s) :
    Sound qu mb ((State.finalValues s r x q qi row n b).2.2) := by
  unfold State.finalValues
  dsimp only
  repeat' first
    | with_reducible assumption
    | with_reducible refine State.readPage_sound ?_
    | with_reducible refine State.activeValues_sound ?_
    | split

theorem State.sendActive_sound {s : State} {r : Reading} {x : Samples} {row n : Nat} {last : Bool} (hS : Sound qu mb
    s) :
    Sound qu mb (State.sendActive s r x row n last) := by
  unfold State.sendActive
  dsimp only
  repeat' first
    | with_reducible assumption
    | with_reducible refine State.sendValues_sound ?_
    | with_reducible refine State.finalValues_sound ?_
    | with_reducible refine State.latchFlash_sound ?_
    | with_reducible refine State.setExp_sound ?_
    | split
    | with_reducible refine Sound.foldl _ ?_ (fun _ _ _ => ?_)

theorem State.endReadout_sound {s : State} {r : Reading} (hS : Sound qu mb s) :
    Sound qu mb (State.endReadout s r) := by
  unfold State.endReadout
  dsimp only
  repeat' first
    | with_reducible assumption
    | with_reducible refine State.annexPoints_sound ?_
    | with_reducible refine State.usePages_sound ?_
    | with_reducible refine State.tdiFlush_sound ?_
    | with_reducible refine State.raiseLine_sound ?_
    | with_reducible refine State.countLine_sound ?_
    | with_reducible refine State.setExp_sound ?_
    | split

theorem State.processPair_sound {s : State} {r : Reading} {x : Samples} {p : RowPair} (hS : Sound qu mb s) :
    Sound qu mb (State.processPair s r x p) := by
  unfold State.processPair
  dsimp only
  repeat' first
    | with_reducible assumption
    | with_reducible refine State.measureBlack_sound ?_
    | with_reducible refine State.sendActive_sound ?_
    | with_reducible refine State.annexPoints_sound ?_
    | with_reducible refine State.storeSub_sound ?_
    | with_reducible refine State.tdiRow_sound ?_
    | with_reducible refine State.sendPlain_sound ?_
    | split

theorem State.pairEnd_sound {s : State} {x : Samples} (hS : Sound qu mb s) :
    Sound qu mb (State.pairEnd s x) := by
  unfold State.pairEnd
  dsimp only
  repeat' first
    | with_reducible assumption
    | with_reducible refine State.processPair_sound ?_
    | with_reducible refine State.convertNext_sound ?_
    | with_reducible refine State.annexPoints_sound ?_
    | with_reducible refine State.endReadout_sound ?_
    | split

theorem State.openLines_sound {s : State} {c : Context} {str : Bool} (hS : Sound qu mb s) :
    Sound qu mb (State.openLines s c str) := by
  unfold State.openLines
  dsimp only
  repeat' first
    | with_reducible assumption
    | with_reducible refine State.setExp_sound ?_

theorem State.startExposure_sound {s : State} {c : Context} {stop : Nat} {str : Bool} (hS : Sound qu mb s) :
    Sound qu mb (State.startExposure s c stop str) := by
  unfold State.startExposure
  dsimp only
  repeat' first
    | with_reducible assumption
    | with_reducible refine State.streamLoss_sound ?_
    | with_reducible refine State.setPos_sound ?_
    | with_reducible refine State.raiseLine_sound ?_
    | with_reducible refine State.openLines_sound ?_
    | with_reducible refine State.takeContext_sound ?_
    | with_reducible refine State.takeNumber_sound ?_
    | with_reducible refine State.setExp_sound ?_
    | split

theorem State.withCommit_sound {s : State} (hS : Sound qu mb s) :
    Sound qu mb (State.withCommit s) := by
  unfold State.withCommit
  repeat' first
    | with_reducible assumption
    | with_reducible refine State.applyTxn_sound ?_
    | split

theorem State.exposureEnd_sound {s : State} (hS : Sound qu mb s) :
    Sound qu mb (State.exposureEnd s) := by
  unfold State.exposureEnd
  dsimp only
  repeat' first
    | with_reducible assumption
    | with_reducible refine State.raiseLine_sound ?_
    | with_reducible refine State.startReadout_sound ?_
    | with_reducible refine State.setExp_sound ?_
    | split

theorem State.dueTransfer_sound {s : State} (hS : Sound qu mb s) :
    Sound qu mb (State.dueTransfer s) := by
  unfold State.dueTransfer
  repeat' first
    | with_reducible assumption
    | with_reducible refine State.exposureEnd_sound ?_
    | split

theorem State.decideTrigger_sound {s : State} (hS : Sound qu mb s) :
    Sound qu mb (State.decideTrigger s) := by
  unfold State.decideTrigger
  dsimp only
  repeat' first
    | with_reducible assumption
    | with_reducible refine State.dueTransfer_sound ?_
    | with_reducible refine State.injected_sound ?_ (fun _ _ => ?_)
    | with_reducible refine State.withCommit_sound ?_
    | with_reducible refine State.startExposure_sound ?_
    | with_reducible refine State.injDone_sound ?_
    | with_reducible refine State.loseTrigger_sound ?_
    | split

theorem State.trigger_sound {s : State} (hS : Sound qu mb s) :
    Sound qu mb (State.trigger s) := by
  unfold State.trigger
  dsimp only
  repeat' first
    | with_reducible assumption
    | with_reducible refine State.holdEvent_sound ?_
    | with_reducible refine State.decideTrigger_sound ?_
    | with_reducible refine State.setExp_sound ?_
    | split

theorem State.loadTimer_sound {s : State} {fired : Bool} (hS : Sound qu mb s) :
    Sound qu mb (State.loadTimer s fired) := by
  unfold State.loadTimer
  dsimp only
  repeat' first
    | with_reducible assumption
    | with_reducible refine State.setExp_sound ?_

theorem State.freeRun_sound {s : State} (hS : Sound qu mb s) :
    Sound qu mb (State.freeRun s) := by
  unfold State.freeRun
  repeat' first
    | with_reducible assumption
    | with_reducible refine State.loadTimer_sound ?_
    | split

theorem State.timerTick_sound {s : State} (hS : Sound qu mb s) :
    Sound qu mb (State.timerTick s) := by
  unfold State.timerTick
  dsimp only
  repeat' first
    | with_reducible assumption
    | with_reducible refine State.loadTimer_sound ?_
    | with_reducible refine State.setExp_sound ?_
    | split

theorem State.freeTrigger_sound {s : State} (hS : Sound qu mb s) :
    Sound qu mb (State.freeTrigger s) := by
  unfold State.freeTrigger
  repeat' first
    | with_reducible assumption
    | with_reducible refine State.decideTrigger_sound ?_
    | split

theorem State.legacyEnd_sound {s : State} (hS : Sound qu mb s) :
    Sound qu mb (State.legacyEnd s) := by
  unfold State.legacyEnd
  dsimp only
  repeat' first
    | with_reducible assumption
    | with_reducible refine State.exposureEnd_sound ?_
    | with_reducible refine State.setExp_sound ?_
    | split

theorem State.markSW_sound {s : State} (hS : Sound qu mb s) :
    Sound qu mb (State.markSW s) := by
  unfold State.markSW
  dsimp only
  repeat' first
    | with_reducible assumption
    | with_reducible refine State.setExp_sound ?_

theorem State.dropFlash_sound {s : State} {n : Nat} (hS : Sound qu mb s) :
    Sound qu mb (State.dropFlash s n) := by
  unfold State.dropFlash
  dsimp only
  repeat' first
    | with_reducible assumption
    | with_reducible refine State.setAux_sound ?_ (fun hx => ?_)
    | with_reducible exact hx.queue

theorem State.abandon_sound {s : State} {f : Frame} (hS : Sound qu mb s) :
    Sound qu mb (State.abandon s f) := by
  unfold State.abandon
  dsimp only
  repeat' first
    | with_reducible assumption
    | with_reducible refine State.usePages_sound ?_
    | with_reducible refine State.count_sound ?_
    | with_reducible refine State.markGap_sound ?_
    | with_reducible refine State.dropFlash_sound ?_
    | with_reducible refine State.setExp_sound ?_

theorem State.subStart_sound {s : State} (hS : Sound qu mb s) :
    Sound qu mb (State.subStart s) := by
  unfold State.subStart
  dsimp only
  repeat' first
    | with_reducible assumption
    | with_reducible refine State.raiseLine_sound ?_
    | with_reducible refine State.setExp_sound ?_
    | with_reducible refine State.abandon_sound ?_
    | split

theorem State.startRun_sound {s : State} (hS : Sound qu mb s) :
    Sound qu mb (State.startRun s) := by
  unfold State.startRun
  exact State.setFlag_sound (State.changesTo_sound (State.setExp_sound hS))

theorem State.drained_sound {s : State} (hS : Sound qu mb s) :
    Sound qu mb (State.drained s) := by
  unfold State.drained
  split
  · exact State.checkWaves_sound (State.setTmp_sound (State.changesTo_sound (State.setExp_sound hS)))
  · exact hS

theorem State.writeRun_sound {s : State} {run : Bool} (hS : Sound qu mb s) :
    Sound qu mb ((State.writeRun s run).2) := by
  unfold State.writeRun
  dsimp only
  repeat' first
    | with_reducible assumption
    | with_reducible refine State.drained_sound ?_
    | with_reducible refine State.startRun_sound ?_
    | with_reducible refine State.stopRun_sound ?_
    | split

theorem State.abandonAll_sound {s : State} (hS : Sound qu mb s) :
    Sound qu mb (State.abandonAll s) := by
  unfold State.abandonAll
  exact State.setAux_sound (State.setExp_sound (State.usePages_sound hS)) fun hx => hx.queue

theorem State.clearExposure_sound {s : State} (hS : Sound qu mb s) :
    Sound qu mb (State.clearExposure s) := by
  unfold State.clearExposure
  dsimp only
  repeat' first
    | with_reducible assumption
    | with_reducible refine State.abandonAll_sound ?_
    | with_reducible refine State.usePages_sound ?_
    | with_reducible refine State.setExp_sound ?_
    | with_reducible refine Sound.foldl _ ?_ (fun _ _ _ => ?_)

end Sys2Proof.Machine
end

