-- ==== Sys2Proof/Laws/SoundPower.lean ====
section
/-! SUPPORT.
What the operations of Machine/Scrub, Clock, Power, SelfTest, Wake, Inject keep (`Sound`), one lemma per operation.
-/
namespace Sys2Proof.Machine

variable {qu : List Instr} {mb : Part}

/-! ### Scrub -/

theorem State.declareMacro_sound {s : State} {m reader offset : Nat} (hS : Sound qu mb s) :
    Sound qu mb (State.declareMacro s m reader offset) := by
  unfold State.declareMacro
  dsimp only
  repeat' first
    | with_reducible assumption
    | with_reducible refine State.logFault_sound ?_
    | with_reducible refine State.setMem_sound ?_ (fun hx => ?_)
    | with_reducible refine State.setFlag_sound ?_
    | with_reducible refine State.raise_sound ?_
    | with_reducible exact Memory.keep_wf hx.mem
    | split

theorem State.scrubHit_sound {s : State} {w : WordAddr} {r : ReadOut} (hS : Sound qu mb s) :
    Sound qu mb (State.scrubHit s w r) := by
  unfold State.scrubHit
  dsimp only
  repeat' first
    | with_reducible assumption
    | with_reducible refine State.declareMacro_sound ?_
    | with_reducible refine State.logFault_sound ?_
    | with_reducible refine State.setMem_sound ?_ (fun hx => ?_)
    | with_reducible refine State.setFlag_sound ?_
    | with_reducible refine State.raise_sound ?_
    | with_reducible exact hx.mem
    | with_reducible exact Memory.keep_wf hx.mem
    | split

theorem State.setPace_sound {s : State} (hS : Sound qu mb s) :
    Sound qu mb (State.setPace s) :=
  State.setMem_sound hS fun hx => Memory.keep_wf hx.mem

theorem State.passEnd_sound {s : State} (hS : Sound qu mb s) :
    Sound qu mb (State.passEnd s) := by
  unfold State.passEnd
  dsimp only
  repeat' first
    | with_reducible assumption
    | with_reducible refine State.setPace_sound ?_
    | with_reducible refine State.setMem_sound ?_ (fun hx => ?_)
    | with_reducible refine State.setFld_sound ?_
    | with_reducible refine State.setFlag_sound ?_
    | with_reducible exact Memory.keep_wf hx.mem
    | split

theorem State.scrubVisit_sound {s : State} (hS : Sound qu mb s) :
    Sound qu mb (State.scrubVisit s) := by
  unfold State.scrubVisit
  dsimp only
  repeat' first
    | with_reducible assumption
    | with_reducible refine State.setPace_sound ?_
    | with_reducible refine State.setMem_sound ?_ (fun hx => ?_)
    | with_reducible refine State.readWord_sound ?_
    | with_reducible refine State.scrubHit_sound ?_
    | with_reducible refine State.passEnd_sound ?_
    | with_reducible refine Sound.snd ?_ (by assumption)
    | with_reducible exact Memory.keep_wf hx.mem
    | split

theorem State.writeBack_sound {s : State} (hS : Sound qu mb s) :
    Sound qu mb (State.writeBack s) := by
  unfold State.writeBack
  repeat' first
    | with_reducible assumption
    | with_reducible refine State.setMem_sound ?_ (fun hx => ?_)
    | with_reducible exact Memory.putRaw_wf hx.mem
    | split

theorem State.writeFlip_sound {s : State} {w : Word} (hS : Sound qu mb s) :
    Sound qu mb (State.writeFlip s w) := by
  unfold State.writeFlip
  dsimp only
  repeat' first
    | with_reducible assumption
    | with_reducible refine State.setMem_sound ?_ (fun hx => ?_)
    | with_reducible refine State.setFld_sound ?_
    | with_reducible exact Memory.keep_wf hx.mem

theorem State.writeRaw_sound {s : State} {w : Word} (hS : Sound qu mb s) :
    Sound qu mb (State.writeRaw s w) := by
  unfold State.writeRaw
  repeat' first
    | with_reducible assumption
    | with_reducible refine State.setFld_sound ?_

theorem State.writeRetire_sound {s : State} {w : Word} (hS : Sound qu mb s) :
    Sound qu mb (State.writeRetire s w) := by
  unfold State.writeRetire
  dsimp only
  repeat' first
    | with_reducible assumption
    | with_reducible refine State.setReg_sound ?_
    | split

/-! ### Clock -/

theorem State.setClk_sound {s : State} {x : Clock} (hS : Sound qu mb s) :
    Sound qu mb (State.setClk s x) := by
  unfold State.setClk
  exact Sound.build hS fun hx => ⟨hx.regs, hx.mem, hx.events, hx.staged, hx.queue⟩

theorem State.holdTime_sound {s : State} (hS : Sound qu mb s) :
    Sound qu mb (State.holdTime s) := by
  unfold State.holdTime
  dsimp only
  repeat' first
    | with_reducible assumption
    | with_reducible refine State.setFlag_sound ?_
    | with_reducible refine State.setClk_sound ?_

theorem State.startRelock_sound {s : State} (hS : Sound qu mb s) :
    Sound qu mb (State.startRelock s) := by
  unfold State.startRelock
  dsimp only
  repeat' first
    | with_reducible assumption
    | with_reducible refine State.holdTime_sound ?_
    | with_reducible refine State.setClk_sound ?_

theorem State.writeRefdiv_sound {s : State} {w : Word} (hS : Sound qu mb s) :
    Sound qu mb (State.writeRefdiv s w) := by
  unfold State.writeRefdiv
  dsimp only
  repeat' first
    | with_reducible assumption
    | with_reducible refine State.startRelock_sound ?_
    | with_reducible refine State.setFld_sound ?_
    | with_reducible refine State.setClk_sound ?_
    | split

theorem State.relocked_sound {s : State} (hS : Sound qu mb s) :
    Sound qu mb (State.relocked s) := by
  unfold State.relocked
  dsimp only
  repeat' first
    | with_reducible assumption
    | with_reducible refine State.setClk_sound ?_
    | with_reducible refine State.raise_sound ?_
    | split

theorem State.refReturned_sound {s : State} (hS : Sound qu mb s) :
    Sound qu mb (State.refReturned s) := by
  unfold State.refReturned
  dsimp only
  repeat' first
    | with_reducible assumption
    | with_reducible refine State.setClk_sound ?_
    | with_reducible refine State.holdTime_sound ?_
    | split

theorem State.declareLoss_sound {s : State} {cause : Nat} (hS : Sound qu mb s) :
    Sound qu mb (State.declareLoss s cause) := by
  unfold State.declareLoss
  dsimp only
  repeat' first
    | with_reducible assumption
    | with_reducible refine State.setFld_sound ?_
    | with_reducible refine State.abandonAll_sound ?_
    | with_reducible refine State.setFlag_sound ?_
    | with_reducible refine State.holdTime_sound ?_
    | with_reducible refine State.setClk_sound ?_
    | with_reducible refine State.cutLanes_sound ?_
    | with_reducible refine State.raise_sound ?_
    | split

theorem State.openGate_sound {s : State} (hS : Sound qu mb s) :
    Sound qu mb (State.openGate s) := by
  unfold State.openGate
  repeat' first
    | with_reducible assumption
    | with_reducible refine State.restartTdi_sound ?_
    | with_reducible refine State.markGap_sound ?_
    | with_reducible refine State.setFld_sound ?_
    | with_reducible refine State.setFlag_sound ?_
    | split

/-! ### Power -/

theorem State.setPwr_sound {s : State} {x : Power} (hS : Sound qu mb s) :
    Sound qu mb (State.setPwr s x) := by
  unfold State.setPwr
  exact Sound.build hS fun hx => ⟨hx.regs, hx.mem, hx.events, hx.staged, hx.queue⟩

theorem State.railsDownTo_sound {s : State} {n : Nat} (hS : Sound qu mb s) :
    Sound qu mb (State.railsDownTo s n) := by
  unfold State.railsDownTo
  dsimp only
  repeat' first
    | with_reducible assumption
    | with_reducible refine State.setPwr_sound ?_

theorem State.assertWarn_sound {s : State} (hS : Sound qu mb s) :
    Sound qu mb (State.assertWarn s) := by
  unfold State.assertWarn
  dsimp only
  repeat' first
    | with_reducible assumption
    | with_reducible refine State.setFlag_sound ?_
    | with_reducible refine State.markSW_sound ?_
    | with_reducible refine State.raise_sound ?_
    | with_reducible refine State.raiseLine_sound ?_
    | with_reducible refine State.setPwr_sound ?_
    | split

theorem State.deassertWarn_sound {s : State} (hS : Sound qu mb s) :
    Sound qu mb (State.deassertWarn s) := by
  unfold State.deassertWarn
  dsimp only
  repeat' first
    | with_reducible assumption
    | with_reducible refine State.setPwr_sound ?_
    | split

theorem State.holdEnd_sound {s : State} (hS : Sound qu mb s) :
    Sound qu mb (State.holdEnd s) := by
  unfold State.holdEnd
  dsimp only
  repeat' first
    | with_reducible assumption
    | with_reducible refine State.setPwr_sound ?_
    | split

theorem State.droop_sound {s : State} {second real : Bool} (hS : Sound qu mb s) :
    Sound qu mb (State.droop s second real) := by
  unfold State.droop
  dsimp only
  repeat' first
    | with_reducible assumption
    | with_reducible refine State.setFlag_sound ?_
    | with_reducible refine State.raise_sound ?_
    | with_reducible refine State.setPwr_sound ?_
    | split

theorem State.loseStore_sound {s : State} {id : Nat} (hS : Sound qu mb s) :
    Sound qu mb (State.loseStore s id) := by
  unfold State.loseStore
  dsimp only
  repeat' first
    | with_reducible assumption
    | with_reducible refine State.setMem_sound ?_ (fun hx => ?_)
    | with_reducible refine State.setReg_sound ?_
    | with_reducible refine State.setFld_sound ?_
    | with_reducible refine State.setFlag_sound ?_
    | with_reducible exact hx.regs
    | with_reducible exact hx.events
    | with_reducible exact hx.staged
    | with_reducible exact hx.queue
    | with_reducible exact hx.mem
    | with_reducible exact Memory.clearStore_wf hx.mem
    | split
    | (with_reducible refine Sound.build ?_ (fun hx => ⟨?_, ?_, ?_, ?_, ?_⟩)
       on_goal 1 => with_reducible refine State.setFlag_sound ?_)

theorem State.clearRuntime_sound {s : State} {r : Retention} {cfgsel : Nat} {spi : Bool} (hS : Sound qu mb s) :
    Sound qu mb (State.clearRuntime s r cfgsel spi) := by
  unfold State.clearRuntime
  dsimp only
  repeat' first
    | with_reducible assumption
    | with_reducible refine State.clearExposure_sound ?_
    | with_reducible exact hx.staged
    | (unfold State.retained; exact buildRegs_wf _)
    | with_reducible exact Memory.clearRuntime_wf hx.mem
    | exact Nat.zero_le _
    | split
    | (with_reducible refine Sound.build ?_ (fun hx => ⟨?_, ?_, ?_, ?_, ?_⟩)
       on_goal 1 => with_reducible refine State.clearLanes_sound ?_)

theorem State.armStep_sound {s : State} {n : Nat} (hS : Sound qu mb s) :
    Sound qu mb (State.armStep s n) := by
  unfold State.armStep
  dsimp only
  repeat' first
    | with_reducible assumption
    | with_reducible refine State.setPwr_sound ?_

theorem State.beginWake_sound {s : State} {n : Nat} (hS : Sound qu mb s) :
    Sound qu mb (State.beginWake s n) := by
  unfold State.beginWake
  dsimp only
  repeat' first
    | with_reducible assumption
    | with_reducible refine State.setPwr_sound ?_
    | with_reducible refine State.armStep_sound ?_
    | split

theorem State.resetStores_sound {s : State} {c : ResetClass} (hS : Sound qu mb s) :
    Sound qu mb (State.resetStores s c) := by
  unfold State.resetStores
  extract_lets failing all t kept b
  have ht : Sound qu mb t := by
    dsimp only [t]
    split <;> exact Sound.foldl _ hS fun _ _ hu => State.loseStore_sound hu
  exact Sound.build ht fun hx => ⟨hx.regs, hx.mem, hx.events, Nat.zero_le _, hx.queue⟩

theorem State.halfWritten_sound {s : State} (hS : Sound qu mb s) : Sound qu mb (State.halfWritten s) := by
  unfold State.halfWritten
  refine Sound.foldl _ hS fun t e ht => ?_
  dsimp only
  split
  · exact State.spent_sound ht
  · exact State.setMem_sound (State.spent_sound ht) fun hx => Memory.restore_wf hx.mem

theorem State.startReset_sound {s : State} {c0 : ResetClass} {wdog : Bool} (hS : Sound qu mb s) :
    Sound qu mb (State.startReset s c0 wdog) := by
  unfold State.startReset
  try dsimp only
  repeat' first
    | with_reducible assumption
    | with_reducible refine State.por_sound ?_
    | with_reducible refine State.clearRuntime_sound ?_
    | with_reducible refine State.resetStores_sound ?_
    | with_reducible refine State.setFlag_sound ?_
    | with_reducible refine State.setFld_sound ?_
    | with_reducible refine State.halfWritten_sound ?_
    | with_reducible refine State.setPwr_sound ?_
    | with_reducible refine State.bor_sound ?_
    | with_reducible refine State.beginWake_sound ?_
    | with_reducible exact hx.regs
    | with_reducible exact hx.events
    | with_reducible exact hx.staged
    | with_reducible exact hx.queue
    | with_reducible exact hx.mem
    | with_reducible exact Memory.keep_wf hx.mem
    | with_reducible exact Memory.clearRuntime_wf hx.mem
    | exact Nat.zero_le _
    | with_reducible refine Answer.of_sound ?_
    | split
    | dsimp only
    | (with_reducible refine Sound.build ?_ (fun hx => ⟨?_, ?_, ?_, ?_, ?_⟩)
       on_goal 1 => first
        | with_reducible assumption
        | with_reducible refine State.por_sound ?_
        | with_reducible refine State.clearRuntime_sound ?_
      )

theorem State.released_sound {s : State} (hS : Sound qu mb s) :
    Sound qu mb (State.released s) := by
  unfold State.released
  dsimp only
  repeat' first
    | with_reducible assumption
    | with_reducible refine State.beginWake_sound ?_
    | with_reducible refine State.setPwr_sound ?_
    | split

theorem State.sampleStraps_sound {s : State} {cfgsel : Nat} {spi : Bool} (hS : Sound qu mb s) :
    Sound qu mb (State.sampleStraps s cfgsel spi) := by
  unfold State.sampleStraps
  dsimp only
  repeat' first
    | with_reducible assumption
    | with_reducible refine State.setFld_sound ?_
    | with_reducible refine State.setFlag_sound ?_
    | with_reducible exact hx.regs
    | with_reducible exact hx.events
    | with_reducible exact hx.staged
    | with_reducible exact hx.queue
    | with_reducible exact hx.mem
    | (with_reducible refine Sound.build ?_ (fun hx => ⟨?_, ?_, ?_, ?_, ?_⟩)
       on_goal 1 => with_reducible refine State.setFld_sound ?_)

theorem State.enterStandby_sound {s : State} (hS : Sound qu mb s) :
    Sound qu mb (State.enterStandby s) := by
  unfold State.enterStandby
  dsimp only
  repeat' first
    | with_reducible assumption
    | with_reducible refine State.setPwr_sound ?_
    | with_reducible refine State.finishSyncs_sound ?_
    | with_reducible refine State.railsDownTo_sound ?_
    | with_reducible exact hx.regs
    | with_reducible exact hx.events
    | with_reducible exact hx.staged
    | with_reducible exact hx.queue
    | with_reducible exact hx.mem
    | (with_reducible refine Sound.build ?_ (fun hx => ⟨?_, ?_, ?_, ?_, ?_⟩)
       on_goal 1 => with_reducible refine State.clearRuntime_sound ?_)

theorem State.enterDormant_sound {s : State} (hS : Sound qu mb s) :
    Sound qu mb (State.enterDormant s) := by
  unfold State.enterDormant
  dsimp only
  repeat' first
    | with_reducible assumption
    | with_reducible refine State.setPwr_sound ?_
    | with_reducible refine State.loseStore_sound ?_
    | with_reducible refine State.railsDownTo_sound ?_
    | with_reducible exact hx.regs
    | with_reducible exact hx.events
    | with_reducible exact hx.staged
    | with_reducible exact hx.queue
    | with_reducible exact hx.mem
    | exact Nat.zero_le _
    | with_reducible refine Sound.foldl _ ?_ (fun _ _ _ => ?_)
    | (with_reducible refine Sound.build ?_ (fun hx => ⟨?_, ?_, ?_, ?_, ?_⟩)
       on_goal 1 => first
        | with_reducible assumption
        | with_reducible refine State.clearRuntime_sound ?_)

theorem State.wakeDone_sound {s : State} (hS : Sound qu mb s) :
    Sound qu mb (State.wakeDone s) := by
  unfold State.wakeDone
  repeat' first
    | with_reducible assumption
    | with_reducible refine State.raise_sound ?_
    | split

theorem State.enterSafe_sound {s : State} {why : SafeWhy} {keepLog : Bool} (hS : Sound qu mb s) :
    Sound qu mb (State.enterSafe s why keepLog) := by
  unfold State.enterSafe
  try dsimp only
  repeat' first
    | with_reducible assumption
    | with_reducible refine State.clearLanes_sound ?_
    | with_reducible refine State.setReg_sound ?_
    | with_reducible refine State.setPwr_sound ?_
    | with_reducible refine State.clearExposure_sound ?_
    | with_reducible exact hx.regs
    | with_reducible exact hx.events
    | with_reducible exact hx.staged
    | with_reducible exact hx.queue
    | with_reducible exact hx.mem
    | with_reducible exact Memory.keep_wf hx.mem
    | with_reducible exact Memory.clearStore_wf hx.mem
    | with_reducible exact Memory.keep_wf (Memory.clearStore_wf hx.mem)
    | exact Nat.zero_le _
    | exact Nat.zero_le _
    | split
    | dsimp only
    | (with_reducible refine Sound.build ?_ (fun hx => ⟨?_, ?_, ?_, ?_, ?_⟩)
       on_goal 1 => first
        | with_reducible assumption
        | with_reducible refine State.clearLanes_sound ?_
        | with_reducible refine State.setReg_sound ?_
      )

theorem State.safeForRecord_sound {s : State} {keepLog : Bool} (hS : Sound qu mb s) :
    Sound qu mb (State.safeForRecord s keepLog) := by
  unfold State.safeForRecord
  repeat' first
    | with_reducible assumption
    | with_reducible refine State.wakeDone_sound ?_
    | with_reducible refine State.setFld_sound ?_
    | with_reducible refine State.enterSafe_sound ?_

theorem State.wakeEnds_sound {s : State} {st : PState} (hS : Sound qu mb s) :
    Sound qu mb (State.wakeEnds s st) := by
  unfold State.wakeEnds
  dsimp only
  repeat' first
    | with_reducible assumption
    | with_reducible refine State.wakeDone_sound ?_
    | with_reducible refine State.setPwr_sound ?_
    | with_reducible exact hx.regs
    | with_reducible exact hx.events
    | with_reducible exact hx.staged
    | with_reducible exact hx.queue
    | with_reducible exact hx.mem
    | (with_reducible refine Sound.build ?_ (fun hx => ⟨?_, ?_, ?_, ?_, ?_⟩)
       on_goal 1 => with_reducible refine State.setFld_sound ?_)

theorem State.reachArmed_sound {s : State} (hS : Sound qu mb s) :
    Sound qu mb (State.reachArmed s) := by
  unfold State.reachArmed
  dsimp only
  repeat' first
    | with_reducible assumption
    | with_reducible refine State.conversionArmed_sound ?_
    | with_reducible refine State.setClk_sound ?_
    | with_reducible refine State.wakeEnds_sound ?_

theorem State.stepEffect_sound {s : State} {n : Nat} (hS : Sound qu mb s) :
    Sound qu mb (State.stepEffect s n) := by
  unfold State.stepEffect
  dsimp only
  repeat' first
    | with_reducible assumption
    | with_reducible refine State.setPwr_sound ?_
    | with_reducible refine State.setClk_sound ?_
    | with_reducible exact hx.regs
    | with_reducible exact hx.events
    | with_reducible exact hx.staged
    | with_reducible exact hx.queue
    | with_reducible exact hx.mem
    | split
    | (with_reducible refine Sound.build ?_ (fun hx => ⟨?_, ?_, ?_, ?_, ?_⟩)
       on_goal 1 => with_reducible refine State.setPwr_sound ?_)

theorem State.wakeFail_sound {s : State} {n : Nat} (hS : Sound qu mb s) :
    Sound qu mb (State.wakeFail s n) := by
  unfold State.wakeFail
  dsimp only
  repeat' first
    | with_reducible assumption
    | with_reducible refine State.wakeDone_sound ?_
    | with_reducible refine State.setFld_sound ?_
    | with_reducible refine State.setPwr_sound ?_
    | with_reducible refine State.setFlag_sound ?_
    | with_reducible refine State.enterSafe_sound ?_
    | with_reducible refine State.railsDownTo_sound ?_
    | split

theorem State.startStep_sound {s : State} {n : Nat} (hS : Sound qu mb s) :
    Sound qu mb (State.startStep s n) := by
  unfold State.startStep
  repeat' first
    | with_reducible assumption
    | with_reducible refine State.injected_sound ?_ (fun _ _ => ?_)
    | with_reducible refine State.wakeFail_sound ?_
    | with_reducible refine State.injDone_sound ?_
    | with_reducible refine State.armStep_sound ?_
    | split

theorem State.wake_sound {s : State} {kind : WakeKind} {toArmed : Bool} {n : Nat} (hS : Sound qu mb s) :
    Sound qu mb (State.wake s kind toArmed n) := by
  unfold State.wake
  dsimp only
  repeat' first
    | with_reducible assumption
    | with_reducible refine State.setPwr_sound ?_
    | with_reducible refine State.setFlag_sound ?_
    | with_reducible refine State.startStep_sound ?_
    | with_reducible exact hx.regs
    | with_reducible exact hx.events
    | with_reducible exact hx.staged
    | with_reducible exact hx.queue
    | with_reducible exact hx.mem
    | split
    | (with_reducible refine Sound.build ?_ (fun hx => ⟨?_, ?_, ?_, ?_, ?_⟩)
       on_goal 1 => with_reducible refine State.setPwr_sound ?_)

theorem State.request_sound {s : State} {q : Nat} (hS : Sound qu mb s) :
    Sound qu mb (State.request s q) := by
  unfold State.request
  repeat' first
    | with_reducible assumption
    | with_reducible refine State.enterDormant_sound ?_
    | with_reducible refine State.enterStandby_sound ?_
    | with_reducible refine State.wake_sound ?_
    | split

/-! ### SelfTest -/

theorem State.setBst_sound {s : State} {x : SelfTest} (hS : Sound qu mb s) :
    Sound qu mb (State.setBst s x) := by
  unfold State.setBst
  exact Sound.build hS fun hx => ⟨hx.regs, hx.mem, hx.events, hx.staged, hx.queue⟩

theorem State.judgeStep_sound {s : State} {r : TestRun} {m : Measured} (hS : Sound qu mb s) :
    Sound qu mb ((State.judgeStep s r m).2) := by
  unfold State.judgeStep
  dsimp only
  repeat' first
    | with_reducible assumption
    | with_reducible refine State.spent_sound ?_
    | with_reducible refine State.injDone_sound ?_
    | split

theorem State.keepRecord_sound {s : State} {rec : List Byte} {source : Nat} {ee : Bool} (hS : Sound qu mb s) :
    Sound qu mb (State.keepRecord s rec source ee) := by
  unfold State.keepRecord
  dsimp only
  repeat' first
    | with_reducible assumption
    | with_reducible refine State.setBst_sound ?_
    | with_reducible refine State.setFld_sound ?_
    | with_reducible refine State.setFlag_sound ?_

theorem State.finishTest_sound {s : State} {r : TestRun} (hS : Sound qu mb s) :
    Sound qu mb (State.finishTest s r) := by
  unfold State.finishTest
  dsimp only
  repeat' first
    | with_reducible assumption
    | with_reducible refine State.setBst_sound ?_
    | with_reducible refine State.startOwn_sound ?_
    | with_reducible refine State.setFlag_sound ?_
    | with_reducible refine State.keepRecord_sound ?_
    | with_reducible refine State.raise_sound ?_
    | with_reducible refine State.injectedIf_sound ?_ (fun _ _ => ?_)
    | with_reducible exact hx.regs
    | with_reducible exact hx.events
    | with_reducible exact hx.staged
    | with_reducible exact hx.queue
    | with_reducible exact hx.mem
    | split
    | (with_reducible refine Sound.build ?_ (fun hx => ⟨?_, ?_, ?_, ?_, ?_⟩)
       on_goal 1 => with_reducible refine State.clearRuntime_sound ?_)

theorem State.notRun_sound {s : State} {r : TestRun} {reason : Nat} (hS : Sound qu mb s) :
    Sound qu mb (State.notRun s r reason) := by
  unfold State.notRun
  dsimp only
  repeat' first
    | with_reducible assumption
    | with_reducible refine State.setBst_sound ?_
    | with_reducible refine State.finishTest_sound ?_
    | split

theorem State.testEvent_sound {s : State} {reason : Nat} (hS : Sound qu mb s) :
    Sound qu mb (State.testEvent s reason) := by
  unfold State.testEvent
  repeat' first
    | with_reducible assumption
    | with_reducible refine State.notRun_sound ?_
    | split

theorem State.afterBus_sound {s : State} (hS : Sound qu mb s) :
    Sound qu mb (State.afterBus s) := by
  unfold State.afterBus
  repeat' first
    | with_reducible assumption
    | with_reducible refine State.finishTest_sound ?_
    | split

theorem State.stopAux_sound {s : State} (hS : Sound qu mb s) :
    Sound qu mb (State.stopAux s) := by
  unfold State.stopAux
  dsimp only
  repeat' first
    | with_reducible assumption
    | with_reducible refine State.setAux_sound ?_ (fun hx => ?_)
    | with_reducible refine State.dropRequest_sound ?_
    | with_reducible refine State.setRequest_sound ?_
    | with_reducible exact hx.queue
    | with_reducible refine Sound.foldl _ ?_ (fun _ _ _ => ?_)

theorem State.startTest_sound {s : State} {k : TestKind} (hS : Sound qu mb s) :
    Sound qu mb (State.startTest s k) := by
  unfold State.startTest
  dsimp only
  repeat' first
    | with_reducible assumption
    | with_reducible refine State.stopAux_sound ?_
    | with_reducible refine State.setBst_sound ?_
    | with_reducible refine State.setPwr_sound ?_
    | with_reducible refine State.haltForTest_sound ?_

theorem State.leaveSafe_sound {s : State} (hS : Sound qu mb s) :
    Sound qu mb (State.leaveSafe s) := by
  unfold State.leaveSafe
  dsimp only
  repeat' first
    | with_reducible refine State.conversionArmed_sound ?_
    | with_reducible refine State.setPwr_sound ?_
    | with_reducible exact hx.regs
    | with_reducible exact hx.events
    | with_reducible exact hx.staged
    | with_reducible exact hx.queue
    | with_reducible exact hx.mem
    | (with_reducible refine Sound.build ?_ (fun hx => ⟨?_, ?_, ?_, ?_, ?_⟩)
       on_goal 1 => with_reducible assumption)

theorem State.endTest_sound {s : State} {r : TestRun} (hS : Sound qu mb s) :
    Sound qu mb (State.endTest s r) := by
  unfold State.endTest
  dsimp only
  repeat' first
    | with_reducible assumption
    | with_reducible refine State.conversionArmed_sound ?_
    | with_reducible refine State.enterDormant_sound ?_
    | with_reducible refine State.setPwr_sound ?_
    | with_reducible refine State.reachArmed_sound ?_
    | with_reducible refine State.safeForRecord_sound ?_
    | with_reducible refine State.enterSafe_sound ?_
    | with_reducible refine State.setClk_sound ?_
    | with_reducible exact hx.regs
    | with_reducible exact hx.events
    | with_reducible exact hx.staged
    | with_reducible exact hx.queue
    | with_reducible exact hx.mem
    | split
    | (with_reducible refine Sound.build ?_ (fun hx => ⟨?_, ?_, ?_, ?_, ?_⟩)
       on_goal 1 => with_reducible refine State.setBst_sound ?_)

theorem State.testStep_sound {s : State} {m : Measured} (hS : Sound qu mb s) :
    Sound qu mb (State.testStep s m) := by
  unfold State.testStep
  try dsimp only
  repeat' first
    | with_reducible assumption
    | with_reducible refine State.wake_sound ?_
    | with_reducible refine State.judgeStep_sound ?_
    | with_reducible refine State.endTest_sound ?_
    | with_reducible refine State.finishTest_sound ?_
    | with_reducible refine State.beginLbist_sound ?_
    | with_reducible refine State.notRun_sound ?_
    | with_reducible refine State.setBst_sound ?_
    | with_reducible refine State.startOwn_sound ?_
    | with_reducible refine Sound.snd ?_ (by assumption)
    | with_reducible exact hx.regs
    | with_reducible exact hx.events
    | with_reducible exact hx.staged
    | with_reducible exact hx.queue
    | with_reducible exact hx.mem
    | with_reducible exact Memory.keep_wf hx.mem
    | split

theorem State.testWakeDone_sound {s : State} {r : TestRun} (hS : Sound qu mb s) :
    Sound qu mb (State.testWakeDone s r) := by
  unfold State.testWakeDone
  dsimp only
  repeat' first
    | with_reducible assumption
    | with_reducible refine State.setBst_sound ?_
    | with_reducible refine State.stepEffect_sound ?_

theorem State.testWakeFail_sound {s : State} {r : TestRun} (hS : Sound qu mb s) :
    Sound qu mb (State.testWakeFail s r) := by
  unfold State.testWakeFail
  repeat' first
    | with_reducible assumption
    | with_reducible refine State.finishTest_sound ?_
    | with_reducible refine State.railsDownTo_sound ?_

/-! ### Wake -/

theorem State.por_sound {s : State} (hS : Sound qu mb s) :
    Sound qu mb (State.por s) := by
  unfold State.por
  dsimp only
  repeat' first
    | with_reducible refine State.startReset_sound ?_
    | with_reducible exact hx.regs
    | with_reducible exact hx.events
    | with_reducible exact hx.staged
    | with_reducible exact hx.queue
    | with_reducible exact hx.mem
    | (with_reducible refine Sound.build ?_ (fun hx => ⟨?_, ?_, ?_, ?_, ?_⟩)
       on_goal 1 => with_reducible assumption)

theorem State.porRelease_sound {s : State} {cfgsel : Nat} {spi : Bool} (hS : Sound qu mb s) :
    Sound qu mb (State.porRelease s cfgsel spi) := by
  unfold State.porRelease
  dsimp only
  repeat' first
    | with_reducible assumption
    | with_reducible refine State.setPwr_sound ?_
    | with_reducible refine State.released_sound ?_
    | with_reducible refine State.sampleStraps_sound ?_
    | split

theorem State.bor_sound {s : State} (hS : Sound qu mb s) :
    Sound qu mb (State.bor s) := by
  unfold State.bor
  dsimp only
  repeat' first
    | with_reducible assumption
    | with_reducible refine State.setPwr_sound ?_
    | with_reducible refine State.startReset_sound ?_
    | split

theorem State.borRelease_sound {s : State} (hS : Sound qu mb s) :
    Sound qu mb (State.borRelease s) := by
  unfold State.borRelease
  dsimp only
  repeat' first
    | with_reducible assumption
    | with_reducible refine State.setPwr_sound ?_
    | with_reducible refine State.released_sound ?_
    | split

theorem State.pinReset_sound {s : State} (hS : Sound qu mb s) :
    Sound qu mb (State.pinReset s) := by
  unfold State.pinReset
  dsimp only
  repeat' first
    | with_reducible assumption
    | with_reducible refine State.setPwr_sound ?_
    | with_reducible refine State.startReset_sound ?_
    | split

theorem State.resetNRelease_sound {s : State} (hS : Sound qu mb s) :
    Sound qu mb (State.resetNRelease s) := by
  unfold State.resetNRelease
  dsimp only
  repeat' first
    | with_reducible assumption
    | with_reducible refine State.setPwr_sound ?_
    | with_reducible refine State.released_sound ?_
    | split

theorem State.supplyWarn_sound {s : State} (hS : Sound qu mb s) :
    Sound qu mb (State.supplyWarn s) := by
  unfold State.supplyWarn
  dsimp only
  repeat' first
    | with_reducible assumption
    | with_reducible refine State.assertWarn_sound ?_
    | with_reducible refine State.testEvent_sound ?_
    | with_reducible refine State.setPwr_sound ?_

theorem State.resumeWake_sound {s : State} (hS : Sound qu mb s) :
    Sound qu mb (State.resumeWake s) := by
  unfold State.resumeWake
  dsimp only
  repeat' first
    | with_reducible assumption
    | with_reducible refine State.setPwr_sound ?_
    | with_reducible refine State.startStep_sound ?_
    | split

theorem State.supplyReturns_sound {s : State} (hS : Sound qu mb s) :
    Sound qu mb (State.supplyReturns s) := by
  unfold State.supplyReturns
  dsimp only
  repeat' first
    | with_reducible assumption
    | with_reducible refine State.setPwr_sound ?_
    | with_reducible refine State.deassertWarn_sound ?_
    | with_reducible refine State.resumeWake_sound ?_
    | split

theorem State.supplyWaitEnd_sound {s : State} (hS : Sound qu mb s) :
    Sound qu mb (State.supplyWaitEnd s) := by
  unfold State.supplyWaitEnd
  dsimp only
  repeat' first
    | with_reducible assumption
    | with_reducible refine State.setPwr_sound ?_
    | with_reducible refine State.resumeWake_sound ?_
    | split

theorem State.copyHead_sound {s : State} (hS : Sound qu mb s) :
    Sound qu mb (State.copyHead s) := by
  unfold State.copyHead
  dsimp only
  repeat' first
    | with_reducible assumption
    | with_reducible exact hx.regs
    | with_reducible exact hx.events
    | with_reducible exact hx.staged
    | with_reducible exact hx.queue
    | with_reducible exact hx.mem
    | split
    | with_reducible refine Sound.foldl _ ?_ (fun _ _ _ => ?_)
    | (with_reducible refine Sound.build ?_ (fun hx => ⟨?_, ?_, ?_, ?_, ?_⟩)
       on_goal 1 => with_reducible refine State.appendLog_sound ?_)

theorem State.decideRecord_sound {s : State} {r : List Byte} (hS : Sound qu mb s) :
    Sound qu mb (State.decideRecord s r) := by
  unfold State.decideRecord
  dsimp only
  repeat' first
    | with_reducible assumption
    | with_reducible refine State.setBst_sound ?_
    | with_reducible refine State.reachArmed_sound ?_
    | with_reducible refine State.safeForRecord_sound ?_
    | split

theorem State.finishStage_sound {s : State} (hS : Sound qu mb s) :
    Sound qu mb (State.finishStage s) := by
  unfold State.finishStage
  dsimp only
  repeat' first
    | with_reducible assumption
    | with_reducible refine State.finishSyncs_sound ?_
    | with_reducible refine State.copyHead_sound ?_
    | with_reducible refine State.decideRecord_sound ?_
    | with_reducible refine State.keepRecord_sound ?_
    | split

theorem State.startRead_sound {s : State} {out : RecordRead} (hS : Sound qu mb s) :
    Sound qu mb (State.startRead s out) := by
  unfold State.startRead
  dsimp only
  repeat' first
    | with_reducible assumption
    | with_reducible refine State.setBst_sound ?_
    | with_reducible refine State.count_sound ?_
    | with_reducible refine State.setFld_sound ?_
    | with_reducible refine State.setFlag_sound ?_
    | with_reducible refine State.countBy_sound ?_
    | split

theorem State.colophonFail_sound {s : State} (hS : Sound qu mb s) :
    Sound qu mb (State.colophonFail s) := by
  unfold State.colophonFail
  try dsimp only
  repeat' first
    | with_reducible assumption
    | with_reducible refine State.injectedIf_sound ?_ (fun _ _ => ?_)
    | with_reducible refine State.injDone_sound ?_
    | with_reducible refine State.wakeFail_sound ?_
    | split

theorem State.completeStep_sound {s : State} {n : Nat} (hS : Sound qu mb s) :
    Sound qu mb (State.completeStep s n) := by
  unfold State.completeStep
  try dsimp only
  repeat' first
    | with_reducible assumption
    | with_reducible refine State.enterSafe_sound ?_
    | with_reducible refine State.copyHead_sound ?_
    | with_reducible refine State.wakeDone_sound ?_
    | with_reducible refine State.wakeEnds_sound ?_
    | with_reducible refine State.armStep_sound ?_
    | with_reducible refine State.colophonFail_sound ?_
    | with_reducible refine State.startStep_sound ?_
    | with_reducible refine State.reachArmed_sound ?_
    | with_reducible refine State.stepEffect_sound ?_
    | with_reducible refine Sound.snd ?_ (by assumption)
    | with_reducible exact hx.regs
    | with_reducible exact hx.events
    | with_reducible exact hx.staged
    | with_reducible exact hx.queue
    | with_reducible exact hx.mem
    | with_reducible exact Memory.keep_wf hx.mem
    | split

theorem State.stepCompletes_sound {s : State} (hS : Sound qu mb s) :
    Sound qu mb (State.stepCompletes s) := by
  unfold State.stepCompletes
  repeat' first
    | with_reducible assumption
    | with_reducible refine State.completeStep_sound ?_
    | with_reducible refine State.testWakeDone_sound ?_
    | split

theorem State.stepTimesOut_sound {s : State} (hS : Sound qu mb s) :
    Sound qu mb (State.stepTimesOut s) := by
  unfold State.stepTimesOut
  repeat' first
    | with_reducible assumption
    | with_reducible refine State.testWakeFail_sound ?_
    | with_reducible refine State.colophonFail_sound ?_
    | with_reducible refine State.wakeFail_sound ?_
    | split

theorem State.retryWake_sound {s : State} {tmo : Option Nat} (hS : Sound qu mb s) :
    Sound qu mb (State.retryWake s tmo) := by
  unfold State.retryWake
  dsimp only
  repeat' first
    | with_reducible assumption
    | with_reducible refine State.setReg_sound ?_
    | with_reducible refine State.setPwr_sound ?_
    | with_reducible refine State.startStep_sound ?_
    | split

theorem State.refclkLoss_sound {s : State} {cause : Nat} (hS : Sound qu mb s) :
    Sound qu mb (State.refclkLoss s cause) := by
  unfold State.refclkLoss
  dsimp only
  repeat' first
    | with_reducible assumption
    | with_reducible refine State.testEvent_sound ?_
    | with_reducible refine State.wakeFail_sound ?_
    | with_reducible refine State.declareLoss_sound ?_
    | split

theorem State.shutdown_sound {s : State} (hS : Sound qu mb s) :
    Sound qu mb (State.shutdown s) := by
  unfold State.shutdown
  repeat' first
    | with_reducible assumption
    | with_reducible refine State.enterDormant_sound ?_
    | with_reducible refine State.startTest_sound ?_
    | with_reducible refine State.leaveSafe_sound ?_
    | split

theorem State.bstRun_sound {s : State} (hS : Sound qu mb s) :
    Sound qu mb (State.bstRun s) := by
  unfold State.bstRun
  repeat' first
    | with_reducible assumption
    | with_reducible refine State.startTest_sound ?_
    | with_reducible refine State.leaveSafe_sound ?_
    | split

/-! ### Inject -/

theorem State.wdogExpiry_sound {s : State} (hS : Sound qu mb s) :
    Sound qu mb (State.wdogExpiry s) := by
  unfold State.wdogExpiry
  repeat' first
    | with_reducible assumption
    | with_reducible refine State.logFault_sound ?_
    | with_reducible refine State.startReset_sound ?_
    | split

theorem State.injHolds_sound {s : State} {det : Nat} (hS : Sound qu mb s) :
    Sound qu mb (State.injHolds s det) := by
  unfold State.injHolds
  dsimp only
  repeat' first
    | with_reducible assumption
    | with_reducible refine State.setFlt_sound ?_ (fun hx => ?_)
    | with_reducible exact hx.events

theorem State.injectNow_sound {s : State} {det arg : Nat} (hS : Sound qu mb s) :
    Sound qu mb (State.injectNow s det arg) := by
  unfold State.injectNow
  dsimp only
  repeat' first
    | with_reducible assumption
    | with_reducible refine State.wdogExpiry_sound ?_
    | with_reducible refine State.refclkLoss_sound ?_
    | with_reducible refine State.injected_sound ?_ (fun _ _ => ?_)
    | with_reducible refine State.sticky_sound ?_
    | with_reducible refine State.injHolds_sound ?_
    | with_reducible refine State.startReset_sound ?_
    | with_reducible refine State.setFlt_sound ?_ (fun hx => ?_)
    | with_reducible refine State.spent_sound ?_
    | with_reducible refine State.declareMacro_sound ?_
    | with_reducible refine State.droop_sound ?_
    | with_reducible refine State.staleNow_sound ?_
    | with_reducible refine State.assertWarn_sound ?_
    | with_reducible refine State.txnTimeout_sound ?_
    | with_reducible exact hx.events
    | split

theorem State.fire_sound {s : State} {det arg : Nat} (hS : Sound qu mb s) :
    Sound qu mb ((State.fire s det arg).2) := by
  unfold State.fire
  dsimp only
  repeat' first
    | with_reducible assumption
    | with_reducible refine State.injected_sound ?_ (fun _ _ => ?_)
    | with_reducible refine State.setFld_sound ?_
    | with_reducible refine State.setFlag_sound ?_
    | with_reducible refine State.raise_sound ?_
    | with_reducible refine State.injectNow_sound ?_
    | split

theorem State.injEnd_sound {s : State} {det : Nat} (hS : Sound qu mb s) :
    Sound qu mb (State.injEnd s det) := by
  unfold State.injEnd
  dsimp only
  repeat' first
    | with_reducible assumption
    | with_reducible refine State.setFlt_sound ?_ (fun hx => ?_)
    | with_reducible refine State.setPwr_sound ?_
    | with_reducible refine State.deassertWarn_sound ?_
    | with_reducible refine State.resumeWake_sound ?_
    | with_reducible exact hx.events
    | split

theorem State.realDroop_sound {s : State} {second : Bool} (hS : Sound qu mb s) :
    Sound qu mb (State.realDroop s second) := by
  unfold State.realDroop
  dsimp only
  repeat' first
    | with_reducible assumption
    | with_reducible refine State.droop_sound ?_
    | with_reducible refine State.setFlt_sound ?_ (fun hx => ?_)
    | with_reducible exact hx.events

end Sys2Proof.Machine
end

