-- ==== Sys2Proof/Laws/SoundPort.lean ====
section
/-! SUPPORT.
What the operations of Machine/RegRead, RegWrite, Bulk, Port, Tick, HostAccess keep (`Sound`), one lemma per operation.
-/
namespace Sys2Proof.Machine

variable {qu : List Instr} {mb : Part}

/-! ### RegRead -/

theorem State.readEffect_sound {s : State} {a i : Nat} (hS : Sound qu mb s) :
    Sound qu mb (State.readEffect s a i) := by
  unfold State.readEffect
  dsimp only
  repeat' first
    | with_reducible assumption
    | with_reducible refine State.setMem_sound ?_ (fun hx => ?_)
    | with_reducible refine State.setReg_sound ?_
    | with_reducible refine State.popQueue_sound ?_
    | with_reducible refine State.fifoPop_sound ?_
    | with_reducible refine State.bufferNext_sound ?_
    | with_reducible exact Memory.keepCorrected_wf hx.mem
    | split

theorem State.readDirect_sound {s : State} {route : Route} {inspect : Bool} {a : Nat} (hS : Sound qu mb s) :
    Sound qu mb ((State.readDirect s route inspect a).2) := by
  unfold State.readDirect
  dsimp only
  repeat' first
    | with_reducible assumption
    | with_reducible refine State.readEffect_sound ?_
    | split

theorem State.readReg_sound {s : State} {route : Route} {inspect : Bool} {a : Nat} (hS : Sound qu mb s) :
    Sound qu mb ((State.readReg s route inspect a).2) := by
  unfold State.readReg
  dsimp only
  repeat' first
    | with_reducible assumption
    | with_reducible refine State.readDirect_sound ?_
    | split

theorem State.hostRead_sound {s : State} {route : Route} {inspect : Bool} {a : Nat} (hS : Sound qu mb s) :
    Sound qu mb ((State.hostRead s route inspect a).2) := by
  unfold State.hostRead
  repeat' first
    | with_reducible assumption
    | with_reducible refine State.readReg_sound ?_
    | split

/-! ### RegWrite -/

/-- A write staged stays within the slots. -/
theorem Bindery.stage_slots {b b' : Bindery} {w : Staged} (hb : b.staged.length ≤ stagingSlots)
    (e : b.stage w = some b') : b'.staged.length ≤ stagingSlots := by
  unfold Bindery.stage at e
  split at e
  · cases e
    simpa using hb
  · split at e
    · cases e
      simp only [List.length_append, List.length_singleton]
      omega
    · cases e

/-- Several writes staged stay within the slots. -/
theorem Bindery.stageAll_slots {b b' : Bindery} {ws : List Staged} (hb : b.staged.length ≤ stagingSlots)
    (e : b.stageAll ws = some b') : b'.staged.length ≤ stagingSlots := by
  induction ws generalizing b with
  | nil => cases e; exact hb
  | cons w ws ih =>
    unfold Bindery.stageAll at e
    split at e
    · exact ih (Bindery.stage_slots hb (by assumption)) e
    · cases e

theorem State.putTrans_sound {s : State} {ws : List Staged} {divs : List Nat} (hS : Sound qu mb s) :
    Sound qu mb ((State.putTrans s ws divs).2) := by
  unfold State.putTrans
  dsimp only
  repeat' first
    | with_reducible assumption
    | with_reducible refine State.setBnd_sound ?_ (fun hx => ?_)
    | with_reducible refine State.nextGen_sound ?_
    | with_reducible refine State.makeLive_sound ?_
    | with_reducible exact Bindery.stageAll_slots (Sound.staged (by assumption)) (by assumption)
    | split
    | with_reducible refine Sound.foldl _ ?_ (fun _ _ _ => ?_)

theorem State.writeColumns_sound {s : State} {a : Nat} {w : Word} (hS : Sound qu mb s) :
    Sound qu mb ((State.writeColumns s a w).2) := by
  unfold State.writeColumns
  dsimp only
  repeat' first
    | with_reducible assumption
    | with_reducible refine State.putTrans_sound ?_
    | with_reducible refine State.setReg_sound ?_
    | with_reducible refine State.setBnd_sound ?_ (fun hx => ?_)
    | with_reducible exact Bindery.stageAll_slots (Sound.staged (by assumption)) (by assumption)
    | split

theorem State.writeTrans_sound {s : State} {route : Route} {a i : Nat} {v m : Word} (hS : Sound qu mb s) :
    Sound qu mb ((State.writeTrans s route a i v m).2) := by
  unfold State.writeTrans
  dsimp only
  repeat' first
    | with_reducible assumption
    | with_reducible refine State.putTrans_sound ?_
    | with_reducible refine State.writeColumns_sound ?_
    | split

theorem State.storeReg_sound {s : State} {a i : Nat} {v m : Word} (hS : Sound qu mb s) :
    Sound qu mb (State.storeReg s a i v m) := by
  unfold State.storeReg
  repeat' first
    | with_reducible assumption
    | with_reducible refine State.setReg_sound ?_

theorem unlessLost_sound {s : State} {lost : Bool} {t : State} (hs : Sound qu mb s) (ht : Sound qu mb t) :
    Sound qu mb (unlessLost s lost t).2 := by
  unfold unlessLost
  split
  · exact hs
  · exact ht

theorem ifOk_sound {s : State} {e : Nat} {t : State} (hs : Sound qu mb s) (ht : Sound qu mb t) :
    Sound qu mb (ifOk s e t).2 := by
  unfold ifOk
  dsimp only
  split
  · exact ht
  · exact hs

theorem State.writeSystem_sound {s : State} {a : Nat} {v m : Word} (hS : Sound qu mb s) :
    Sound qu mb ((State.writeSystem s a v m).2) := by
  unfold State.writeSystem
  dsimp only
  repeat' first
    | with_reducible assumption
    | with_reducible refine State.storeReg_sound ?_
    | with_reducible refine State.openGate_sound ?_
    | with_reducible refine State.request_sound ?_
    | with_reducible refine State.setFld_sound ?_
    | with_reducible refine ifOk_sound ?_ ?_
    | with_reducible refine State.writeRefdiv_sound ?_
    | with_reducible refine State.startReset_sound ?_
    | split

theorem State.writeImaging_sound {s : State} {a i : Nat} {v m : Word} (hS : Sound qu mb s) :
    Sound qu mb ((State.writeImaging s a i v m).2) := by
  unfold State.writeImaging
  dsimp only
  repeat' first
    | with_reducible assumption
    | with_reducible refine State.writeRun_sound ?_
    | with_reducible refine State.storeReg_sound ?_
    | with_reducible refine ifOk_sound ?_ ?_
    | with_reducible refine State.startCompile_sound ?_
    | split

theorem State.writeCapture_sound {s : State} {k : Nat} {v m : Word} (hS : Sound qu mb s) :
    Sound qu mb (State.writeCapture s k v m) := by
  unfold State.writeCapture
  dsimp only
  repeat' first
    | with_reducible assumption
    | with_reducible refine State.writeCaptureCfg_sound ?_
    | with_reducible refine State.setCapture_sound ?_
    | split

theorem State.writeSpine_sound {s : State} {a i : Nat} {v m : Word} {lost : Bool} (hS : Sound qu mb s) :
    Sound qu mb ((State.writeSpine s a i v m lost).2) := by
  unfold State.writeSpine
  dsimp only
  repeat' first
    | with_reducible assumption
    | with_reducible refine State.loadCompare_sound ?_
    | with_reducible refine State.storeReg_sound ?_
    | with_reducible refine State.writeCapture_sound ?_
    | with_reducible refine State.loadCounter_sound ?_
    | with_reducible refine State.setCounter_sound ?_
    | with_reducible refine ifOk_sound ?_ ?_
    | with_reducible refine State.spnGo_sound ?_
    | with_reducible refine State.arm_sound ?_
    | with_reducible refine State.setCompare_sound ?_
    | with_reducible refine unlessLost_sound ?_ ?_
    | split

theorem State.writePosition_sound {s : State} {v m : Word} {lost : Bool} (hS : Sound qu mb s) :
    Sound qu mb ((State.writePosition s v m lost).2) := by
  unfold State.writePosition
  dsimp only
  repeat' first
    | with_reducible assumption
    | with_reducible refine State.preset_sound ?_
    | with_reducible refine State.posWrite_sound ?_
    | with_reducible refine State.atPosition_sound ?_
    | with_reducible refine unlessLost_sound ?_ ?_
    | split

theorem State.writeSensing_sound {s : State} {a i : Nat} {v m : Word} {lost : Bool} (hS : Sound qu mb s) :
    Sound qu mb ((State.writeSensing s a i v m lost).2) := by
  unfold State.writeSensing
  dsimp only
  repeat' first
    | with_reducible assumption
    | with_reducible refine State.askRound_sound ?_
    | with_reducible refine State.storeReg_sound ?_
    | with_reducible refine State.useTemp_sound ?_
    | with_reducible refine State.writePosition_sound ?_
    | with_reducible refine unlessLost_sound ?_ ?_
    | split

theorem State.writeEngine_sound {s : State} {a i : Nat} {v m : Word} {lost : Bool} (hS : Sound qu mb s) :
    Sound qu mb ((State.writeEngine s a i v m lost).2) := by
  unfold State.writeEngine
  dsimp only
  repeat' first
    | with_reducible assumption
    | with_reducible refine State.clearParts_sound ?_
    | with_reducible refine State.storeReg_sound ?_
    | with_reducible refine State.injectPart_sound ?_
    | with_reducible refine State.setEngine_sound ?_
    | with_reducible refine State.writeCore_sound ?_
    | with_reducible refine ifOk_sound ?_ ?_
    | with_reducible refine State.forceHalt_sound ?_
    | with_reducible refine State.agtGo_sound ?_
    | with_reducible refine State.fifoPush_sound ?_
    | with_reducible refine unlessLost_sound ?_ ?_
    | split

theorem State.writeBus_sound {s : State} {a : Nat} {v m : Word} (hS : Sound qu mb s) :
    Sound qu mb ((State.writeBus s a v m).2) := by
  unfold State.writeBus
  dsimp only
  repeat' first
    | with_reducible assumption
    | with_reducible refine State.storeReg_sound ?_
    | with_reducible refine State.setFld_sound ?_
    | with_reducible refine State.bufferWrite_sound ?_
    | with_reducible refine State.writeXfer_sound ?_
    | split

theorem State.writeIntegrity_sound {s : State} {a i : Nat} {v m : Word} (hS : Sound qu mb s) :
    Sound qu mb ((State.writeIntegrity s a i v m).2) := by
  unfold State.writeIntegrity
  dsimp only
  repeat' first
    | with_reducible assumption
    | with_reducible refine State.storeReg_sound ?_
    | with_reducible refine State.writeFlip_sound ?_
    | with_reducible refine ifOk_sound ?_ ?_
    | with_reducible refine State.fire_sound ?_
    | with_reducible refine State.injDone_sound ?_
    | with_reducible refine State.writeRetire_sound ?_
    | with_reducible refine State.writeRaw_sound ?_
    | split

theorem State.writeThrough_sound {s : State} {a i : Nat} {v m : Word} {lost : Bool} (hS : Sound qu mb s) :
    Sound qu mb ((State.writeThrough s a i v m lost).2) := by
  unfold State.writeThrough
  repeat' first
    | with_reducible assumption
    | with_reducible refine State.writeEngine_sound ?_
    | with_reducible refine State.writeBus_sound ?_
    | with_reducible refine State.writeImaging_sound ?_
    | with_reducible refine State.writeSystem_sound ?_
    | with_reducible refine State.writeIntegrity_sound ?_
    | with_reducible refine State.writeSpine_sound ?_
    | with_reducible refine State.writeSensing_sound ?_
    | split

theorem State.writeDirect_sound {s : State} {route : Route} {a : Nat} {v m : Word} {lost : Bool} (hS : Sound qu mb s) :
    Sound qu mb ((State.writeDirect s route a v m lost).2) := by
  unfold State.writeDirect
  dsimp only
  repeat' first
    | with_reducible assumption
    | with_reducible refine State.writeThrough_sound ?_
    | with_reducible refine State.writeTrans_sound ?_
    | split

theorem State.writeMasked_sound {s : State} {route : Route} {a : Nat} {v m : Word} {lost : Bool} (hS : Sound qu mb s) :
    Sound qu mb ((State.writeMasked s route a v m lost).2) := by
  unfold State.writeMasked
  repeat' first
    | with_reducible assumption
    | with_reducible refine State.writeDirect_sound ?_
    | split

theorem State.writeReg_sound {s : State} {route : Route} {a : Nat} {v : Word} {lost : Bool} (hS : Sound qu mb s) :
    Sound qu mb ((State.writeReg s route a v lost).2) := by
  unfold State.writeReg
  repeat' first
    | with_reducible assumption
    | with_reducible refine State.writeMasked_sound ?_

/-! ### Bulk -/

/-- Noting a written bank leaves the staging slots alone. -/
theorem Bindery.setWrote_slots {b : Bindery} {x : BankedStore} {n : Nat} (h : b.staged.length ≤ n) :
    (b.setWrote x).staged.length ≤ n := by
  cases x <;> exact h

theorem State.refuse_sound {s : State} {e : Nat} (hS : Sound qu mb s) :
    Sound qu mb ((State.refuse s e).state) := by
  unfold State.refuse
  dsimp only
  assumption

theorem State.bulkRead_sound {s : State} {x : Extent} {inspect : Bool} (hS : Sound qu mb s) :
    Sound qu mb ((State.bulkRead s x inspect).state) := by
  unfold State.bulkRead
  dsimp only
  repeat' first
    | with_reducible assumption
    | with_reducible refine State.readBytes_sound ?_
    | with_reducible refine State.refuse_sound ?_
    | with_reducible refine Sound.snd ?_ (by assumption)
    | split

theorem State.bulkStore_sound {s : State} {x : Extent} {d : List Byte} (hS : Sound qu mb s) :
    Sound qu mb (State.bulkStore s x d) := by
  unfold State.bulkStore
  dsimp only
  repeat' first
    | with_reducible assumption
    | with_reducible refine State.setBnd_sound ?_ (fun hx => ?_)
    | with_reducible refine State.writeBytes_sound ?_
    | with_reducible refine State.setMem_sound ?_ (fun hx => ?_)
    | with_reducible exact Memory.writeRawWords_wf hx.mem
    | with_reducible exact Bindery.setWrote_slots hx.staged
    | split

theorem State.bulkWrite_sound {s : State} {x : Extent} {d : List Byte} (hS : Sound qu mb s) :
    Sound qu mb ((State.bulkWrite s x d).state) := by
  unfold State.bulkWrite
  dsimp only
  repeat' first
    | with_reducible assumption
    | with_reducible refine State.checkWaves_sound ?_
    | with_reducible refine State.refuse_sound ?_
    | with_reducible exact hx.regs
    | with_reducible exact hx.events
    | with_reducible exact hx.staged
    | with_reducible exact hx.queue
    | with_reducible exact hx.mem
    | split
    | dsimp only
    | (with_reducible refine Sound.build ?_ (fun hx => ⟨?_, ?_, ?_, ?_, ?_⟩)
       on_goal 1 => with_reducible refine State.bulkStore_sound ?_)

theorem State.burstAccess_sound {s : State} {b : Burst} (hS : Sound qu mb s) :
    Sound qu mb ((State.burstAccess s b).state) := by
  unfold State.burstAccess
  dsimp only
  split
  · exact State.hostRead_sound hS
  · exact State.writeReg_sound hS

theorem State.regModify_sound {s : State} {a : Nat} {d : List Byte} {lost : Bool} (hS : Sound qu mb s) :
    Sound qu mb ((State.regModify s a d lost).state) := by
  unfold State.regModify
  dsimp only
  repeat' first
    | with_reducible assumption
    | with_reducible refine State.writeMasked_sound ?_
    | with_reducible refine State.refuse_sound ?_
    | split

theorem State.eventRead_sound {s : State} {len : Nat} {inspect : Bool} (hS : Sound qu mb s) :
    Sound qu mb ((State.eventRead s len inspect).state) := by
  unfold State.eventRead
  dsimp only
  split
  · exact hS
  · refine Sound.build hS fun hx => ⟨hx.regs, hx.mem, ?_, hx.staged, hx.queue⟩
    have := hx.events
    simp only [List.length_drop]
    omega

/-! ### Port -/

/-- The state of an answer without data. -/
theorem Answer.of_sound {r : Nat × State} (h : Sound qu mb r.2) : Sound qu mb (Answer.of r).state := h

theorem State.setPort_sound {s : State} {x : Port} (hS : Sound qu mb s) :
    Sound qu mb (State.setPort s x) := by
  unfold State.setPort
  exact Sound.build hS fun hx => ⟨hx.regs, hx.mem, hx.events, hx.staged, hx.queue⟩

theorem State.slotBegin_sound {s : State} (hS : Sound qu mb s) :
    Sound qu mb (State.slotBegin s) := by
  unfold State.slotBegin
  dsimp only
  repeat' first
    | with_reducible assumption
    | with_reducible refine State.setPort_sound ?_
    | split

theorem State.closeSlot_sound {s : State} (hS : Sound qu mb s) :
    Sound qu mb (State.closeSlot s) := by
  unfold State.closeSlot
  dsimp only
  repeat' first
    | with_reducible assumption
    | with_reducible refine State.setPort_sound ?_

theorem State.ignoreSlot_sound {s : State} (hS : Sound qu mb s) :
    Sound qu mb (State.ignoreSlot s) := by
  unfold State.ignoreSlot
  dsimp only
  repeat' first
    | with_reducible assumption
    | with_reducible exact hx.regs
    | with_reducible exact hx.events
    | with_reducible exact hx.staged
    | with_reducible exact hx.queue
    | with_reducible exact hx.mem
    | (with_reducible refine Sound.build ?_ (fun hx => ⟨?_, ?_, ?_, ?_, ?_⟩)
       on_goal 1 => with_reducible refine State.closeSlot_sound ?_)

theorem State.prepare_sound {s : State} {r : Response} {bulk : Bool} (hS : Sound qu mb s) :
    Sound qu mb (State.prepare s r bulk) := by
  unfold State.prepare
  dsimp only
  repeat' first
    | with_reducible assumption
    | with_reducible refine State.setPort_sound ?_

theorem State.fail_sound {s : State} {p : Packet} {e : Nat} (hS : Sound qu mb s) :
    Sound qu mb (State.fail s p e) := by
  unfold State.fail
  repeat' first
    | with_reducible assumption
    | with_reducible refine State.prepare_sound ?_

theorem State.portError_sound {s : State} {f : Field} (hS : Sound qu mb s) :
    Sound qu mb (State.portError s f) := by
  unfold State.portError
  repeat' first
    | with_reducible assumption
    | with_reducible refine State.count_sound ?_
    | with_reducible refine State.setFlag_sound ?_

theorem State.dueApply_sound {s : State} (hS : Sound qu mb s) :
    Sound qu mb (State.dueApply s) := by
  unfold State.dueApply
  repeat' first
    | with_reducible assumption
    | with_reducible refine State.applyTxn_sound ?_
    | split

theorem State.refusePacket_sound {s : State} {seq : Nat} (hS : Sound qu mb s) :
    Sound qu mb (State.refusePacket s seq) := by
  unfold State.refusePacket
  dsimp only
  repeat' first
    | with_reducible assumption
    | with_reducible refine State.count_sound ?_
    | with_reducible refine State.setPort_sound ?_

theorem State.commitPacket_sound {s : State} {p : Packet} (hS : Sound qu mb s) :
    Sound qu mb ((State.commitPacket s p).state) := by
  unfold State.commitPacket
  repeat' first
    | with_reducible assumption
    | with_reducible refine State.refuse_sound ?_
    | with_reducible refine State.txnCommit_sound ?_
    | with_reducible refine Answer.of_sound ?_
    | split

theorem State.retryPacket_sound {s : State} {p : Packet} (hS : Sound qu mb s) :
    Sound qu mb ((State.retryPacket s p).state) := by
  unfold State.retryPacket
  dsimp only
  repeat' first
    | with_reducible assumption
    | with_reducible refine State.retryWake_sound ?_

theorem State.execPacket_sound {s : State} {p : Packet} {lost : Bool} (hS : Sound qu mb s) :
    Sound qu mb ((State.execPacket s p lost).state) := by
  unfold State.execPacket
  repeat' first
    | with_reducible assumption
    | with_reducible refine State.bstRun_sound ?_
    | with_reducible refine State.txnAbort_sound ?_
    | with_reducible refine State.bulkWrite_sound ?_
    | with_reducible refine State.refuse_sound ?_
    | with_reducible refine State.eventRead_sound ?_
    | with_reducible refine State.commitPacket_sound ?_
    | with_reducible refine State.txnBegin_sound ?_
    | with_reducible refine State.regModify_sound ?_
    | with_reducible refine State.shutdown_sound ?_
    | with_reducible refine State.retryPacket_sound ?_
    | with_reducible refine State.bulkRead_sound ?_
    | with_reducible refine Answer.of_sound ?_
    | split

theorem Answer.finish_sound {r : Answer} {p : Packet} (hS : Sound qu mb r.state) :
    Sound qu mb (Answer.finish r p) := by
  unfold Answer.finish
  dsimp only
  repeat' first
    | with_reducible assumption
    | with_reducible refine State.setFld_sound ?_
    | with_reducible refine State.prepare_sound ?_
    | with_reducible refine State.setPort_sound ?_
    | split

theorem State.burstNext_sound {s : State} {b : Burst} (hS : Sound qu mb s) : Sound qu mb (State.burstNext s b) := by
  unfold State.burstNext
  dsimp only
  have h := State.burstAccess_sound (b := b) hS
  split
  · exact h
  · split
    · exact State.setPort_sound h
    · exact State.setPort_sound (Answer.finish_sound (State.setPort_sound h))

theorem State.burstStep_sound {s : State} (hS : Sound qu mb s) : Sound qu mb (State.burstStep s) := by
  unfold State.burstStep
  split
  · exact State.burstNext_sound hS
  · exact hS

theorem State.endBurst_sound {s : State} (hS : Sound qu mb s) : Sound qu mb (State.endBurst s) := by
  unfold State.endBurst
  split
  · exact Sound.foldl _ hS fun _ _ ht => State.burstStep_sound ht
  · exact hS

theorem State.respReady_sound {s : State} (hS : Sound qu mb s) :
    Sound qu mb (State.respReady s) := by
  unfold State.respReady
  dsimp only
  repeat' first
    | with_reducible assumption
    | with_reducible refine State.endBurst_sound ?_
    | with_reducible refine State.dueApply_sound ?_
    | with_reducible refine State.setPort_sound ?_
    | split

theorem State.freshPacket_sound {s : State} {p : Packet} {lost : BitVec 32} (hS : Sound qu mb s) :
    Sound qu mb (State.freshPacket s p lost) := by
  unfold State.freshPacket
  repeat' first
    | with_reducible assumption
    | with_reducible refine State.burstNext_sound ?_
    | with_reducible refine State.execPacket_sound ?_
    | with_reducible refine Answer.finish_sound ?_
    | with_reducible refine State.fail_sound ?_
    | split

theorem State.atPacket_sound {s : State} (hS : Sound qu mb s) : Sound qu mb (State.atPacket s) := by
  unfold State.atPacket
  split
  · exact hS
  · exact State.endBurst_sound hS

theorem State.runPacket_sound {s : State} {p : Packet} {lost : BitVec 32} (hS : Sound qu mb s) :
    Sound qu mb (State.runPacket s p lost) := by
  unfold State.runPacket
  dsimp only
  repeat' first
    | with_reducible assumption
    | with_reducible refine State.freshPacket_sound ?_
    | with_reducible refine State.dueApply_sound ?_
    | with_reducible refine State.prepare_sound ?_
    | split

theorem State.takePacket_sound {s : State} {p : Packet} {crcOk : Bool} {lost : BitVec 32} (hS : Sound qu mb s) :
    Sound qu mb (State.takePacket s p crcOk lost) := by
  unfold State.takePacket
  dsimp only
  repeat' first
    | with_reducible assumption
    | with_reducible refine State.atPacket_sound ?_
    | with_reducible refine State.runPacket_sound ?_
    | with_reducible refine State.refusePacket_sound ?_
    | with_reducible refine State.fail_sound ?_
    | with_reducible refine State.portError_sound ?_
    | with_reducible refine State.injDone_sound ?_
    | split

theorem State.takeShort_sound {s : State} {b : List Byte} (hS : Sound qu mb s) :
    Sound qu mb (State.takeShort s b) := by
  unfold State.takeShort
  dsimp only
  repeat' first
    | with_reducible assumption
    | with_reducible refine State.atPacket_sound ?_
    | with_reducible refine State.refusePacket_sound ?_
    | with_reducible refine State.fail_sound ?_
    | with_reducible refine State.portError_sound ?_
    | split

theorem State.packetBits_sound {s : State} {sdi : List Bool} (hS : Sound qu mb s) :
    Sound qu mb (State.packetBits s sdi) := by
  unfold State.packetBits
  dsimp only
  repeat' first
    | with_reducible assumption
    | with_reducible refine State.takePacket_sound ?_
    | with_reducible refine State.takeShort_sound ?_
    | split

theorem State.sendShort_sound {s : State} {n : Nat} (hS : Sound qu mb s) :
    Sound qu mb (State.sendShort s n) := by
  unfold State.sendShort
  dsimp only
  repeat' first
    | with_reducible assumption
    | with_reducible refine State.spent_sound ?_
    | with_reducible refine State.setPort_sound ?_

theorem State.shortRead_sound {s : State} {a : BitVec 7} (hS : Sound qu mb s) :
    Sound qu mb (State.shortRead s a) := by
  unfold State.shortRead
  dsimp only
  repeat' first
    | with_reducible assumption
    | with_reducible refine State.setFlag_sound ?_
    | with_reducible refine State.hostRead_sound ?_
    | with_reducible refine State.dueApply_sound ?_
    | with_reducible refine State.slotBegin_sound ?_
    | with_reducible refine State.sendShort_sound ?_
    | split

theorem State.shortWrite_sound {s : State} {a : BitVec 7} {v : Word} {lost : Bool} (hS : Sound qu mb s) :
    Sound qu mb (State.shortWrite s a v lost) := by
  unfold State.shortWrite
  dsimp only
  repeat' first
    | with_reducible assumption
    | with_reducible refine State.dueApply_sound ?_
    | with_reducible refine State.writeReg_sound ?_
    | with_reducible refine State.setFlag_sound ?_
    | with_reducible refine State.portError_sound ?_
    | split

theorem State.shiftedOut_sound {s : State} {n : Nat} (hS : Sound qu mb s) :
    Sound qu mb (State.shiftedOut s n) := by
  unfold State.shiftedOut
  repeat' first
    | with_reducible assumption
    | with_reducible refine State.setPort_sound ?_
    | split

theorem State.slotBits_sound {s : State} {sdi : List Bool} (hS : Sound qu mb s) :
    Sound qu mb (State.slotBits s sdi) := by
  unfold State.slotBits
  dsimp only
  repeat' first
    | with_reducible assumption
    | with_reducible refine State.shortWrite_sound ?_
    | with_reducible refine State.packetBits_sound ?_
    | with_reducible refine State.shiftedOut_sound ?_
    | split

theorem State.slotEnd_sound {s : State} {sdi : List Bool} (hS : Sound qu mb s) :
    Sound qu mb (State.slotEnd s sdi) := by
  unfold State.slotEnd
  dsimp only
  repeat' first
    | with_reducible assumption
    | with_reducible refine State.ignoreSlot_sound ?_
    | with_reducible refine State.slotBits_sound ?_
    | with_reducible refine State.closeSlot_sound ?_
    | with_reducible refine State.shiftedOut_sound ?_
    | with_reducible refine State.portError_sound ?_
    | split

theorem State.packetSlot_sound {s : State} {p : Packet} {lost : BitVec 32} (hS : Sound qu mb s) :
    Sound qu mb (State.packetSlot s p lost) := by
  unfold State.packetSlot
  dsimp only
  repeat' first
    | with_reducible assumption
    | with_reducible refine State.slotBegin_sound ?_
    | with_reducible refine State.takePacket_sound ?_
    | with_reducible refine State.setPort_sound ?_
    | with_reducible refine State.closeSlot_sound ?_
    | split

theorem State.shortWriteSlot_sound {s : State} {a : BitVec 7} {v : Word} {lost : Bool} (hS : Sound qu mb s) :
    Sound qu mb (State.shortWriteSlot s a v lost) := by
  unfold State.shortWriteSlot
  dsimp only
  repeat' first
    | with_reducible assumption
    | with_reducible refine State.slotBegin_sound ?_
    | with_reducible refine State.shortWrite_sound ?_
    | with_reducible refine State.closeSlot_sound ?_
    | split

/-! ### Tick -/

theorem State.faultReset_sound {s : State} (hS : Sound qu mb s) :
    Sound qu mb (State.faultReset s) := by
  unfold State.faultReset
  repeat' first
    | with_reducible assumption
    | with_reducible refine State.startReset_sound ?_

theorem State.injectedLoss_sound {s : State} (hS : Sound qu mb s) :
    Sound qu mb (State.injectedLoss s) := by
  unfold State.injectedLoss
  repeat' first
    | with_reducible assumption
    | with_reducible refine State.injDone_sound ?_
    | with_reducible refine State.encHold_sound ?_
    | split

theorem State.passTick_sound {s : State} (hS : Sound qu mb s) :
    Sound qu mb (State.passTick s) := by
  unfold State.passTick
  dsimp only
  repeat' first
    | with_reducible assumption
    | with_reducible refine State.setMem_sound ?_ (fun hx => ?_)
    | with_reducible exact Memory.keep_wf hx.mem
    | split

theorem State.closeTick_sound {s : State} (hS : Sound qu mb s) :
    Sound qu mb (State.closeTick s) := by
  unfold State.closeTick
  dsimp only
  repeat' first
    | with_reducible assumption
    | with_reducible refine State.posClose_sound ?_
    | with_reducible refine State.injEvents_sound ?_
    | with_reducible refine State.stopNow_sound ?_
    | with_reducible exact hx.regs
    | with_reducible exact hx.events
    | with_reducible exact hx.staged
    | with_reducible exact hx.queue
    | with_reducible exact hx.mem
    | split
    | (with_reducible refine Sound.build ?_ (fun hx => ⟨?_, ?_, ?_, ?_, ?_⟩)
       on_goal 1 => with_reducible refine State.agtClose_sound ?_)

theorem State.openTick_sound {s : State} (hS : Sound qu mb s) :
    Sound qu mb (State.openTick s) := by
  unfold State.openTick
  dsimp only
  repeat' first
    | with_reducible refine State.agtOpen_sound ?_
    | with_reducible exact hx.regs
    | with_reducible exact hx.events
    | with_reducible exact hx.staged
    | with_reducible exact hx.queue
    | with_reducible exact hx.mem
    | (with_reducible refine Sound.build ?_ (fun hx => ⟨?_, ?_, ?_, ?_, ?_⟩)
       on_goal 1 => with_reducible assumption)

theorem State.landEdges_sound {s : State} (hS : Sound qu mb s) :
    Sound qu mb ((State.landEdges s).2.2) := by
  unfold State.landEdges
  dsimp only
  repeat' first
    | with_reducible assumption
    | with_reducible refine State.spent_sound ?_
    | split

theorem State.raiseLands_sound {s : State} {rise : Byte} (hS : Sound qu mb s) :
    Sound qu mb (State.raiseLands s rise) := by
  unfold State.raiseLands
  exact Sound.build hS fun hx => ⟨hx.regs, hx.mem, hx.events, hx.staged, hx.queue⟩

theorem State.lateEvents_sound {s : State} (hS : Sound qu mb s) :
    Sound qu mb (State.lateEvents s) := by
  unfold State.lateEvents
  dsimp only
  repeat' first
    | with_reducible assumption
    | with_reducible refine State.timerTick_sound ?_
    | with_reducible refine State.trigger_sound ?_
    | with_reducible refine State.freeTrigger_sound ?_
    | with_reducible refine State.legacyEnd_sound ?_
    | with_reducible refine State.stopPast_sound ?_
    | split

theorem State.unitTick_sound {s : State} {ls : BitVec 64} (hS : Sound qu mb s) :
    Sound qu mb (State.unitTick s ls) := by
  unfold State.unitTick
  dsimp only
  repeat' first
    | with_reducible assumption
    | with_reducible refine State.burstStep_sound ?_
    | with_reducible refine State.landEdges_sound ?_
    | with_reducible refine State.atPosition_sound ?_
    | with_reducible refine State.injectedLoss_sound ?_
    | with_reducible refine State.compileStep_sound ?_
    | with_reducible refine State.drained_sound ?_
    | with_reducible refine State.raiseLands_sound ?_
    | with_reducible refine State.passTick_sound ?_
    | with_reducible refine State.dueApply_sound ?_
    | with_reducible refine State.lateEvents_sound ?_
    | with_reducible refine State.posTick_sound ?_
    | with_reducible refine State.spineTick_sound ?_
    | with_reducible refine State.tempTick_sound ?_
    | with_reducible refine State.agtDrive_sound ?_

theorem State.tick_sound {s : State} (hS : Sound qu mb s) :
    Sound qu mb (State.tick s) := by
  unfold State.tick
  dsimp only
  repeat' first
    | with_reducible assumption
    | with_reducible refine State.faultReset_sound ?_
    | with_reducible refine State.closeTick_sound ?_
    | with_reducible refine State.setClk_sound ?_
    | with_reducible refine State.unitTick_sound ?_
    | with_reducible refine State.openTick_sound ?_
    | split

/-! ### HostAccess -/

theorem State.targetRefused_sound {s : State} {e : Nat} (hS : Sound qu mb s) :
    Sound qu mb (State.targetRefused s e) := by
  unfold State.targetRefused
  repeat' first
    | with_reducible assumption
    | with_reducible refine State.setFld_sound ?_
    | with_reducible refine State.setFlag_sound ?_

theorem State.hostWrite_sound {s : State} {route : Route} {a : Nat} {v m : Word} {lost : Bool} (hS : Sound qu mb s) :
    Sound qu mb (State.hostWrite s route a v m lost) := by
  unfold State.hostWrite
  dsimp only
  repeat' first
    | with_reducible assumption
    | with_reducible refine State.writeMasked_sound ?_
    | with_reducible refine State.dueApply_sound ?_
    | with_reducible refine State.targetRefused_sound ?_
    | split

theorem State.portWrite_sound {s : State} {a : Nat} {v : Word} {lost : Bool} (hS : Sound qu mb s) :
    Sound qu mb (State.portWrite s a v lost) := by
  unfold State.portWrite
  repeat' first
    | with_reducible assumption
    | with_reducible refine State.hostWrite_sound ?_

theorem State.portRead_sound {s : State} {a : Nat} (hS : Sound qu mb s) :
    Sound qu mb (State.portRead s a) := by
  unfold State.portRead
  repeat' first
    | with_reducible assumption
    | with_reducible refine State.hostRead_sound ?_
    | with_reducible refine State.dueApply_sound ?_
    | split

theorem State.presetWrite_sound {s : State} {v : Word} {lost : Bool} (hS : Sound qu mb s) :
    Sound qu mb (State.presetWrite s v lost) := by
  unfold State.presetWrite
  repeat' first
    | with_reducible assumption
    | with_reducible refine State.preset_sound ?_
    | with_reducible refine State.dueApply_sound ?_
    | with_reducible refine State.atPosition_sound ?_
    | split

theorem State.captureWrite_sound {s : State} {v : Word} (hS : Sound qu mb s) :
    Sound qu mb (State.captureWrite s v) := by
  unfold State.captureWrite
  repeat' first
    | with_reducible assumption
    | with_reducible refine State.writeCaptureCfg_sound ?_
    | with_reducible refine State.dueApply_sound ?_
    | split

theorem State.injectRow_sound {s : State} {det : Nat} {arg : Word} (hS : Sound qu mb s) :
    Sound qu mb (State.injectRow s det arg) := by
  unfold State.injectRow
  repeat' first
    | with_reducible assumption
    | with_reducible refine State.dueApply_sound ?_
    | with_reducible refine State.fire_sound ?_
    | split

theorem State.targetWrite_sound {s : State} {v : Word} {lost : Bool} (hS : Sound qu mb s) :
    Sound qu mb (State.targetWrite s v lost) := by
  unfold State.targetWrite
  dsimp only
  repeat' first
    | with_reducible assumption
    | with_reducible refine State.dueApply_sound ?_
    | with_reducible refine State.setPB_sound ?_
    | with_reducible refine State.writeReg_sound ?_
    | with_reducible refine State.targetRefused_sound ?_
    | split

theorem State.targetRead_sound {s : State} (hS : Sound qu mb s) :
    Sound qu mb (State.targetRead s) := by
  unfold State.targetRead
  dsimp only
  repeat' first
    | with_reducible assumption
    | with_reducible refine State.readReg_sound ?_
    | with_reducible refine State.dueApply_sound ?_
    | with_reducible refine State.setPB_sound ?_
    | split

theorem State.relockTimeout_sound {s : State} (hS : Sound qu mb s) :
    Sound qu mb (State.relockTimeout s) := by
  unfold State.relockTimeout
  repeat' first
    | with_reducible assumption
    | with_reducible refine State.refclkLoss_sound ?_
    | split

theorem State.applyDue_sound {s : State} (hS : Sound qu mb s) :
    Sound qu mb (State.applyDue s) := by
  unfold State.applyDue
  repeat' first
    | with_reducible assumption
    | with_reducible refine State.atPosition_sound ?_
    | with_reducible refine State.dueApply_sound ?_
    | split

end Sys2Proof.Machine
end

