-- ==== Sys2Proof/WellFormed.lean ====
section
/-! DEFINITION.
Which commands are well formed: what an operand's type does not already bound.  `exec` gives every command a meaning,
well formed or not; claims about operands of the right shape name this predicate.
-/
namespace Sys2Proof

/-- A payload whose length the 16-bit LENGTH field can give (Table 05-3). -/
def lengthFits (payload : List Byte) : Bool := decide (payload.length < 2 ^ 16)

/-- The record is 64 bytes (Table 18-8); an error code names an error (Table 16-7). -/
def RecordRead.wf : RecordRead → Bool
  | .complete data _ => data.length == 64
  | .failed code _ => code.val != 0

/-- A transfer reads at most the 32 bytes of the buffer (R537), or the 64 of the record. -/
def BusEnd.wf : BusEnd → Bool
  | .complete data => decide (data.length ≤ 64)
  | .nackAddr => true
  | .nackData => true
  | .aborted data => decide (data.length ≤ 64)

/-- Both banks and both gains of every quire's 512 columns, or none where the quire is not read; four sets of 8 black
columns on each side (Table 07-2, R256). -/
def Samples.wf (x : Samples) : Bool :=
  decide (x.cols.length ≤ 48) && x.cols.all (fun l => l.length == 0 || l.length == 512)
    && decide (x.left.length ≤ 4) && x.left.all (fun l => l.length == 0 || l.length == 8)
    && decide (x.right.length ≤ 4) && x.right.all (fun l => l.length == 0 || l.length == 8)

/-- Sixteen partitions; 14 units of 6 code lists (Tables 18-5 and 18-7); sums that 8 or 16 codes of 14 bits give. -/
def Measured.wf (m : Measured) : Bool :=
  decide (m.signatures.length ≤ 16) && decide (m.columns.length ≤ 84) && decide (m.vddSum < 8 * 2 ^ 14)
    && decide (m.vrefSum < 2 ^ 18) && decide (m.vcoreSum < 2 ^ 18) && decide (m.vanaSum < 2 ^ 18)
    && decide (m.vpixhSum < 2 ^ 18) && decide (m.vnegSum < 2 ^ 18)

/-- A well-formed command. -/
def WellFormed : Instr → Bool
  | .nop _ _ _ => true
  | .regRd _ _ _ => true
  | .regWr _ _ payload _ => lengthFits payload
  | .regRmw _ _ payload _ => lengthFits payload
  | .bulkRd _ _ _ => true
  | .bulkWr _ _ payload => lengthFits payload
  | .txnBegin _ _ _ => true
  | .txnCommitImmediate _ payload => lengthFits payload
  | .txnCommitNextLine _ payload => lengthFits payload
  | .txnCommitNextFrame _ payload => lengthFits payload
  | .txnCommitAtPosition _ payload => lengthFits payload
  | .txnAbort _ _ _ => true
  | .eventRd _ _ _ => true
  | .shutdown _ _ _ => true
  | .wakeRetry _ _ payload => lengthFits payload
  | .bstRun _ _ _ => true
  | .shortFrameRead _ => true
  | .shortFrameWrite _ _ _ => true
  | .slotBegin => true
  | .slotEnd _ => true
  | .respReady => true
  | .registerWrite _ _ _ _ => true
  | .readClear _ => true
  | .softReset _ => true
  | .pwrReqStandby => true
  | .pwrReqArmed => true
  | .pwrReqDormant => true
  | .wakeSupplyWaitEnd => true
  | .wakeStepDone => true
  | .wakeStepTimeout => true
  | .finishStage => true
  | .startupRecordRead outcome => outcome.wf
  | .por => true
  | .porRelease _ _ => true
  | .bor => true
  | .borRelease => true
  | .pinReset => true
  | .resetNRelease => true
  | .faultReset => true
  | .supplyWarn => true
  | .supplyWarnDeassert => true
  | .dipHoldEnd => true
  | .cpDroop _ => true
  | .clkRefdivWrite _ => true
  | .clkRelocked => true
  | .relockTimeout => true
  | .refclkMissing => true
  | .refclkFrequencyLoss => true
  | .refPresent => true
  | .clkLostAck => true
  | .bndTxnTmoExpiry => true
  | .txnApply => true
  | .bankSyncStart _ => true
  | .bankSyncDone _ => true
  | .bndWdogEnable _ => true
  | .bndWdogKick => true
  | .bndWdogExpiry => true
  | .legColWindowWrite _ _ => true
  | .runStart => true
  | .runStop => true
  | .streamDrained => true
  | .freeRunExpiry => true
  | .trigger => true
  | .exposureEnd => true
  | .legacyEndEvent => true
  | .subExposureStart => true
  | .pairConversionEnd samples => samples.wf
  | .folioHanded _ => true
  | .markerOrderedSet _ => true
  | .defLoad => true
  | .defCompileDone => true
  | .spnGoRelease _ => true
  | .spnGoHalt _ => true
  | .counterLoad _ _ => true
  | .counterArm => true
  | .compareLoad _ _ => true
  | .counterStep _ _ => true
  | .capturePulseStart _ => true
  | .capturePulseEnd _ => true
  | .captureCfgWrite _ => true
  | .encEdge _ _ => true
  | .encZ _ => true
  | .posPreset _ _ => true
  | .encHold => true
  | .encLost => true
  | .encRelocked => true
  | .auxRoundTimer => true
  | .roundNow => true
  | .auxSlotStart => true
  | .auxInjTrigger _ => true
  | .auxInjRequest _ => true
  | .auxFlashStop _ => true
  | .auxRefSettled _ => true
  | .auxConversionEnd _ _ => true
  | .auxQPop => true
  | .tmpTempWrite _ _ => true
  | .tempStale => true
  | .agtStart _ => true
  | .agtStep _ => true
  | .agtHalt _ => true
  | .agtForceHalt _ => true
  | .agtCycle _ _ _ => true
  | .agtWaitLimit _ _ _ => true
  | .agtInjectPart _ => true
  | .agtInjectedRow _ _ => true
  | .agtSelWrite _ => true
  | .agtFifoPush _ => true
  | .agtFifoPop => true
  | .pbXferWrite _ _ => true
  | .pbXferRead _ _ => true
  | .pbXferWriteRead _ _ => true
  | .pbXferAbort _ _ => true
  | .pbDataWrite _ => true
  | .pbDataPop => true
  | .pbBusFree => true
  | .pbArbLost _ => true
  | .pbBackoffEnd => true
  | .pbArbSr => true
  | .pbDone outcome => outcome.wf
  | .pbAckPoll _ => true
  | .pbBusRecovery _ => true
  | .sclStuck => true
  | .pbTargetWrite _ _ _ => true
  | .pbTargetRead => true
  | .pbTargetPointer _ => true
  | .scrubVisit => true
  | .correctedWriteback => true
  | .memFlipMaskWrite _ => true
  | .memRawWrite _ => true
  | .sltRetireWrite _ => true
  | .testStepEnd found => found.wf
  | .injSupplyWarn _ => true
  | .injCp1 _ => true
  | .injCp2 _ => true
  | .injDurationEnd _ => true
  | .injBrownOut _ => true
  | .injWakeTimeout _ => true
  | .injColophonCrc _ => true
  | .injRefclkLoss _ => true
  | .injEncLoss _ => true
  | .injQerr _ => true
  | .injIndexSpan _ => true
  | .injMacroFail _ => true
  | .injWatchdog _ => true
  | .injTxnTimeout _ => true
  | .injPacketCrc _ => true
  | .injOpenWire _ => true
  | .injAuxQueueFull _ => true
  | .injSlotCollision _ => true
  | .injTempResult _ => true
  | .injTempStale _ => true
  | .injBlackStep _ => true
  | .injExposureOverrun _ => true
  | .injLaneFifo _ => true
  | .injAgtFlags _ => true
  | .injBusArbitration _ => true
  | .injBusStuck _ => true
  | .injLbist _ => true
  | .injAnalogCheck _ => true
  | .injCancel => true
  | .pbTargetStop => true

end Sys2Proof
end

