-- ==== Sys2Proof/Tests/Slice0.lean ====
section
/-! SUPPORT.
Tests of the model on small states: ill-formed commands are refused; expected values come from the spec; and for every
statement with hypotheses a state and operands that meet them, clause by clause.
-/
set_option maxRecDepth 100000
namespace Sys2Proof.Tests
open Sys2Proof.Machine

/-! ### Helpers -/

/-- The state after a command (the state itself where it answers none). -/
def after (c : Instr) (s : State) : State :=
  match exec c s with
  | .next t => t
  | .fault _ => s
  | .refused _ => s

/-- Reset with the transaction in `x`. -/
def inTxn (x : TxnState) : State := { State.reset with bnd := { State.reset.bnd with txn := x } }

/-- Reset in the power state `x`. -/
def inPower (x : PState) : State := { State.reset with pwr := { State.reset.pwr with state := x } }

/-- A wake of the kind `k` whose step `n` runs. -/
def waking (k : WakeKind) (n : Nat) (toArmed : Bool := true) : State :=
  { State.reset with
    pwr := { State.reset.pwr with state := .waking, kind := k, toArmed := toArmed, step := n, stepRunning := true } }

/-- Armed with the PLL locked at the full ratio, external triggers and no page buffer. -/
def ready : State :=
  ({ State.reset with clk := { State.reset.clk with boot := false, locked := true } }.setFld F.EXP_MODE_TRIG 1).setFld
    F.LN_BUF_PAGES 0

/-- Streaming with RUN = 1, free for a trigger. -/
def streaming : State :=
  { ready with
    pwr := { ready.pwr with state := .streaming }, exp := { ready.exp with timer := some 1 } }.setFld F.EXP_CTRL_RUN 1

/-- A response of two bytes. -/
def twoBytes : Response := Response.of (plainPacket 0x81 0 0 2) 0 [1, 2]

/-- Reset with the response register in `x`. -/
def holding (x : RespState) : State := { State.reset with port := { State.reset.port with resp := x } }

/-! ### Ill-formed commands are refused -/

theorem test_payload_refused : WellFormed (.regWr 0 0 (List.replicate (2 ^ 16) 0) 0) = false := by
  show lengthFits _ = false
  simp only [lengthFits, List.length_replicate]
  decide
theorem test_payload_accepted : WellFormed (.regWr 0 0 [0, 0] 0) = true := by decide
theorem test_record_refused : WellFormed (.startupRecordRead (.complete [0] 0)) = false := by decide
theorem test_record_error_refused : WellFormed (.startupRecordRead (.failed 0 0)) = false := by decide
theorem test_bus_end_refused : WellFormed (.pbDone (.complete (List.replicate 65 0))) = false := by decide
theorem test_bus_abort_refused : WellFormed (.pbDone (.aborted (List.replicate 65 0))) = false := by decide
theorem test_samples_refused : WellFormed (.pairConversionEnd ⟨[[0]], [], []⟩) = false := by decide
theorem test_samples_left_refused : WellFormed (.pairConversionEnd ⟨[], [[0]], []⟩) = false := by decide
theorem test_measured_refused :
    WellFormed (.testStepEnd
      { vddSum := 8 * 2 ^ 14, diodeSum := none, freqOut := false, signatures := [], columns := [], vrefSum := 0
        vcoreSum := 0, vanaSum := 0, vpixhSum := 0, vnegSum := 0, laneErrors := 0, auxErrors := [], auxPairs := []
        micros := 0 }) = false := by decide
theorem test_samples_right_refused : WellFormed (.pairConversionEnd ⟨[], [], [[0]]⟩) = false := by decide

/-! ### The spec's worked cases and check values -/

/-- Nine ASCII bytes (R167, R353). -/
def nine : List Byte := [0x31, 0x32, 0x33, 0x34, 0x35, 0x36, 0x37, 0x38, 0x39]

/-- The check value of R167. -/
theorem test_crc16 : crc16 nine = 0x31C3 := by decide
/-- The check value of R353. -/
theorem test_crc32 : crc32 nine = 0xCBF43926 := by decide

/-- The Colophon of an NL-2606 (worked case of chapter 01). -/
theorem test_colophon : ((colophon .nl2606).drop 0x14).take 8 = [6, 6, 0, 0x1F, 4, 0, 4, 0] := by decide

/-- A short-frame read of address 0 carries SYS_CHIP_ID (worked case of chapter 05). -/
theorem test_short_frame :
    (after (.shortFrameRead 0) (State.reset.setFld F.CP_MODE_LEGACY_EN 1)).port.sdo.drop 1 = [0x26, 0x12] := by decide

/-- The legacy column window 1000 to 4999 (Table 07-7). -/
def legacyWindow : State :=
  after .txnApply
    { after (.legColWindowWrite true 4999) (after (.legColWindowWrite false 1000) (inTxn .open_)) with
      bnd := { (after (.legColWindowWrite true 4999) (after (.legColWindowWrite false 1000) (inTxn .open_))).bnd with
        txn := .pending } }

theorem test_legacy :
    legacyWindow.reg R.QR_ENABLE = 0x03FE ∧ legacyWindow.reg R.QR_COL_START 1 = 488 ∧
      legacyWindow.reg R.QR_COL_COUNT 1 = 24 ∧ legacyWindow.reg R.QR_COL_START 9 = 0 ∧
      legacyWindow.reg R.QR_COL_COUNT 9 = 392 := by decide

/-- The configuration of the worked case of chapter 09: 14 bits, dual gain, companding, band T2. -/
def metalParts : Context :=
  ({ ((State.reset.setFld F.CNV_MODE_COMPAND 1).setFld F.CNV_MODE_LUT 5).setFld F.CNV_MODE_GAIN 2 with
      tmp := { State.reset.tmp with band := some 2, valid := true } }.setReg R.TMP_BLK 0x6FBF 2).context

/-- The black estimate goes from 38.0 to 38.5 with a measurement of 42.0 and FILT = 3. -/
theorem test_black_filter : (Black.update ⟨16 * 38, true, 16 * 42, 1, 16 * 42⟩ 6 (F.TMP_BLK_FILT.of metalParts.blk)).1.value = 616 := by
  decide
/-- Step 4 of the low gain: 6,146.75. -/
theorem test_low_gain :
    stepGain metalParts 0x04000030 0 (stepOffset metalParts 0x04000030 (16 * 6000) - (616 + metalParts.trim 1)) =
      98348 := by decide
/-- Step 5: 290,818.125 HDR units; step 9: 290,882. -/
theorem test_combine :
    combine metalParts (16 * 16344) 98348 = 4653090 ∧ stepRound metalParts true 4653090 = 290882 := by decide

/-- The folio header of the worked case of chapter 10. -/
theorem test_folio_header :
    Folio.header ⟨3, false, false, 0x1A2B, 0x400, 1048578 * 256, 0x582, 0x2F, 0x1F40, []⟩ =
      [0x13, 0x00, 0x1A, 0x2B, 0x04, 0x00, 0x00, 0x10, 0x00, 0x02, 0x00, 0x05, 0x82, 0x2F, 0x1F, 0x40] := by decide

/-- C0 and M0 of the paper web (Table 11-9), released at 8,493.25 ec with M0 loaded with 1,000. -/
def paperWeb : State :=
  let s := ((State.reset.setReg R.SPN_C_CFG 0x8006).setReg R.SPN_M_CFG 0xE000).setReg R.SPN_M_INTERVAL 1
  let s := s.setCounter 0 { Counter.init with div := 0x88000 }
  after (.compareLoad 1000 false)
    (after (.spnGoRelease 1) { s with pos := { s.pos with p := 8493 * 256 + 64, ref := true } })

/-- At 8,500.00 ec C0 is 1,000, M0 matches and auto-add makes it 1,001. -/
theorem test_counter_match :
    let t := (paperWeb.moveP .motion (8500 * 256)).2.compareAll
    (t.counter 0).value = 1000 ∧ (t.compare 0).value = 1001 ∧ t.flag F.SPN_M_STAT_MATCH 0 = true ∧
      t.lineHigh 0 = true := by decide

/-- K0 measures the strobe of Table 11-10: RISE, FALL and WIDTH. -/
theorem test_capture :
    let s := (State.reset.setCapture 0 { State.reset.capture 0 with cfg := 0x8E02 }).setCounter 7
      { Counter.init with value := 20006 }
    let t := after (.capturePulseStart 0) s
    let t := { t with spn := t.spn.newTick }
    let u := after (.capturePulseEnd 0) (t.setCounter 7 { t.counter 7 with value := 27506 })
    (u.capture 0).rise = 20006 ∧ (u.capture 0).fall = 27506 ∧ (u.capture 0).width = 7500 ∧ (u.capture 0).seq = 1 := by
  decide

/-- T16 of result 2 of the worked case of chapter 14. -/
theorem test_temperature : State.reset.diodeT16 6951 = 720 := by decide +kernel
/-- T16 of result 4. -/
theorem test_temperature_cooler : State.reset.diodeT16 6905 = 686 := by decide +kernel
/-- From band T2, 720 gives T3; from T3, 695 stays and 686 goes back to T2. -/
theorem test_bands :
    let s (b : Nat) := { State.reset with tmp := { State.reset.tmp with band := some b, valid := true } }
    (s 2).nextBand 712 = 2 ∧ (s 2).nextBand 720 = 3 ∧ (s 3).nextBand 695 = 3 ∧ (s 3).nextBand 686 = 2 := by decide

/-- The drum of Table 12-3 in tick 100,000; the loss window passes in the next tick. -/
def drum : State :=
  let s := (State.reset.setReg R.POS_CFG 0x8AE2).setReg R.POS_LOSS 0x8454
  let s := ((s.setFld F.POS_HOLD_LINES_LINES 400).setFld F.POS_Z_SPAN_SPAN 10000).setFld F.EXP_SCHED_EVENT 1
  let s := ((s.setReg R.SPN_C_CFG 0x8006 1).setReg R.SPN_M_CFG 0xE001 1).setReg R.SPN_M_INTERVAL 2 1
  let s := (s.setFld F.SPN_M_CFG_CNT 1 1).setFld F.SPN_M_CFG_LINE 1 1
  let s := s.setCounter 1 { Counter.init with value := 4000, div := 0x14000, run := .running }
  let s := s.setCompare 1 { Compare.init with value := 4001 }
  { s with
    pos := { s.pos with
      a := true, state := .track, v := 1 / 12500, vEdge := 1 / 12500, c := 5000, anchor := 5000, p := 5000 * 256 + 255, lastEdge := some 0
      ref := true, zPrev := some 0 }
    clk := { s.clk with now := 100000 } }

/-- Step 3: the loss is declared in tick 100,001. -/
theorem test_loss_tick :
    drum.lossDue = false ∧ ({ drum with clk := { drum.clk with now := 100001 } } : State).lossDue = true := by
  decide +kernel
/-- Step 3: P steps to 5,008.00, C1 to 4,006, M1 to 4,007, three lines are skipped. -/
theorem test_holdover :
    let t := drum.encHold false
    t.pos.p = 5008 * 256 ∧ (t.counter 1).value = 4006 ∧ (t.compare 1).value = 4007 ∧
      t.fld F.POS_SKIPPED_COUNT = 3 := by decide +kernel

/-- Step 6 with JUMP: P steps back to 5,004.00, C1 to 4,003, M1 to 4,005, and DUP_PEND takes 18. -/
theorem test_jump :
    let s := (drum.encHold false).setCounter 1
      { Counter.init with value := 4040, div := 0x14000, run := .running }
    let s := s.setCompare 1 { Compare.init with value := 4041 }
    let s := { s with pos := { s.pos with c := 5004, p := 5051 * 256 } }
    let t := s.jump
    t.pos.p = 5004 * 256 ∧ (t.counter 1).value = 4003 ∧ (t.compare 1).value = 4005 ∧ t.pos.dupPend = 18 := by decide +kernel

/-- The scrub interval at T4 (worked case of chapter 17). -/
theorem test_scrub_interval :
    ({ State.reset with tmp := { State.reset.tmp with band := some 4, valid := true } } : State).passTime / 296768 =
      3369 := by decide

/-! ### Witnesses: what each statement assumes can be met

Each theorem names the statement and, where it has several, the clause.
-/

theorem witness_StepIdles :
    (inPower .standby).quiet ∧ (∀ k < 4, ((inPower .standby).capture k).en = false) ∧
      (∀ m < 16, (inPower .standby).flag F.SPN_M_CFG_EN m = false) ∧
      ∀ n < 8, ((inPower .standby).counter n).run ≠ .running := by
  unfold State.quiet; decide
theorem witness_StepIdles_counts :
    let s := ((inPower .standby).setFld F.SPN_C_CFG_SRC 1 2).setCounter 2 { Counter.init with run := .running }
    s.quiet ∧ ∀ n < 8, (s.counter n).run = .running → s.source n = .sclk ∨ s.source n = .off := by
  unfold State.quiet; decide

theorem witness_StepTakesOneCommand :
    ({ State.reset with pending := [.respReady] } : State).canonical = true ∧ State.reset.bounded = true := by decide

theorem witness_StepKeepsInvariant :
    State.reset.canonical = true ∧ State.reset.bounded = true ∧ ∃ t, step State.reset = .next t :=
  ⟨by decide, by decide, _, rfl⟩

theorem witness_NopAndReadsAnswer_nop : State.reset.portFree (plainPacket 0x80 0x8F 0xFFFFFFFF 0) = true := by decide
theorem witness_NopAndReadsAnswer_one : State.reset.portFree (plainPacket 0x81 0x80 0xFF 2) = true := by decide
theorem witness_NopAndReadsAnswer_all :
    0xE0 + 32 ≤ 0x100 ∧ (0x80 : Byte).getLsbD 7 = true ∧ State.reset.portFree (plainPacket 0x81 0x80 0xE0 64) = true := by
  decide

theorem witness_BurstRangeRefused_read :
    0x100 < (0xFF : BitVec 32).toNat + 2 ∧ State.reset.portFree (plainPacket 0x81 0 0xFF 4) = true := by decide
theorem witness_BurstRangeRefused_write :
    0x100 < (0x100 : BitVec 32).toNat + 1 ∧ State.reset.portFree (dataPacket 0x82 0 0x100 [1, 2]) = true := by decide

theorem witness_RegisterPacketsStore :
    R.SYS_STATUS ∈ plainRegs ∧ State.reset.portFree (dataPacket 0x82 0 (BitVec.ofNat 32 R.SYS_STATUS) [0xFF, 0xFF]) = true ∧
      State.reset.portFree (dataPacket 0x83 0 (BitVec.ofNat 32 R.INJ_ARG) [0xFF, 0, 0x12, 0x34]) = true := by decide

theorem witness_RegisterPacketsStore_two :
    R.INJ_SEL ∈ plainRegs ∧ R.INJ_SEL + 1 ∈ plainRegs ∧ (0x40 : Byte).getLsbD 6 = true ∧
      State.reset.portFree (dataPacket 0x82 0x40 (BitVec.ofNat 32 R.INJ_SEL) [0, 1, 0, 2]) = true := by decide

theorem witness_ReadClears :
    State.reset.pwr.rails.vcore = true ∧ State.reset.pwr.state ≠ .dormant ∧ State.reset.readOpen = true ∧
      State.reset.commitDue = false ∧
      State.reset.portFree (plainPacket 0x81 0 (BitVec.ofNat 32 R.FLT_EV_LOST) 2) = true := by decide

/-- A bulk read of `n` bytes at `off` of store `id` meets the statement's premises after reset. -/
def bulkReads (id off n : Nat) : Bool :=
  State.reset.portFree (plainPacket 0x84 0x80 (BitVec.ofNat 32 (id * 2 ^ 24 + off)) (BitVec.ofNat 16 n))
    && State.reset.extentCheck ⟨id, off, n⟩ (banked id) == Status.ok && !State.reset.rawAccess ⟨id, off, n⟩

theorem witness_BulkRdAnswers_colophon : bulkReads Store.colophon 0xFF 1 = true := by decide
theorem witness_BulkRdAnswers_empty : bulkReads Store.slate 0 16 = true ∧ State.reset.mem.valid = [] := by decide
theorem witness_BulkRdAnswers_words :
    bulkReads Store.log 0 4 = true ∧ banked Store.log = false ∧
      ∃ u, State.reset.slotBegin.readBytes .hostRead true Store.log false 0 4 = (some ([0, 0, 0, 0], false), u) :=
  ⟨by decide, by decide, _, rfl⟩

theorem witness_BulkWrStores :
    State.reset.portFree (dataPacket 0x85 0 (BitVec.ofNat 32 (Store.cal * 2 ^ 24 + 4)) [1, 2, 3, 4]) = true ∧
      State.reset.bulkWriteCheck ⟨Store.cal, 4, 4⟩ = Status.ok ∧ State.reset.rawAccess ⟨Store.cal, 4, 4⟩ = false ∧
      State.reset.mem.flip ≠ some Store.cal := by decide

theorem witness_CodesCorrect_clean : [1, 2, 3, 4].length = wordSize Store.cal := by decide
theorem witness_CodesCorrect_corrected : Store.log ∈ [Store.cal, Store.defect, Store.log] ∧ 4 < 5 ∧ 6 < 7 := by decide

theorem witness_EventRdAnswers : State.reset.portFree (plainPacket 0x89 0x80 0 8) = true := by decide

theorem witness_TxnBegins :
    ∀ x ∈ [TxnState.idle, .open_, .pending, .timedOut],
      ({ inTxn x with bnd := { (inTxn x).bnd with point := .nextFrame } } : State).portFree (plainPacket 0x86 0 0 0) = true := by
  decide

theorem witness_TxnCommits_immediate : (inTxn .open_).portFree (dataPacket 0x87 0 0 []) = true := by decide
theorem witness_TxnCommits_line : (inTxn .open_).portFree (dataPacket 0x87 0 1 []) = true := by decide
theorem witness_TxnCommits_frame : (inTxn .open_).portFree (dataPacket 0x87 0 2 []) = true := by decide

/-- An open transaction with a reference at P = 100. -/
def referenced : State := { inTxn .open_ with pos := { State.reset.pos with ref := true, p := 100 } }

theorem witness_TxnCommits_position : (inTxn .open_).portFree (dataPacket 0x87 0 3 (bytesBE 6 101)) = true := by decide
theorem witness_TxnCommits_noReference : (inTxn .open_).pos.ref = false := by decide
theorem witness_TxnCommits_past :
    referenced.portFree (dataPacket 0x87 0 3 (bytesBE 6 100)) = true ∧ referenced.ahead 100 = false := by decide
theorem witness_TxnCommits_ahead :
    referenced.portFree (dataPacket 0x87 0 3 (bytesBE 6 101)) = true ∧ referenced.ahead 101 = true := by decide

theorem witness_TxnAborts :
    ∀ x ∈ [TxnState.idle, .open_, .pending, .timedOut],
      ({ inTxn x with bnd := { (inTxn x).bnd with point := .nextFrame } } : State).portFree (plainPacket 0x88 0 0 0) = true := by
  decide

/-- A commit at AT_POSITION of the target 101, which P = `p` has or has not reached. -/
def positioned (p : BitVec 48) : State :=
  let s := inTxn .pending
  { (s.setReg R.BND_TARGET_LO 101) with
    bnd := { s.bnd with point := .atPosition, below := false }, pos := { s.pos with p := p } }
theorem witness_TxnApplies :
    let s := { inTxn .pending with bnd := { (inTxn .pending).bnd with
      point := .immediate, staged := [⟨R.POS_HOLD_LINES, 0, 5⟩, ⟨R.POS_Z_SPAN, 0, 7⟩] } }
    (∀ x, s.bnd.wrote x = false) ∧ (s.bnd.staged.map fun w => (w.addr, w.inst)).Nodup ∧
      ∀ w ∈ s.bnd.staged, quietTrans w.addr = true ∧ w.inst < 256 ∧ instPresent s.part w.addr w.inst = true :=
  ⟨by intro x; cases x <;> decide, by decide, by decide⟩
theorem witness_TxnApplies_position :
    let d (s : State) := delta48 s.pos.p (join48 (s.reg R.BND_TARGET_HI) (s.reg R.BND_TARGET_MID) (s.reg R.BND_TARGET_LO))
    (positioned 101).bnd.below = false ∧ d (positioned 101) = 0 ∧ d (positioned 100) = 1 ∧ d (positioned 102) = -1 := by
  decide

theorem witness_TxnTimesOut : (inTxn .open_).bnd.txn = .open_ ∧ (inTxn .open_).flt.events.length < 64 := by decide

theorem witness_BankSyncs_free :
    (State.reset.bnd.setSync .lut .pending).sync .lut = .pending ∧
      State.reset.exp.usesBank .lut (!State.reset.activeBank .lut) = false := by decide
theorem witness_BankSyncs_done :
    (State.reset.bnd.setSync .lut .running).sync .lut = .running ∧
      State.reset.mem.firstBad (bankedId .lut) (State.reset.activeBank .lut) = none := by decide
theorem witness_WatchdogActs :
    State.reset.live = true ∧ State.reset.flag F.BND_WDOG_EN = false ∧ State.reset.mem.failing = [] ∧
      (State.reset.setFld F.BND_WDOG_EN 1).live = true ∧ (State.reset.setFld F.BND_WDOG_EN 1).flag F.BND_WDOG_EN = true := by
  decide

theorem witness_LegacyColumns :
    State.reset.live = true ∧ State.reset.bnd.txn = .idle ∧ State.reset.exp.tdiCtx = none ∧
      State.reset.flt.pending = none ∧ (inTxn .open_).live = true ∧ (inTxn .open_).bnd.staged = [] := by decide

theorem witness_RegisterWrites_plain : State.reset.live = true ∧ R.FLT_LOG_WR ∈ plainRegs := by decide
theorem witness_RegisterWrites_staged :
    let s := inTxn .open_
    let a := R.POS_Z_SPAN
    s.live = true ∧ quietTrans a = true ∧ aliasAt a = none ∧ instPresent s.part a (s.selected a) = true ∧
      s.transCheck a (s.transValue a (s.selected a))
        (limitWord a (storedAfter a (s.transValue a (s.selected a)) 0xFFFF 0xFFFF)) 0xFFFF = Status.ok ∧
      s.bnd.stagedValue a (s.selected a) = none ∧ s.bnd.staged.length < stagingSlots := by decide
theorem witness_RegisterWrites_live :
    let s := State.reset
    let a := R.POS_Z_SPAN
    s.transCheck a (s.transValue a (s.selected a))
        (limitWord a (storedAfter a (s.transValue a (s.selected a)) 0xFFFF 0xFFFF)) 0xFFFF = Status.ok ∧
      s.bnd.txn = .idle := by decide

theorem witness_PowerRequests :
    State.reset.bnd.txn = .idle ∧ State.reset.noSyncs = true ∧ State.reset.pwr.mute = false ∧ State.reset.pwr.state = .armed ∧
      State.reset.idleStream = true ∧ (inPower .standby).noSyncs = true ∧ (inPower .standby).idleStream = true ∧
      (inPower .standby).pwr.warn = false ∧ (inPower .standby).injArg 0x04 = none := by decide

theorem witness_WakeStepCompletes_rails :
    ∀ n ∈ [1, 2, 3, 4, 5, 6, 7],
      (waking (.reset .soft) n).wakeStep = some n ∧ (waking (.reset .soft) n).injArg 0x04 = none ∧
        (waking (.reset .soft) n).colophonFails n = false ∧
        (waking (.reset .soft) n).flag F.SYS_RESET_CAUSE_LOCKOUT = false ∧
        (waking (.reset .soft) n).pwr.toArmed = true := by decide
theorem witness_WakeStepCompletes_lanes :
    (waking (.reset .soft) 8).wakeStep = some 8 ∧ (waking (.reset .soft) 8).pwr.kind ≠ .standby := by decide
theorem witness_WakeStepCompletes_armed :
    (waking .standby 8).wakeStep = some 8 ∧ (waking .standby 8).pwr.rails.vcore = true ∧
      (waking .standby 8).flt.events = [] := by decide
theorem witness_WakeStepCompletes_standby :
    let s := waking .dormant 4 false
    s.wakeStep = some 4 ∧ s.pwr.toArmed = false ∧ s.fld F.FLT_STATUS_COUNT = 0 ∧ s.pwr.rails.vcore = true ∧
      s.flt.events = [] := by decide

/-- Safe after a failure of wake step 5. -/
def failed : State :=
  { State.reset with pwr := { State.reset.pwr with state := .safe, safeWhy := .wakeFailed, step := 5 } }

theorem witness_FailedWakes_timeout :
    ∀ n ∈ [1, 4, 8], (waking (.reset .pin) n).wakeStep = some n ∧ (waking (.reset .pin) n).colophonFails n = false := by
  decide
theorem witness_FailedWakes_third :
    ((waking (.reset .pin) 4).setFld F.SYS_RESET_CAUSE_FAILS 2).wakeStep = some 4 := by decide
theorem witness_FailedWakes_retry :
    failed.pwr.warn = false ∧ failed.injArg 0x04 = none ∧ failed.portFree (dataPacket 0x8B 0 0 []) = true ∧
      failed.portFree (dataPacket 0x8B 0 0 [0, 0]) = true ∧ failed.portFree (dataPacket 0x8B 0 0 [0x12, 0x34]) = true := by
  decide

theorem witness_StartupsDecide_read :
    (waking (.reset .por) 4).pwr.state = .waking ∧ 4 ≤ (waking (.reset .por) 4).pwr.step ∧
      (waking (.reset .por) 4).bst.start = .notRead := by decide
/-- The last stage of a wake of the kind `k`, with the start-up record in `start`. -/
def finishing (k : WakeKind) (start : StartRead) : State :=
  { waking k 9 with bst := { State.reset.bst with start := start } }
theorem witness_StartupsDecide_finish :
    (finishing (.reset .por) .missing).pwr.stepRunning = true ∧ (finishing (.reset .por) .missing).bst.run = none ∧
      (finishing (.reset .por) .missing).noSyncs = true ∧ (finishing (.reset .por) .missing).fld F.FLT_STATUS_COUNT = 0 ∧
      (finishing (.reset .por) (.got [])).bst.start = .got [] ∧ (finishing (.reset .soft) .notRead).bst.record = [] := by
  decide

theorem witness_TestRequests :
    State.reset.pwr.state = .armed ∧ State.reset.portFree (plainPacket 0x8A 0 0 0) = true ∧
      (inPower .standby).portFree (plainPacket 0x8A 0 0 0) = true ∧
      State.reset.portFree (plainPacket 0x8C 0 0 0) = true ∧ failed.portFree (plainPacket 0x8A 0 0 0) = true ∧
      failed.pwr.safeWhy = .wakeFailed := by decide
theorem witness_TestRequests_lockout :
    let s := { failed with pwr := { failed.pwr with safeWhy := .lockout } }
    s.portFree (plainPacket 0x8A 0 0 0) = true := by decide

theorem witness_ResetsStart :
    State.reset.pwr.state ≠ .waking ∧ State.reset.pwr.state ≠ .off ∧ State.reset.mem.failing = [] ∧
      State.reset.pwr.inReset = none ∧ State.reset.pwr.testHigh = false ∧ State.reset.flt.mark = false ∧
      State.reset.pwr.resetLow = false ∧ State.reset.live = true ∧ State.reset.port.undo = [] := by decide
theorem witness_SupplyResets :
    State.reset.idleStream = true ∧ State.reset.flt.mark = false ∧ State.reset.pwr.inReset = none ∧
      State.reset.port.undo = [] := by decide

/-- Held by what `r` names, in the state `x`. -/
def heldBy (x : PState) (r : Option ResetClass) (low : Bool) : State :=
  { State.reset with pwr := { State.reset.pwr with state := x, inReset := r, resetLow := low, step := 0 } }
theorem witness_ResetsRelease :
    (heldBy .off (some .por) false).pwr.inReset = some .por ∧ (heldBy .off (some .por) false).pwr.supplyWait = false ∧
      (heldBy .off (some .por) false).pwr.testHigh = false ∧
      (heldBy .waking (some .bor) false).pwr.inReset = some .bor ∧ (heldBy .waking none true).pwr.resetLow = true := by
  decide
theorem witness_SupplyWaitEnds :
    let s := { heldBy .waking none false with pwr := { (heldBy .waking none false).pwr with supplyWait := true, warn := true } }
    s.pwr.supplyWait = true ∧ s.pwr.inReset = none ∧ s.pwr.resetLow = false ∧ s.pwr.testHigh = false ∧
      s.injArg 0x04 = none := by decide

theorem witness_SupplyAndPumpsWarn :
    State.reset.bst.run = none ∧ State.reset.flt.events.length < 64 ∧ State.reset.pwr.warn = false ∧
      State.reset.flt.active = [] ∧ State.reset.analog = true := by decide
theorem witness_SupplyAndPumpsWarn_droop :
    let s := { State.reset with pwr := { State.reset.pwr with cp1Ok := true, cp2Ok := true } }
    s.analog = true ∧ s.pwr.cp1Ok = true ∧ s.pwr.cp2Ok = true := by decide
theorem witness_SupplyAndPumpsWarn_deassert :
    let s := { State.reset with pwr := { State.reset.pwr with warn := true, cp1Ok := true, cp2Ok := true } }
    s.pwr.warn = true ∧ s.flt.active = [] ∧ s.pwr.state ≠ .waking ∧ s.pwr.cp1Ok = true ∧ s.pwr.cp2Ok = true := by decide
theorem witness_SupplyAndPumpsWarn_hold :
    ({ State.reset with pwr := { State.reset.pwr with hold := true, holdCount := true } } : State).pwr.holdCount = true := by
  decide

/-- Armed, relocking after a loss. -/
def relocking : State := { State.reset with clk := { State.reset.clk with relocking := true, locked := false } }

theorem witness_Relocks_write :
    State.reset.live = true ∧ State.reset.clk.relocking = false ∧ F.CLK_REFDIV_FREQ.of 60 ≤ 60 ∧
      State.reset.gated = false ∧ (State.reset.setFld F.CLK_STATUS_LOST 1).live = true ∧
      (State.reset.setFld F.CLK_STATUS_LOST 1).gated = true := by decide
theorem witness_Relocks_refused :
    State.reset.live = true ∧ 60 < F.CLK_REFDIV_FREQ.of 61 ∧ (inPower .streaming).live = true ∧ relocking.live = true := by
  decide
theorem witness_Relocks_lock : relocking.pllOn = true ∧ relocking.clk.relocking = true := by decide
theorem witness_Relocks_present :
    State.reset.pllOn = true ∧ State.reset.clk.locked = false ∧ State.reset.clk.relocking = false := by decide
theorem witness_Relocks_owed :
    let s := { ready with clk := { ready.clk with owed := true } }
    s.pllOn = true ∧ s.clk.relocking = false ∧ s.clk.locked = true ∧ s.clk.owed = true := by decide

theorem witness_ReferenceClockLost :
    ready.pwr.state = .armed ∧ ready.idleStream = true ∧ ready.flt.events.length < 64 ∧ ready.clk.locked = true ∧
      relocking.idleStream = true ∧ relocking.clk.relocking = true := by decide
theorem witness_ReferenceClockLost_acknowledge :
    (ready.setFld F.CLK_STATUS_LOST 1).live = true ∧ (ready.setFld F.CLK_STATUS_LOST 1).gated = true ∧
      ready.clk.locked = true ∧ ready.exp.tdiCtx = none := by decide
theorem witness_ReferenceClockLost_ignored :
    (relocking.setFld F.CLK_STATUS_LOST 1).gated = true ∧ relocking.clk.locked = false ∧
      F.CLK_STATUS_LOST.of ((ready.setFlag F.CLK_STATUS_LOST true).freshBits R.CLK_STATUS) = 1 ∧
      F.CLK_STATUS_LOST.of (ready.freshBits R.CLK_STATUS) ≠ 1 := by decide

theorem witness_SlotsMove_begin :
    State.reset.portAnswers = true ∧ State.reset.port.inSlot = false ∧ (holding (.prep twoBytes true)).portAnswers = true ∧
      (holding (.pend twoBytes)).portAnswers = true := by decide
theorem witness_SlotsMove_end :
    let s := after .slotBegin (holding (.pend twoBytes))
    s.port.inSlot = true ∧ s.port.resp = .pend twoBytes ∧ s.port.pendAtBegin = true ∧
      8 * s.port.sdo.length ≤ (List.replicate (8 * s.port.sdo.length) true).length ∧
      (List.replicate (8 * s.port.sdo.length) true).length ≠ 24 := by decide
theorem witness_SlotsMove_framing :
    [false].head? = some false ∧ [false].length ≠ 24 ∧
      (State.reset.setFld F.CP_MODE_LEGACY_EN 0).flag F.CP_MODE_LEGACY_EN = false ∧
      State.reset.flag F.CP_MODE_LEGACY_EN = true := by decide
theorem witness_SlotsMove_ready :
    (holding (.prep twoBytes false)).commitDue = false ∧
      (holding (.prep twoBytes false)).port.resp = .prep twoBytes false := by decide

theorem witness_ShortFramesAct :
    let s := (holding (.pend twoBytes)).setFld F.CP_MODE_LEGACY_EN 1
    s.live = true ∧ s.portAnswers = true ∧ s.port.inSlot = false ∧ s.flag F.CP_MODE_LEGACY_EN = true ∧
      s.bnd.txn = .idle := by decide
theorem witness_ShortFramesAct_prep (r : Response) : (holding (.pend twoBytes)).port.resp ≠ .prep r true := by
  simp [holding]
theorem witness_ShortFramesAct_bounds :
    (0x5F : BitVec 7).toNat < 0x60 ∧ 0x60 ≤ (0x60 : BitVec 7).toNat := by decide

theorem witness_RunStartsAndStops_start :
    let s := { ready with part := .nl2601 }
    s.live = true ∧ s.running = false ∧ s.runCheck = Status.ok ∧ s.pwr.state ≠ .streaming := by
  decide +kernel
theorem witness_RunStartsAndStops_refused :
    let s := { State.reset with part := .nl2601 }
    s.live = true ∧ s.running = false ∧ s.runCheck ≠ Status.ok := by decide +kernel
theorem witness_RunStartsAndStops_stop :
    streaming.live = true ∧ streaming.flag F.EXP_CTRL_RUN = true ∧ streaming.exp.tdiLines = [] ∧
      streaming.running = true ∧ streaming.exp.stopping = false ∧ streaming.exp.timer.isSome = true := by decide
theorem witness_RunStartsAndStops_drained :
    let s := { inPower .streaming with exp := { Exposure.init with stopping := true } }
    s.pwr.state = .streaming ∧ s.exp.stopping = true ∧ s.busy = false := by decide

/-- A context of 14-bit area frames with nothing enabled. -/
def plainContext : Context :=
  { regs := [], bankWave := false, bankLut := false, gen := 0, band := 0, blk := 0, waveSet := 0, rom := false, defects := [] }
/-- A frame in it. -/
def plainFrame : Frame :=
  { number := 0, ctx := plainContext, pos := 0, est := false, dup := false, posRef := false, str := false, sw := false
    flash := none, pages := [] }
/-- Streaming with an exposure of that frame, its end as `u` says. -/
def exposing (u : Option Nat) : State :=
  { streaming with exp := { streaming.exp with exposing := some { frame := plainFrame, k := 0, start := 0, until_ := u } } }
theorem witness_RunStartsAndStops_busy : (exposing (some 7)).busy = true := by decide
theorem witness_RunStartsAndStops_again :
    let s := { exposing (some 7) with part := .nl2601 }
    s.running = true ∧ s.runCheck = Status.ok := by decide +kernel

theorem witness_BankSyncs_used :
    let s := (exposing (some 7)).setFld F.BND_STATUS_BANK_LUT 1
    (s.bnd.setSync .lut .pending).sync .lut = .pending ∧ s.exp.usesBank .lut (!s.activeBank .lut) = true := by decide

theorem witness_TriggersStart :
    streaming.serves = true ∧ streaming.gated = false ∧ streaming.pwr.hold = false ∧ streaming.bnd.txn ≠ .pending ∧
      streaming.fld F.EXP_MODE_TRIG ≠ 2 ∧ streaming.exp.exposing = none ∧ streaming.exp.between = none ∧
      streaming.exp.reading = none ∧ streaming.injArg 0x14 = none ∧ streaming.context.scan ≠ .tdi ∧
      streaming.lacksPages streaming.context = false := by decide

theorem witness_TriggersLost_again :
    let s := { streaming with exp := { streaming.exp with trigTick := some 0 } }
    s.exp.trigTick = some s.clk.now := by decide
theorem witness_TriggersLost_gated :
    let s := streaming.setFld F.CLK_STATUS_LOST 1
    s.serves = true ∧ s.exp.exposing = none ∧ s.gated = true ∧ s.fld F.EXP_MODE_SCAN ≠ 2 ∧ s.fld F.EXP_MODE_TRIG ≠ 2 := by
  decide
theorem witness_TriggersLost_held :
    let s := { streaming with pwr := { streaming.pwr with hold := true } }
    s.serves = true ∧ s.gated = false ∧ s.pwr.hold = true := by decide
theorem witness_TriggersLost_overrun :
    let s := exposing (some 7)
    s.serves = true ∧ s.gated = false ∧ s.pwr.hold = false ∧ s.exp.exposing.isSome = true ∧ s.clk.now < 7 ∧
      s.flt.events.length < 64 := by decide

theorem witness_ExposuresEnd_end :
    (exposing (some 7)).exp.reading = none ∧ plainFrame.ctx.subs ≤ 1 ∧ (exposing (some 7)).mem.calWords = [] := by decide
/-- The legacy mode 250 ticks, or fewer, after the start. -/
def legacyAt (now : Nat) : State :=
  { (exposing none).setFld F.EXP_MODE_TRIG 3 with clk := { streaming.clk with now := now } }
theorem witness_ExposuresEnd_legacy :
    (legacyAt 250).fld F.EXP_MODE_TRIG = 3 ∧ 0 + 250 ≤ (legacyAt 250).clk.now ∧ (legacyAt 249).clk.now < 0 + 250 ∧
      (legacyAt 250).mem.calWords = [] ∧ plainFrame.str = false ∧
      (legacyAt 250).lineExists (((legacyAt 250).fld F.EXP_SCHED_EVENT + 1) % 64) = true := by decide
theorem witness_ExposuresEnd_next :
    let s := { streaming with exp := { streaming.exp with between := some (plainFrame, 1) } }
    s.exp.exposing = none ∧ s.pwr.hold = false ∧ s.exp.reading = none ∧ plainFrame.pages = [] := by decide
theorem witness_ExposuresEnd_abandoned :
    let s := { streaming with exp := { streaming.exp with between := some (plainFrame, 1) }, pwr := { streaming.pwr with hold := true } }
    s.pwr.hold = true ∧ s.exp.exposing = none := by decide

/-- Reading out two rows of an area frame: four black pairs... then one active pair. -/
def smallContext : Context := { plainContext with regs := Cells.set 0 [] (regKey R.QR_ROW_COUNT 0) 2 }
/-- In the readout of its pair `n`. -/
def readingPair (n : Nat) : State :=
  { streaming with
    exp := { streaming.exp with
      reading := some { frame := { plainFrame with ctx := smallContext }, k := 0, pair := n, free := 0, cal := [], calCorr := 0 } } }
theorem witness_PairsConvert_black :
    (smallContext.pairs (readingPair 0).exp.blackPair)[0]? = some (.black 0) ∧ smallContext.scan = .area ∧
      smallContext.flag F.QR_MODE_BLK_ROW_OUT = false ∧
      0 + 1 < (smallContext.pairs (readingPair 0).exp.blackPair).length ∧ (readingPair 0).mem.calWords = [] ∧
      (readingPair 0).lastSent smallContext ≠ some 0 := by decide
theorem witness_PairsConvert_last :
    8 + 1 = (smallContext.pairs (readingPair 8).exp.blackPair).length ∧
      (smallContext.pairs (readingPair 8).exp.blackPair)[8]?.isSome = true ∧ smallContext.scan ≠ .tdi := by decide

theorem witness_LanesSend :
    State.reset.laneOn 0 = true ∧ State.reset.laneOn 11 = true := by decide
theorem witness_LanesSend_folio :
    let s := { State.reset with lanes := { State.reset.lanes with running := true } }
    let f : Folio := ⟨11, false, false, 0, 0, 0, 0, 0, 0, []⟩
    ((s.setLane 11 { s.lane 11 with fifo := [f] }).lane 11).fifo = [f] ∧ (s.lane 11).spill = [] ∧
      (s.setLane 11 { s.lane 11 with fifo := [f] }).laneOn 11 = true ∧ s.biased 11 = true ∧ (s.lane 11).fifo = [] := by
  decide

theorem witness_DefectsCompile :
    State.reset.live = true ∧ State.reset.pwr.state ≠ .streaming ∧ (inPower .streaming).live = true ∧
      State.reset.mem.failing = [] ∧ State.reset.mem.isValid ⟨Store.defect, false, 0⟩ = false := by decide
theorem witness_DefectsCompile_entry :
    let s := State.reset.writeBytes Store.defect false 0 [0x2B, 0xFF, 0x80, 0]
    let w := natBE ((s.mem.raw ⟨Store.defect, false, 0⟩).take 4)
    s.mem.isValid ⟨Store.defect, false, 0⟩ = true ∧ s.wordClean ⟨Store.defect, false, 0⟩ ∧ bits w 31 28 = 2 ∧
      (judge s.part [] w false).1 = .accepted := by
  unfold State.wordClean; decide +kernel

/-- Counter 2 counts SCLK at D = 2 and stands before 42; compare channel 4 is DIRECT on it at 42. -/
def counting : State :=
  let s := ((State.reset.setFld F.SPN_C_CFG_SRC 1 2).setFld F.SPN_SEL_CNT 2).setFld F.SPN_M_CFG_MODE 0 4
  let s := (s.setFld F.SPN_M_CFG_EN 1 4).setFld F.SPN_M_CFG_CNT 2 4
  (s.setCounter 2 { Counter.init with value := 41, rem := 70000, div := 131072, run := .running }).setCompare 4
    { Compare.init with value := 42 }

theorem witness_CountersRun_go :
    counting.live = true ∧ counting.goNeedsRef 0xFF 0 = false ∧ (counting.counter 0).run = .idle := by decide
/-- Counter 2 locked to the position, with no reference. -/
def lockedCounter : State :=
  ((State.reset.setFld F.SPN_C_CFG_SRC 6 2).setFld F.SPN_C_CFG_PLOCK 1 2).setFld F.SPN_SEL_CNT 2
theorem witness_CountersRun_reference : lockedCounter.goNeedsRef 4 0 = true ∧ lockedCounter.locked 2 = true := by decide
theorem witness_CountersRun_arm :
    let s := counting.setCounter 2 { counting.counter 2 with run := .spent }
    s.live = true ∧ s.fld F.SPN_SEL_CNT = 2 ∧ (s.counter 2).run = .spent := by decide
theorem witness_CountersRun_load : counting.locked 2 = false ∧ (counting.counter 2).run ≠ .spent := by decide
theorem witness_CountersRun_marks : counting.spn.spentNow = 0 ∧ counting.spn.stepped = 0 := by decide
theorem witness_CountersRun_steps :
    let s := counting.setFld F.SPN_C_CFG_SRC 3 2
    (s.counter 2).run = .running ∧ s.source 2 = .refclk ∧ s.clk.held = false := by decide

theorem witness_ComparesAndCaptures_load :
    let s := { State.reset with spn := { State.reset.spn with added := 1 } }
    s.live = true ∧ s.spn.added.getLsbD (s.fld F.SPN_SEL_CMP) = true := by decide
/-- In Standby, counter 2 at 42, where channel 4 compares it, in the mode `window`, and spends it. -/
def matching (window : Nat) : State :=
  let s := ((inPower .standby).setFld F.SPN_C_CFG_SRC 1 2).setFld F.SPN_C_CFG_ONESHOT 1 2
  let s := ((s.setFld F.SPN_M_CFG_EN 1 4).setFld F.SPN_M_CFG_MODE window 4).setFld F.SPN_M_CFG_CNT 2 4
  ((s.setFld F.SPN_M_CFG_STOP 1 4).setCounter 2 { Counter.init with value := 42, run := .running }).setCompare 4
    { Compare.init with value := 42, pending := true }
theorem witness_ComparesAndCaptures_tick :
    ∀ w < 2, (matching w).quiet ∧ (∀ j < 4, ((matching w).capture j).en = false) ∧
      (∀ n < 8, ((matching w).source n).weight = 0) ∧ (matching w).flag F.SPN_M_CFG_EN 4 = true ∧
      ((matching w).counter 2).value = ((matching w).compare 4).value ∧ ((matching w).compare 4).equal = false ∧
      ((matching w).compare 4).pending = true := by
  intro w hw
  unfold State.quiet
  match w, hw with
  | 0, _ => decide
  | 1, _ => decide
/-- Its match spends the counter and raises lines 4 and 18. -/
theorem test_match_spends :
    let t := (matching 0).compareAll
    (t.counter 2).run = .spent ∧ (t.compare 4).equal = true ∧ t.lineHigh (t.fld F.SPN_M_CFG_LINE 4) = true ∧
      t.lineHigh 18 = true := by decide
theorem witness_ComparesAndCaptures :
    let c := { Capture.init with cfg := 0x8400 }
    let h := { Capture.init with cfg := 0xC400, done := true, opened := true }
    State.reset.watches c true = true ∧ (c.hold && c.done) = false ∧ c.undo = none ∧ State.reset.watches c false = true ∧
      State.reset.watches h true = true ∧ State.reset.watches h false = true ∧ (h.hold && h.done) = true ∧
      State.reset.live = true := by decide
theorem witness_ComparesAndCaptures_undo :
    let s := State.reset.setCapture 0 { Capture.init with cfg := 0x8400, opened := true }
    ((after (.capturePulseStart 0) s).capture 0).undo = some (0, true, false) ∧
      ((after (.capturePulseStart 0) s).capture 0).hold = false := by decide

/-- A position unit in `x` with the index ungated and every pulse accepted. -/
def tracking (x : PosState) : State :=
  let s := (State.reset.setFld F.POS_CFG_ZG_EN 0).setFld F.POS_CFG_ZMODE 2
  { s with pos := { s.pos with state := x, lastEdge := some 0, zPrev := some 7 }, clk := { s.clk with now := 9 } }

theorem witness_EncoderCounts_edges :
    (tracking .track).bnd.txn ≠ .pending ∧ (tracking .track).analog = true ∧ (tracking .track).pos.a = false ∧
      (tracking .track).pos.b = false ∧ (tracking .track).fld F.POS_CFG_DECODE = 2 ∧
      (tracking .track).flag F.POS_CFG_ZG_EN = false ∧ (tracking .track).injArg 0x08 = none ∧
      (tracking .track).frozen = false ∧ (tracking .track).pos.was = none ∧
      (tracking .track).accepts ((tracking .track).fld F.POS_CFG_FILT) = true ∧
      ((tracking .track).setFld F.POS_CFG_FILT 5).accepts 4 = false := by decide
theorem witness_EncoderCounts_forward : 0 ≤ (dirSign true : Rat) * (tracking .track).pos.v := by decide +kernel
theorem witness_EncoderCounts_first : State.reset.pos.state = .acquire ∧ State.reset.pos.lastEdge = none := by decide
theorem witness_EncoderCounts_index :
    (tracking .track).pos.z = false ∧ (tracking .track).indexAccepted = true ∧ (tracking .track).injArg 0x09 = none ∧
      (tracking .track).pos.state ≠ .relock := by decide
theorem witness_EncoderCounts_missed :
    let s := (tracking .track).setFld F.POS_Z_SPAN_SPAN 10000
    s.pos.zPrev.isSome = true ∧ s.fld F.POS_Z_SPAN_SPAN ≠ 0 ∧ (clampInt (-32767) 32767 (s.pos.c - 7).toInt).natAbs ≠ 10000 := by
  decide
theorem witness_EncoderCounts_preset : (tracking .track).live = true := by decide

/-- In tick 9, an edge a tick expected since tick 0, loss at more than `factor` of them. -/
def losing (factor : Nat) : State :=
  let s := ((tracking .track).setFld F.POS_HOLD_LINES_LINES 5).setFld F.POS_LOSS_FACTOR factor
  { s with pos := { s.pos with v := 1, vEdge := 1 } }
theorem witness_EncoderLosses_hold :
    let s := losing 8
    s.lossDue = true ∧ s.bnd.txn ≠ .pending ∧ s.flt.events.length < 64 ∧ s.analog = true ∧ s.pos.state = .track ∧
      s.still = false ∧ s.fld F.POS_HOLD_LINES_LINES ≠ 0 ∧ (losing 9).lossDue = false := by decide +kernel
theorem witness_EncoderLosses_quiet : ∀ m < 16, (losing 8).inGrid m = false := by decide
theorem witness_EncoderLosses_end :
    let s (n : Nat) := { (losing 8) with pos := { (tracking .holdover).pos with holdLines := n } }
    (s 5).holdOver = true ∧ (s 4).holdOver = false ∧ (s 5).pos.injLoss = false ∧ (s 5).pos.state = .holdover := by decide
theorem witness_EncoderLosses_relock :
    let s (p : BitVec 48) := { (tracking .relock) with pos := { (tracking .relock).pos with p := p } }
    (s 15).pos.error.natAbs < 16 ∧ 16 ≤ (s 16).pos.error.natAbs ∧ (s 15).pos.injLoss = false ∧
      (s 15).pos.state = .relock := by decide

/-- The aux converters on, with one regular slot and an I-slot on event line 7, both on converter 0. -/
def sampling : State :=
  let s := ((State.reset.setFld F.AUX_CTRL_REG_EN 1).setFld F.AUX_CTRL_EN0 1).setFld F.AUX_CTRL_INJ_EN 15
  let s := s.writeBytes Store.adcseq s.adcBank 0 [0x10, 0, 3, 0, 0, 0, 0, 0]
  s.writeBytes Store.adcseq s.adcBank 0x80 [0x10, 0, 3, 7, 0, 0, 0, 0]
/-- Its regular slot and its I-slot. -/
def regularSlot : Slot := sampling.peekSlot sampling.adcBank false 0
def injectedSlot : Slot := sampling.peekSlot sampling.adcBank true 0
/-- A run of the regular slot in its block, in a round of two such slots. -/
def sampled : State :=
  let s := { sampling with
    aux := { sampling.aux with
      round := some { slots := [regularSlot, regularSlot], next := 0 }
      regular := some { sampling.newRun regularSlot false 0 none with phase := .block } } }
  s

theorem witness_AuxRuns_round :
    sampling.analog = true ∧ sampling.flag F.AUX_CTRL_REG_EN = true ∧ sampling.aux.round = none ∧
      sampling.live = true := by decide
theorem witness_AuxRuns_slotOn :
    ((List.range (sampling.fld F.AUX_CTRL_REG_LEN_M1 + 1)).map (sampling.peekSlot sampling.adcBank false)).any
      sampling.slotOn = true := by decide
theorem witness_AuxRuns_clean :
    ∀ k < 40, sampling.wordClean ⟨Store.adcseq, sampling.adcBank, k⟩ := by unfold State.wordClean; decide +kernel
theorem witness_AuxRuns_late : sampled.aux.round.isSome = true ∧ sampled.analog = true := by decide
theorem witness_AuxRuns_slot :
    let s := { sampled with aux := { sampled.aux with regular := none } }
    let r : Round := { slots := [regularSlot, regularSlot], next := 0 }
    s.aux.round = some r ∧ s.nextSlot r = some 0 ∧ r.slots[0]? = some regularSlot ∧ s.injectedBusy regularSlot = false ∧
      ∀ j < 4, (s.slotData (16 + j)).request = .idle := by decide
theorem witness_AuxRuns_trigger :
    (sampling.gated && (7 : BitVec 6).toNat == sampling.fld F.EXP_SCHED_EVENT) = false ∧ sampling.aux.injected = [] ∧
      injectedSlot.trig = 7 ∧ sampling.injOn 0 injectedSlot = true ∧ sampling.lineExists 7 = true ∧
      sampling.aux.taken.getLsbD 7 = false ∧ (after (.auxInjTrigger 7) sampling).aux.taken.getLsbD 7 = true := by
  decide +kernel
/-- The I-slot's delay counts while the regular run holds the converter. -/
def requested (s : State) : State :=
  { s with aux := { s.aux with slots := Cells.set SlotData.init s.aux.slots 16 { SlotData.init with request := .counting injectedSlot none } } }
theorem witness_AuxRuns_request :
    ((requested sampling).slotData 16).request = .counting injectedSlot none ∧
      (requested sampling).injOn 0 injectedSlot = true ∧ (requested sampling).injArg 0x10 = none ∧
      (requested sampling).injectedBusy injectedSlot = false ∧ (requested sampling).regularBusy injectedSlot = false := by
  decide
theorem witness_AuxRuns_dropped :
    (requested sampled).regularBusy injectedSlot = true ∧ injectedSlot.collide = false ∧
      (requested sampled).flt.events.length < 64 ∧ (requested sampled).injOn 0 injectedSlot = true ∧
      ((requested sampled).setFld F.AUX_CTRL_INJ_EN 0).injOn 0 injectedSlot = false := by decide

theorem witness_AuxConverts_sample :
    let r := { sampling.newRun regularSlot false 0 none with phase := .block }
    sampled.aux.regular = some r ∧ sampled.aux.injected = [] ∧ r.inj = false ∧ r.slot.conv = 0 ∧ r.slot.flash = false ∧
      r.slot.ar = false ∧ r.slot.chan ≠ 8 ∧ r.first = none ∧ r.stop = none ∧ r.select = r.range ∧
      r.count + 1 < r.slot.len := by decide
theorem witness_AuxConverts_last :
    let r := { sampling.newRun regularSlot false 0 none with phase := .block, count := regularSlot.len - 1 }
    r.slot.len ≤ r.count + 1 ∧ 0 ≤ r.sum ∧ sampled.convLp 0 = false ∧ sampled.aux.queue.length < 64 ∧
      sampled.injArg 0x0F = none ∧ r.slot.chan ≠ sampled.fld F.TMP_CFG_CHAN ∧
      (sampled.nextSlot { slots := [regularSlot, regularSlot], next := r.index + 1 }).isSome = true ∧ r.index < 16 := by
  decide
theorem witness_AuxConverts_settled : sampling.convOn 0 = true ∧ (sampling.setFld F.AUX_CTRL_EN1 1).convOn 1 = true := by
  decide
theorem witness_AuxConverts_stop :
    let s := sampling.setFld F.AUX_FLASH_FINT 1
    let r := { s.newRun { injectedSlot with flash := true, conv := 2 } true 0 none with phase := .block }
    r.inj = true ∧ s.integrates r = true ∧ r.stop = none ∧
      2#2 &&& ((if r.slot.uses 0 then 1#2 else 0#2) ||| (if r.slot.uses 1 then 2#2 else 0#2)) ≠ 0 := by decide
theorem witness_AuxConverts_pop :
    State.reset.readOpen = true ∧ State.reset.commitDue = false ∧ State.reset.pwr.rails.vcore = true ∧
      State.reset.pwr.state ≠ .dormant ∧ State.reset.aux.queue = [] := by decide

/-- Armed with the host as the temperature's source. -/
def hostTemp : State := State.reset.setFld F.TMP_CFG_HOST 1
theorem witness_TemperaturesUsed_refused :
    State.reset.live = true ∧ State.reset.flag F.TMP_CFG_HOST = false ∧ State.reset.injArg 0x11 = none := by decide
theorem witness_TemperaturesUsed_range :
    hostTemp.live = true ∧ hostTemp.flag F.TMP_CFG_HOST = true ∧ hostTemp.thrClamped = false ∧
      hostTemp.exp.tdiCtx = none ∧ -640 ≤ (0xFD80 : Word).toInt ∧ (1679 : Word).toInt < 1680 := by decide
theorem witness_TemperaturesUsed_over :
    let s := { hostTemp with tmp := { hostTemp.tmp with band := some 5, valid := true } }
    1680 ≤ (1680 : Word).toInt ∧ s.nextBand 1680 = s.band ∧ s.nextBand 2400 = s.band ∧
      s.flag F.TMP_CFG_LIM_STOP = false ∧ s.thrClamped = false := by decide
theorem witness_TemperaturesUsed_fault : (0xFC3F : Word).toInt < -960 ∧ 2400 < (2401 : Word).toInt := by decide
theorem witness_TemperaturesUsed_stale :
    let s (n : Nat) := { State.reset.setFld F.TMP_CFG_STALE 1 with tmp := { State.reset.tmp with timer := n } }
    (s 0).analog = true ∧ (s 0).fld F.TMP_CFG_STALE ≠ 0 ∧ (s 0).tmp.stale = false ∧
      (s 24999999).tmp.timer < (s 24999999).stalePeriod ∧ (s 25000000).stalePeriod ≤ (s 25000000).tmp.timer := by decide

/-- Engine 1 selected, in `x`. -/
def engineOne (x : Engine) : State := (State.reset.setFld F.AGT_SEL_ENGINE 1).setEngine 1 x
theorem witness_EnginesObey :
    State.reset.live = true ∧ State.reset.analog = true ∧ (0xF : BitVec 4).toNat < 2 ^ State.reset.part.engines ∧
      (inPower .standby).live = true ∧ (inPower .standby).analog = false ∧
      (engineOne Engine.init).fld F.AGT_SEL_ENGINE < State.reset.part.engines ∧ State.reset.pwr.rails.vcore = true := by
  decide
theorem witness_EnginesObey_locked :
    let s := (engineOne { Engine.init with run := .running }).writeBytes Store.agate false 0x100 [0x80, 0, 0, 0, 0, 0, 0, 0]
    rowLock (s.peekRow 1 0) = true ∧ (s.engine 1).run ≠ .halted := by decide
theorem witness_EnginesObey_ends :
    16 ≤ (List.replicate 16 (7 : Word)).length ∧
      ((engineOne { Engine.init with fifo := List.replicate 16 7, parts := [1, 2, 3] }).engine 1).parts = [1, 2, 3] := by
  decide

/-- Engine 1 running a row that waits for land 3 high for two cycles. -/
def awaiting : State :=
  (engineOne { Engine.init with run := .running }).writeBytes Store.agate false 0x100 [0x20, 0xC2, 0, 0, 0, 9, 0, 0]
theorem witness_EnginesExecute_clean :
    awaiting.wordClean ⟨Store.agate, false, 64⟩ ∧ awaiting.wordClean ⟨Store.agate, false, 65⟩ := by
  unfold State.wordClean; decide
theorem witness_EnginesExecute_waits :
    awaiting.analog = true ∧ awaiting.flag F.AGT_CFG_TRACE 1 = false ∧ (awaiting.engine 1).injected = none ∧
      awaiting.rowOff (awaiting.peekRow 1 0) = false ∧
      awaiting.satisfied 1 (awaiting.peekRow 1 0) 0 = false ∧
      rowLimit (awaiting.peekRow 1 0) ≠ 0 ∧ (awaiting.engine 1).waited < rowLimit (awaiting.peekRow 1 0) ∧
      rowSource (awaiting.peekRow 1 0) ≠ .none := by decide
theorem witness_EnginesExecute_runs :
    let s := { awaiting with agt := { awaiting.agt with samples := [0, 8] } }
    s.satisfied 1 (s.peekRow 1 0) s.levels = true ∧ rowLock (s.peekRow 1 0) = false := by
  decide
theorem witness_EnginesExecute_halts :
    let s := awaiting.setEngine 1 { awaiting.engine 1 with run := .halting }
    (s.engine 1).run = .halting ∧ (s.engine 1).asking = false ∧ rowLock (s.peekRow 1 0) = false := by decide
theorem witness_EnginesExecute_injected :
    let s := { engineOne { Engine.init with injected := some 0 } with pwr := (inPower .standby).pwr }
    (s.engine 1).run = .halted ∧ s.up = true ∧ s.analog = false := by decide

theorem witness_BusTransfers_start :
    State.reset.live = true ∧ State.reset.flt.events.length < 64 ∧ (State.reset.setFld F.PB_XADDR_TADDR 0x21).startRefused .write 32 0 = false ∧
      State.reset.inhibited (State.reset.hostTransfer .write 32 0) = false ∧
      State.reset.startRefused .write 33 0 = true := by decide
theorem witness_BusTransfers_inhibited :
    let s := (({ State.reset with pwr := { State.reset.pwr with warn := true } } : State).setFld F.PB_XADDR_TADDR 0x21).setFld
      F.PB_EE_ADDR 0x21
    s.startRefused .write 2 0 = false ∧ s.inhibited (s.hostTransfer .write 2 0) = true := by decide

/-- A host read of address 0x21, its START sent or not. -/
def hostRead (sent : Bool) : Transfer :=
  { job := .host, op := .read, addr := 0x21, out := [], rlen := 3, sent := sent, losses := 0, backoff := false
    polling := false, aborting := false }
/-- The controller in the transfer `x`. -/
def transferring (x : Transfer) : State := { State.reset with pb := { State.reset.pb with xfer := some x } }
theorem witness_BusTransfers_abort : (hostRead true).job = .host ∧ (transferring (hostRead false)).live = true := by decide

theorem witness_BusProgresses :
    (transferring (hostRead true)).busOn = true ∧ (transferring (hostRead true)).bst.run = none ∧
      (transferring (hostRead true)).injArg 0x17 = none ∧ (transferring (hostRead true)).injArg 0x18 = none ∧
      (transferring (hostRead false)).inhibited (hostRead false) = false := by decide
theorem witness_BusProgresses_lost :
    ((transferring (hostRead true)).setFld F.PB_CFG_RETRY 1).fld F.PB_CFG_RETRY = 1 ∧
      ((transferring (hostRead true)).setFld F.PB_CFG_RETRY 0).fld F.PB_CFG_RETRY ≤ (hostRead true).losses := by decide
theorem witness_BusProgresses_write :
    ((transferring (hostRead true)).setFld F.PB_EE_ADDR 0x50).inBlock 0x21 = false ∧
      ((transferring (hostRead true)).setFld F.PB_EE_ADDR 0x21).inBlock 0x21 = true ∧ (hostRead true).op ≠ .write := by
  decide

theorem witness_TargetTransfers :
    let s := State.reset.setFld F.PB_TGT_EN 1
    s.busOn = true ∧ s.flag F.PB_TGT_EN = true ∧ s.commitDue = false ∧
      ({ s with pb := { s.pb with pointer := R.INJ_ARG } } : State).pb.pointer ∈ plainRegs ∧
      s.pb.target ≠ .written true ∧ s.pb.pointer < 0x100 ∧ s.targetOn = true ∧
      0x100 ≤ ({ s with pb := { s.pb with pointer := 0x100 } } : State).pb.pointer := by decide
theorem witness_TargetTransfers_off :
    (State.reset.setFld F.PB_TGT_EN 0).targetOn = false ∧ ((transferring (hostRead true)).setFld F.PB_TGT_EN 1).targetOn = false ∧
      ((transferring (hostRead false)).setFld F.PB_TGT_EN 1).targetOn = true := by decide

theorem witness_IntegrityWorks_scrub :
    State.reset.scrubs = true ∧ State.reset.scrubNext State.reset.mem.scrubPos < walkEnd State.reset.part ∧
      State.reset.scrubNext (State.reset.scrubNext State.reset.mem.scrubPos + 1) < walkEnd State.reset.part := by decide
theorem witness_IntegrityWorks_clean :
    State.reset.wordClean (walkWord State.reset.part (State.reset.scrubNext State.reset.mem.scrubPos)) := by
  unfold State.wordClean; decide
theorem witness_IntegrityWorks_flip :
    State.reset.live = true ∧ (State.reset.setFld F.MEM_SEL_STORE Store.cal).flipCheck 0x0013 = Status.ok ∧
      4 < F.MEM_FLIP_MASK_POS.of 0x0028 := by decide
theorem witness_IntegrityWorks_raw :
    State.reset.rawCheck 0 = Status.ok ∧ F.MEM_RAW_EN.of 0xFFFF = 1 ∧ (inPower .streaming).live = true := by decide
theorem witness_IntegrityWorks_retire :
    16 * 127 < State.reset.part.pages ∧
      ({ State.reset with part := .nl2606 } : State).part.pages ≤ 16 * 64 := by decide
theorem witness_IntegrityWorks_step :
    let s (n : Nat) := { State.reset with bst := { State.reset.bst with run := some { TestRun.begin_ .bstRun 0 with step := n } } }
    (s 3).injArg 0x1A = none ∧ (s 5).injArg 0x1A = none := by decide

theorem witness_InjectionsWait :
    State.reset.live = true ∧ injRange 0x08 0 = true ∧ injAbsent State.reset.part 0x08 0 = false ∧
      State.reset.injState 0x08 = true ∧ State.reset.flt.pending = none ∧ injRange 0x08 1 = false ∧
      State.reset.realNow 0x08 0 = false ∧ injRange 0x0A 1 = true ∧ injAbsent .nl2601 0x0A 1 = true := by decide
theorem witness_InjectionsWait_real :
    (State.reset.setFlag F.POS_STATUS_QERR true).realNow 0x08 0 = true ∧
      (State.reset.setFlag F.POS_STATUS_QERR true).injState 0x08 = true ∧
      (State.reset.setFlag F.POS_STATUS_QERR true).flt.pending = none := by decide

theorem witness_InjectionsAct :
    let s := (((inTxn .open_).setFld F.BND_WDOG_EN 1).setFld F.TMP_CFG_STALE 1)
    let s := { s with clk := { s.clk with locked := true }, pwr := { s.pwr with cp1Ok := true, cp2Ok := true } }
    s.live = true ∧ s.flt.events.length < 63 ∧ s.mem.failing = [] ∧ s.port.undo = [] ∧ s.pwr.inReset = none ∧
      s.pwr.resetLow = false ∧ s.pwr.testHigh = false ∧ s.pwr.rails.vcore = true ∧ s.pwr.warn = false ∧
      (∀ det ∈ [0x00, 0x01, 0x02, 0x06, 0x0A, 0x16], s.injReady det 1) ∧
      ∀ det ∈ [0x03, 0x05, 0x0B, 0x0C, 0x12], s.injReady det 0 := by
  unfold State.injReady; decide
theorem witness_InjectionsAct_end :
    let s := { State.reset with
      flt := { State.reset.flt with active := [0, 1, 2] }, pwr := { State.reset.pwr with warn := true } }
    (∀ k < 3, s.flt.active.contains k = true) ∧ State.reset.flt.active.contains 2 = false ∧ s.pwr.warnReal = false ∧
      s.pwr.warn = true := by
  decide

/-! ### A burst goes on, one register per tick (R180, R188) -/

theorem test_burst_next :
    let b : Burst := ⟨plainPacket 0x81 0x80 0x5F 4, 1, 0, [0, 0], 0⟩
    let s := { State.reset with port := { State.reset.port with burst := some b } }
    s.burstStep.port.resp = .prep (Response.of b.packet 0 (b.data ++ [0x0E, 0x4C])) false := by
  decide

/-! ### Lands (Table 02-4, R56, R65, R80) -/

theorem test_land_armed_lane : State.reset.land (.ln 0) = .idle := by decide

theorem test_land_sdo_unselected : State.reset.land .sdo = .z := by decide

theorem test_land_reset_column :
    ({ State.reset with pwr := { State.reset.pwr with resetLow := true } } : State).land .encA = .ignored := by decide

end Sys2Proof.Tests
end

section
/-! SUPPORT.
What a lost store and the clearing of class D leave alone, and what retention leaves of a register.
-/
namespace Sys2Proof.Machine

variable {s : State}

/-! ### What clearing class D changes -/

/-- Pages given to a use, or released, change the memories alone. -/
theorem State.usePages_frame (ps : List Nat) (u : PageUse) : ∃ m, s.usePages ps u = s.setMem m := by
  unfold State.usePages
  refine List.foldlRecOn ps _ (motive := fun t => ∃ m, t = s.setMem m) ⟨s.mem, rfl⟩ ?_
  rintro _ ⟨m, rfl⟩ p -
  exact ⟨_, rfl⟩

/-- Clearing the exposure unit gives its pages back and touches the aux unit; it changes nothing else. -/
theorem State.clearExposure_frame : ∃ m a, s.clearExposure = { s with exp := Exposure.init, mem := m, aux := a } := by
  have hlines : ∀ (ls : List TdiLine) (t : State),
      ∃ m, ls.foldl (fun t l => t.usePages l.pages .free) t = t.setMem m := by
    intro ls t
    refine List.foldlRecOn ls _ (motive := fun u => ∃ m, u = t.setMem m) ⟨t.mem, rfl⟩ ?_
    rintro _ ⟨m, rfl⟩ l -
    obtain ⟨n, hn⟩ := (t.setMem m).usePages_frame l.pages .free
    exact ⟨n, hn⟩
  unfold State.clearExposure
  obtain ⟨m, hm⟩ := hlines s.abandonAll.exp.tdiLines s.abandonAll
  dsimp only
  rw [hm]
  unfold State.abandonAll
  dsimp only
  obtain ⟨n, hn⟩ := s.usePages_frame ((s.exp.exposing.toList.flatMap fun e => e.frame.pages)
    ++ (s.exp.reading.toList.flatMap fun r => r.frame.pages) ++ (s.exp.between.toList.flatMap fun b => b.1.pages)) .free
  rw [hn]
  exact ⟨_, _, rfl⟩

/-- Clearing the lanes gives their pages back and takes free values; it changes nothing else. -/
theorem State.clearLanes_frame : ∃ m l n, s.clearLanes = { s with lanes := l, mem := m, free := n } := by
  unfold State.clearLanes State.stopLanes
  dsimp only
  obtain ⟨m, hm⟩ := State.usePages_frame (s := { s with
    lanes := { s.lanes with
      lanes := Cells.mapEntries Lane.init
        (fun q x => x.stop .cut (s.idlesBefore x) (Config.freeNat (s.free + q + 1))) s.lanes.lanes }
    free := s.free + 13 }) (s.lanes.lanes.flatMap fun e => e.2.spill.map Prod.fst) .free
  rw [hm]
  exact ⟨_, _, _, rfl⟩

/-- Clearing class D leaves the self-test alone. -/
theorem State.clearRuntime_bst (r : Retention) (cfgsel : Nat) (spi : Bool) :
    (s.clearRuntime r cfgsel spi).bst = s.bst := by
  obtain ⟨m, a, he⟩ := s.clearExposure_frame
  obtain ⟨n, l, k, hl⟩ := s.clearExposure.clearLanes_frame
  show s.clearExposure.clearLanes.bst = s.bst
  rw [hl, he]

/-! ### What a lost store changes -/

/-- The registers that tell of a lost store, or of the state that was lost with it (R121, R231, R623). -/
def lossRegs : List Nat := [R.SYS_STORE_LOST, R.SYS_STATUS, R.BND_STATUS, R.FLT_LOG_WR, R.AGT_TRACE]

/-- A lost store writes the memories, the fault unit and `lossRegs`: what `get` observes besides, it leaves alone. -/
theorem State.loseStore_leaves {β : Type} (get : State → β) (hmem : ∀ t m, get (State.setMem t m) = get t)
    (hflt : ∀ t x, get (State.setFlt t x) = get t)
    (hreg : ∀ t, ∀ a ∈ lossRegs, ∀ w, get (State.setReg t a w) = get t) (id : Nat) :
    get (s.loseStore id) = get s := by
  have hfld : ∀ t f v, f.addr ∈ lossRegs → get (State.setFld t f v) = get t := fun t f v hf => hreg t _ hf _
  have hflag : ∀ t f, f.addr ∈ lossRegs → get (State.setFlag t f false) = get t := fun t f hf => hfld t f 0 hf
  have hbank : ∀ t x, get (State.setFlag t (bankField x) false) = get t := fun t x =>
    hflag t _ (by cases x <;> decide)
  have hlog : ∀ t x,
      get { (State.setFlag (State.setFld t F.FLT_LOG_WR_WR 0) F.FLT_LOG_WR_WRAPPED false) with flt := x } = get t :=
    fun t x => (hflt _ x).trans ((hflag _ _ (by decide)).trans (hfld t _ _ (by decide)))
  have htrace : ∀ t, get (State.setFlag (State.setFld t F.AGT_TRACE_WR 0) F.AGT_TRACE_WRAPPED false) = get t :=
    fun t => (hflag _ _ (by decide)).trans (hfld t _ _ (by decide))
  unfold State.loseStore
  split
  · rfl
  · dsimp only
    generalize ht : State.setFlag (State.setReg _ R.SYS_STORE_LOST _) F.SYS_STATUS_STORES_VALID false = t
    have hlost : get t = get s := by rw [← ht, hflag _ _ (by decide), hreg _ _ (by decide), hmem]
    cases bankedOf id <;> dsimp only <;> split_ifs <;> simp only [hlog, htrace, hbank, hlost]

@[simp] theorem State.loseStore_bst (id : Nat) : (s.loseStore id).bst = s.bst :=
  s.loseStore_leaves State.bst (fun _ _ => rfl) (fun _ _ => rfl) (fun _ _ _ _ => rfl) id

/-- A lost store leaves every register but `lossRegs` alone. -/
theorem State.loseStore_reg (id : Nat) {a i : Nat} (hi : i < 256) (ha : a ∉ lossRegs) :
    (s.loseStore id).reg a i = s.reg a i :=
  s.loseStore_leaves (fun t => t.reg a i) (fun _ _ => rfl) (fun _ _ => rfl)
    (fun t _ hb w => t.reg_setReg_ne w fun h => ha ((regKey_inj hi (by decide) h).1 ▸ hb)) id

/-- What every operation of a fold leaves alone, the fold leaves alone. -/
theorem State.foldl_leaves {α β : Type} (get : State → β) {f : State → α → State}
    (h : ∀ t x, get (f t x) = get t) (l : List α) : get (l.foldl f s) = get s :=
  List.foldlRecOn l f (motive := fun t => get t = get s) rfl fun t ht x _ => (h t x).trans ht

/-! ### Retained registers (R14, R119) -/

/-- The pairs of address and number that name a stored register. -/
theorem mem_allRegs {a i : Nat} : (a, i) ∈ allRegs ↔ a < 256 ∧ fieldsAt a ≠ [] ∧ i < instancesAt a := by
  unfold allRegs
  simp only [List.mem_flatMap, List.mem_range]
  constructor
  · rintro ⟨b, hb, h⟩
    split at h
    · cases h
    · next hf =>
      simp only [List.mem_map, List.mem_range, Prod.mk.injEq] at h
      obtain ⟨j, hj, rfl, rfl⟩ := h
      exact ⟨hb, hf, hj⟩
  · rintro ⟨ha, hf, hi⟩
    exact ⟨a, ha, by simp [hf, hi]⟩

/-- Numbers within an address lie below 256. -/
theorem snd_lt_of_mem_allRegs {x : Nat × Nat} (h : x ∈ allRegs) : x.2 < 256 := by
  obtain ⟨-, -, hi⟩ := (mem_allRegs (a := x.1) (i := x.2)).1 h
  have h128 : instancesAt x.1 ≤ 128 := by
    unfold instancesAt
    split_ifs <;> omega
  omega

/-- Registers that an event builds anew read as they were built. -/
theorem get_buildRegs (f : Nat → Nat → Nat) {a i : Nat} (h : (a, i) ∈ allRegs) :
    Cells.get 0 (buildRegs f) (regKey a i) = BitVec.ofNat 16 (f a i) := by
  have key : ∀ l : List (Nat × Nat), (∀ x ∈ l, x.2 < 256) →
      Cells.get (0 : Word) (l.filterMap fun x =>
        let w := BitVec.ofNat 16 (f x.1 x.2)
        if w = 0 then none else some (regKey x.1 x.2, w)) (regKey a i) =
        if (a, i) ∈ l then BitVec.ofNat 16 (f a i) else 0 := by
    intro l hl
    induction l with
    | nil => rfl
    | cons x l ih =>
      have ih := ih fun y hy => hl y (List.mem_cons_of_mem _ hy)
      by_cases hk : (a, i) = x
      · subst hk
        by_cases hw : BitVec.ofNat 16 (f a i) = 0 <;> simp_all [Cells.get]
      · have hne : regKey a i ≠ regKey x.1 x.2 := fun e =>
          have ⟨h1, h2⟩ := regKey_inj (snd_lt_of_mem_allRegs h) (hl x List.mem_cons_self) e
          hk (Prod.ext h1 h2)
        by_cases hw : BitVec.ofNat 16 (f x.1 x.2) = 0 <;> simp_all [Cells.get]
  have hall := key allRegs fun _ => snd_lt_of_mem_allRegs
  rwa [if_pos h] at hall

/-- A Kept through mask has sixteen bits. -/
theorem keptMask_lt (r : Retention) : ∀ a < 256, keptMask r a < 2 ^ 16 := by
  cases r with
  | reset c => cases c <;> decide +kernel
  | standby => decide +kernel
  | dormant => decide +kernel

/-- A retained register keeps the bits of its mask, and has the others at their Reset value. -/
theorem State.getLsbD_retained (r : Retention) (cfgsel : Nat) (spi : Bool) {a i b : Nat} (h : (a, i) ∈ allRegs)
    (hb : b < 16) : (Cells.get 0 (s.retained r cfgsel spi) (regKey a i)).getLsbD b =
      if (keptMask r a).testBit b then (s.reg a i).getLsbD b else (resetWord s.part cfgsel spi a i).testBit b := by
  have hlt := keptMask_lt r a (mem_allRegs.1 h).1
  have hrest : (0xFFFF - keptMask r a).testBit b = !(keptMask r a).testBit b := by
    rw [show 0xFFFF - keptMask r a = 2 ^ 16 - (keptMask r a + 1) by omega, Nat.testBit_two_pow_sub_succ hlt]
    simp [hb]
  unfold State.retained
  rw [get_buildRegs _ h]
  simp only [BitVec.getLsbD_ofNat, hb, decide_true, Bool.true_and, Nat.testBit_or, Nat.testBit_and, hrest,
    BitVec.testBit_toNat]
  cases (keptMask r a).testBit b <;> simp

/-- Words that agree in the bits of a field agree in the field. -/
theorem Field.of_congr {f : Field} {v w : Word} (h : ∀ b, f.lo ≤ b → b ≤ f.hi → v.getLsbD b = w.getLsbD b) :
    f.of v = f.of w := by
  refine Nat.eq_of_testBit_eq fun k => ?_
  simp only [Field.of, bits, Nat.testBit_mod_two_pow, Nat.testBit_div_two_pow, BitVec.testBit_toNat]
  by_cases hk : k < f.hi + 1 - f.lo
  · rw [h _ (by omega) (by omega)]
  · simp [hk]

end Sys2Proof.Machine
end

section
/-! PROOF.
SHUTDOWN and BST_RUN: the start of a test run, the entry to Dormant, and the packets that ask for them.
-/
namespace Sys2Proof.Machine

variable {s : State}

/-! ### The start of a test run (R595, R601) -/

/-- Engines replaced one after the other: each is what was put in its place. -/
theorem State.engine_foldl_setEngine {P : Engine → Prop} {f : State → Nat → Engine} (hP : ∀ t e, P (f t e))
    {n : Nat} : ∀ e < n, P (((List.range n).foldl (fun t k => t.setEngine k (f t k)) s).engine e) := by
  induction n with
  | zero => intro e he; omega
  | succ n ih =>
    intro e he
    rw [List.range_succ, List.foldl_append]
    generalize hu : (List.range n).foldl (fun t k => t.setEngine k (f t k)) s = u at ih
    show P (Cells.get Engine.init (Cells.set Engine.init u.agt.engines n (f u n)) e)
    by_cases hen : e = n
    · rw [hen, Cells.get_set_self]
      exact hP u n
    · rw [Cells.get_set_ne _ _ hen]
      exact ih e (by omega)

/-- Engines replaced one after the other change the engines' unit alone. -/
theorem State.foldl_setEngine_frame (f : State → Nat → Engine) (l : List Nat) :
    ∃ g, l.foldl (fun t e => t.setEngine e (f t e)) s = { s with agt := g } := by
  refine List.foldlRecOn l _ (motive := fun t : State => ∃ g, t = { s with agt := g }) ⟨_, rfl⟩ ?_
  rintro _ ⟨g, rfl⟩ e -
  exact ⟨_, rfl⟩

/-- An engine halted for a test, its drive of the lands `z` given up (R528). -/
def Engine.haltedForTest (z : Byte) (x : Engine) : Engine :=
  { x with run := .halted, why := .test, waiting := false, waited := 0, since := 0
           drives := x.drives &&& ~~~z, values := x.values &&& ~~~z }

/-- The halt for a test replaces every engine of the member; then the lands follow. -/
theorem State.haltForTest_eq : s.haltForTest =
    ((List.range s.part.engines).foldl (fun t e => t.setEngine e
      ((t.engine e).haltedForTest (BitVec.ofNat 8 (s.fld F.AGT_BIST_PINS_Z)))) s).drive :=
  rfl

/-- The halt for a test changes the engines' unit alone. -/
theorem State.haltForTest_frame : ∃ g, s.haltForTest = { s with agt := g } := by
  obtain ⟨g, hg⟩ := s.foldl_setEngine_frame
    (fun t e => (t.engine e).haltedForTest (BitVec.ofNat 8 (s.fld F.AGT_BIST_PINS_Z))) (List.range s.part.engines)
  rw [State.haltForTest_eq, hg]
  exact ⟨_, rfl⟩

/-- Every engine of the member is halted for the test (R528). -/
theorem State.haltForTest_halted :
    ∀ e < s.part.engines, (s.haltForTest.engine e).run = .halted ∧ (s.haltForTest.engine e).why = .test := by
  rw [State.haltForTest_eq]
  exact State.engine_foldl_setEngine (P := fun x => x.run = .halted ∧ x.why = .test) fun _ _ => ⟨rfl, rfl⟩

/-- Dropping requests changes the aux unit, and counts and logs what is dropped. -/
theorem State.foldl_dropRequest_frame (l : List Nat) : ∃ r a x,
    l.foldl (fun t i => (t.setRequest i .idle).dropRequest i) s = { s with regs := r, aux := a, flt := x } := by
  refine List.foldlRecOn l _ (motive := fun t : State => ∃ r a x, t = { s with regs := r, aux := a, flt := x })
    ⟨_, _, _, rfl⟩ ?_
  rintro _ ⟨r, a, x, rfl⟩ i -
  unfold State.dropRequest State.raise
  split <;> exact ⟨_, _, _, rfl⟩

/-- Stopping the aux sequences changes the aux unit, and counts and logs what it drops. -/
theorem State.stopAux_frame : ∃ r a x, s.stopAux = { s with regs := r, aux := a, flt := x } := by
  obtain ⟨r, a, x, hdrop⟩ := s.foldl_dropRequest_frame
    ((List.range 4).filter fun i => (s.slotData (16 + i)).request.waits)
  unfold State.stopAux
  dsimp only
  rw [hdrop]
  exact ⟨_, _, _, rfl⟩

/-- No aux sequence is left (R472). -/
theorem State.stopAux_stopped :
    s.stopAux.aux.round = none ∧ s.stopAux.aux.regular = none ∧ s.stopAux.aux.injected = [] :=
  ⟨rfl, rfl, rfl⟩

/-- The first `n` engines are halted for a test, and no aux sequence is left (R472, R528). -/
def State.stoppedForTest (t : State) (n : Nat) : Prop :=
  (∀ e < n, (t.engine e).run = .halted ∧ (t.engine e).why = .test) ∧
    t.aux.round = none ∧ t.aux.regular = none ∧ t.aux.injected = []

/-- The step of the wake sequence at which the bring-up of a test run begins (R598); 0 = none. -/
def State.testWake (s : State) : Nat := if s.pwr.state = .standby then 5 else 0

/-- `t` is `s` with a test run of the kind `k` begun: Testing, the run at its start, and the units stopped. -/
def State.testBegun (s t : State) (k : TestKind) : Prop :=
  t = { s with
    regs := t.regs, port := t.port, agt := t.agt, aux := t.aux, flt := t.flt
    pwr := { s.pwr with from_ := s.pwr.state, state := .testing }
    bst := { s.bst with run := some (TestRun.begin_ k s.testWake) } } ∧ t.stoppedForTest s.part.engines

/-- The start of a test run, which leaves the port and the memories alone (R595, R601). -/
theorem State.startTest_begun (k : TestKind) :
    s.testBegun (s.startTest k) k ∧ (s.startTest k).port = s.port ∧ (s.startTest k).mem = s.mem := by
  obtain ⟨g, hg⟩ := s.haltForTest_frame
  obtain ⟨r, a, x, ha⟩ := s.haltForTest.stopAux_frame
  have hagt : s.haltForTest.stopAux.agt = s.haltForTest.agt := by rw [ha]
  have hhalt : ∀ e < s.part.engines,
      (s.haltForTest.stopAux.engine e).run = .halted ∧ (s.haltForTest.stopAux.engine e).why = .test := by
    unfold State.engine
    rw [hagt]
    exact s.haltForTest_halted
  have haux := s.haltForTest.stopAux_stopped
  have hunits : s.haltForTest.stopAux = { s with regs := r, aux := a, agt := g, flt := x } := by rw [ha, hg]
  unfold State.startTest
  rw [hunits] at hhalt haux ⊢
  exact ⟨⟨rfl, hhalt, haux⟩, rfl, rfl⟩

/-- SHUTDOWN in Armed or Standby starts the shut-down test (R593). -/
theorem State.shutdown_of_up (h : s.pwr.state = .armed ∨ s.pwr.state = .standby) :
    s.shutdown = s.startTest .shutdown := by
  unfold State.shutdown
  rcases h with h | h <;> rw [h]

/-- BST_RUN in Armed starts a full run (R594). -/
theorem State.bstRun_of_armed (h : s.pwr.state = .armed) : s.bstRun = s.startTest .bstRun := by
  unfold State.bstRun
  rw [if_neg (by rw [h]; decide)]

/-! ### The entry to Dormant (R89, R102, R119) -/

/-- SHUTDOWN in Safe after a wake failure or in lockout enters Dormant (R102). -/
theorem State.shutdown_of_failed (h : s.pwr.state = .safe)
    (hw : s.pwr.safeWhy = .wakeFailed ∨ s.pwr.safeWhy = .lockout) : s.shutdown = s.enterDormant := by
  unfold State.shutdown
  rw [h]
  rcases hw with hw | hw <;> rw [hw]

/-- In Dormant every rail is off. -/
theorem State.enterDormant_rails : s.enterDormant.pwr.rails = Rails.off := by
  simp [State.enterDormant, State.railsDownTo, Rails.upTo, Rails.off]

/-- The entry to Dormant keeps the record of the self-test. -/
theorem State.enterDormant_record : s.enterDormant.bst.record = s.bst.record := by
  simp only [State.enterDormant, State.railsDownTo, State.setPwr_bst, State.clearRuntime_bst]
  rw [State.foldl_leaves State.bst fun _ _ => State.loseStore_bst _]

/-- The entry to Dormant keeps SYS_RESET_CAUSE (Table 03-10). -/
theorem State.enterDormant_resetCause {f : Field} (ha : f.addr = R.SYS_RESET_CAUSE) (hf : f.hi ≤ 12) :
    s.enterDormant.fld f = s.fld f := by
  have hkept : ∀ b ≤ 12, (keptMask .dormant R.SYS_RESET_CAUSE).testBit b = true := by decide
  have hlost : ∀ l : List Nat, (l.foldl State.loseStore { s with bnd := Bindery.init }).reg R.SYS_RESET_CAUSE =
      s.reg R.SYS_RESET_CAUSE :=
    State.foldl_leaves (fun t => t.reg R.SYS_RESET_CAUSE) fun _ _ => State.loseStore_reg _ (by decide) (by decide)
  unfold State.fld
  rw [ha]
  refine Field.of_congr fun b _ hb => ?_
  refine (State.getLsbD_retained _ _ _ (mem_allRegs.2 (by decide)) (by omega)).trans ?_
  rw [if_pos (hkept b (by omega)), hlost]

/-! ### The packets -/

/-- The slot of a packet with the port free begins in the power state as it is. -/
theorem State.slotBegin_pwr {p : Packet} (h : s.portFree p = true) : s.slotBegin.pwr = s.pwr := by
  obtain ⟨x, hx⟩ := State.portFree_begin h
  rw [hx]; rfl

/-- A packet that starts a test run is answered, and the run begins. -/
theorem State.packetSlot_startTest {p : Packet} (h : s.portFree p = true) (hb : p.isBurst = false)
    (hw : p.writes = false) {lost : BitVec 32} {k : TestKind}
    (hx : s.slotBegin.execPacket p (lost.getLsbD 0) = ⟨Status.ok, [], s.slotBegin.startTest k⟩) :
    (s.packetSlot p lost).answers p Status.ok [] ∧ s.testBegun (s.packetSlot p lost) k := by
  obtain ⟨x, hbegin⟩ := State.portFree_begin h
  obtain ⟨-, hfail, -⟩ := State.portFree_iff.1 h
  obtain ⟨⟨hu, hstop⟩, hport, hmem⟩ := s.slotBegin.startTest_begun k
  generalize s.slotBegin.startTest k = u at hx hu hstop hport hmem
  have hexec : s.slotBegin.execOne p lost = ⟨Status.ok, [], u⟩ := by
    rw [State.execOne, hb, if_neg Bool.false_ne_true, hx]
  have hpwr : u.pwr.state = .testing := by rw [hu]
  obtain ⟨hans, hframe, -⟩ := State.packetSlot_spec (undo := []) h (by simp [hb]) hexec (by simp [hw])
    (by rw [hmem, hbegin]; exact hfail) (by simp [hpwr]) (by rw [hport, State.slotBegin_undo h])
  refine ⟨hans, ?_, ?_⟩
  · rw [hframe, hu, hbegin]
    rfl
  · rw [hframe]
    rw [hbegin] at hstop
    exact hstop

/-- A SHUTDOWN that enters Dormant is not answered (R174): LAST_SEQ names it, and its slot ends. -/
theorem State.packetSlot_dormant {p : Packet} (h : s.portFree p = true) {lost : BitVec 32} {st : Nat} {d : List Byte}
    {u : State} (hop : p.opcode = 0x8A) (hx : s.slotBegin.execPacket p (lost.getLsbD 0) = ⟨st, d, u⟩)
    (hd : u.pwr.state = .dormant) : s.packetSlot p lost = (u.setFld F.CP_STATUS_LAST_SEQ p.seq).closeSlot := by
  rw [State.packetSlot_free h, if_neg (by simp [Packet.isBurst, hop]), hx]
  simp [Answer.finish, Packet.writes, hop, hd]

/-- LAST_SEQ and the end of a slot leave the fields of every other register alone. -/
theorem State.fld_setFld_closeSlot {f : Field} (hf : f.addr ≠ R.CP_STATUS) (v : Nat) :
    (s.setFld F.CP_STATUS_LAST_SEQ v).closeSlot.fld f = s.fld f :=
  s.fld_setFld_ne fun h => hf (regKey_inj (by decide) (by decide) h).1

/-- Settles O29. Armed and Standby: the packet starts a test run and is answered. Safe after a wake failure or in
lockout: it enters Dormant, which keeps the record and SYS_RESET_CAUSE. -/
theorem testRequests : Obligations.TestRequests := by
  unfold Obligations.TestRequests
  intro flags addr s
  refine ⟨fun hs h => ?shutdown, fun hs h => ?bstRun, fun hs hw h => ?safe⟩ <;> rw [← State.slotBegin_pwr h] at hs
  case shutdown =>
    have hx : ∀ b, s.slotBegin.execPacket (plainPacket 0x8A flags addr 0) b =
        ⟨Status.ok, [], s.slotBegin.startTest .shutdown⟩ := fun _ => by rw [← State.shutdown_of_up hs]; rfl
    obtain ⟨hans, hbegun⟩ := State.packetSlot_startTest (lost := 0) h rfl rfl (hx _)
    exact ⟨_, rfl, hans, hbegun⟩
  case bstRun =>
    have hx : ∀ b, s.slotBegin.execPacket (plainPacket 0x8C flags addr 0) b =
        ⟨Status.ok, [], s.slotBegin.startTest .bstRun⟩ := fun _ => by rw [← State.bstRun_of_armed hs]; rfl
    obtain ⟨hans, hbegun, hstop⟩ := State.packetSlot_startTest (lost := 0) h rfl rfl (hx _)
    rw [State.slotBegin_pwr h] at hs
    rw [State.testWake, hs, if_neg (by decide)] at hbegun
    exact ⟨_, rfl, hans, hbegun, hstop⟩
  case safe =>
    rw [← State.slotBegin_pwr h] at hw
    have hx : ∀ b, s.slotBegin.execPacket (plainPacket 0x8A flags addr 0) b =
        ⟨Status.ok, [], s.slotBegin.enterDormant⟩ := fun _ => by rw [← State.shutdown_of_failed hs hw]; rfl
    have hslot := State.packetSlot_dormant (lost := 0) h rfl (hx _) rfl
    obtain ⟨x, hbegin⟩ := State.portFree_begin h
    rw [hbegin] at hslot
    have hcause : ∀ f : Field, f.addr = R.SYS_RESET_CAUSE → f.hi ≤ 12 → ∀ v,
        ((s.setPort x).enterDormant.setFld F.CP_STATUS_LAST_SEQ v).closeSlot.fld f = s.fld f := fun f ha hf v =>
      (State.fld_setFld_closeSlot (by rw [ha]; decide) v).trans (State.enterDormant_resetCause ha hf)
    exact ⟨_, congrArg Host.Outcome.next hslot, rfl, (s.setPort x).enterDormant_rails, rfl, rfl,
      (s.setPort x).enterDormant_record, rfl,
      hcause _ rfl (by decide) _, congrArg (· == 1) (hcause F.SYS_RESET_CAUSE_LOCKOUT rfl (by decide) _)⟩

end Sys2Proof.Machine
end

section
/-! PROOF.
TXN_ABORT: what the bank syncs and the abort do to the Bindery, and the packet that changes nothing else.
-/
namespace Sys2Proof.Machine

variable {s t : State} {b : Bindery} {x y : BankedStore}

/-! ### The Bindery (R217, R218) -/

/-- A bank sync replaced is that of its own store. -/
@[simp] theorem Bindery.setSync_sync (z : SyncState) : (b.setSync y z).sync x = if x = y then z else b.sync x := by
  cases x <;> cases y <;> rfl

/-- A bank sync replaced leaves what the transaction wrote. -/
@[simp] theorem Bindery.setSync_wrote (z : SyncState) : (b.setSync y z).wrote x = b.wrote x := by
  cases x <;> cases y <;> rfl

/-- The end of a transaction leaves the bank syncs. -/
@[simp] theorem Bindery.idle_sync : b.idle.sync x = b.sync x := by cases x <;> rfl

/-- After its end a transaction has written no store. -/
@[simp] theorem Bindery.idle_wrote : b.idle.wrote x = false := by cases x <;> rfl

/-- Syncs pended over a list of stores: those of the stores in it that the transaction wrote. -/
theorem Bindery.foldl_pend_sync (l : List BankedStore) :
    (l.foldl (fun b x => if b.wrote x then b.setSync x .pending else b) b).sync x =
      if x ∈ l ∧ b.wrote x = true then .pending else b.sync x := by
  induction l generalizing b with
  | nil => simp
  | cons y l ih =>
    rw [List.foldl_cons, ih]
    by_cases hw : b.wrote y = true <;> by_cases hx : x = y <;> simp [hw, hx]

/-- The syncs of the stores that the transaction wrote become pending, the others stay. -/
@[simp] theorem Bindery.pendSyncs_sync : b.pendSyncs.sync x = if b.wrote x then .pending else b.sync x := by
  have hx : x ∈ allBanked := by cases x <;> decide
  simp [Bindery.pendSyncs, Bindery.foldl_pend_sync, hx]

/-! ### TXN_ABORT (R217, Table 06-6) -/

/-- TXN_ABORT sees the Bindery alone, and changes nothing else. -/
theorem State.txnAbort_of_bnd (h : t.bnd = s.bnd) : t.txnAbort = (s.txnAbort.1, t.setBnd s.txnAbort.2.bnd) := by
  unfold State.txnAbort State.rollback
  rw [h]
  cases s.bnd.txn
  case idle => rw [← h]; rfl
  all_goals rfl

/-- In IDLE there is no transaction to abort. -/
theorem State.txnAbort_of_idle (h : s.bnd.txn = .idle) : s.txnAbort = (Status.noTxn, s) := by
  simp [State.txnAbort, h]

/-- In TIMED_OUT the host is told of the timeout. -/
theorem State.txnAbort_of_timedOut (h : s.bnd.txn = .timedOut) :
    s.txnAbort = (Status.timedOut, s.setBnd s.bnd.idle) := by
  simp [State.txnAbort, h]

/-- In OPEN and PENDING the transaction is rolled back. -/
theorem State.txnAbort_of_begun (h : s.bnd.txn = .open_ ∨ s.bnd.txn = .pending) :
    s.txnAbort = (Status.ok, s.setBnd s.bnd.pendSyncs.idle) := by
  rcases h with h | h <;> simp [State.txnAbort, State.rollback, h]

/-! ### The packet -/

/-- A packet whose effect is a change of the Bindery: it is answered, and only LAST_SEQ and the port change beside. -/
theorem State.packetSlot_setBnd {p : Packet} (h : s.portFree p = true) (hburst : p.isBurst = false)
    (hw : p.writes = false) (hop : p.opcode ≠ 0x8A) {lost : BitVec 32} {st : Nat} {d : List Byte}
    (hx : s.slotBegin.execPacket p (lost.getLsbD 0) = ⟨st, d, s.slotBegin.setBnd b⟩) :
    (s.packetSlot p lost).answers p st d ∧
    s.packetSlot p lost = { s with
      regs := (s.packetSlot p lost).regs, port := (s.packetSlot p lost).port, bnd := b } ∧
    s.regsKept (s.packetSlot p lost) [(F.CP_STATUS_LAST_SEQ, 0)] := by
  obtain ⟨c, hbegin⟩ := State.portFree_begin h
  obtain ⟨-, hfail, -⟩ := State.portFree_iff.1 h
  have hexec : s.slotBegin.execOne p lost = ⟨st, d, s.slotBegin.setBnd b⟩ := by
    rw [State.execOne, hburst, if_neg Bool.false_ne_true, hx]
  obtain ⟨hans, hframe, hkept⟩ := State.packetSlot_spec (undo := []) h (by simp [hburst]) hexec (by simp [hw])
    (by rw [hbegin]; exact hfail) (by simp [hop]) (State.slotBegin_undo h).symm
  rw [hbegin] at hframe hkept
  exact ⟨hans, hframe, State.regsKept_trans (State.regsKept_of_regs rfl rfl) hkept⟩

/-- Settles O18. The packet changes the Bindery as `State.txnAbort` does, by the state of the transaction; in OPEN and
PENDING the rollback pends the sync of each store written. -/
theorem txnAborts : Obligations.TxnAborts := by
  unfold Obligations.TxnAborts
  intro flags addr s p h
  obtain ⟨c, hbegin⟩ := State.portFree_begin h
  have hexec : s.slotBegin.execPacket p false =
      ⟨s.txnAbort.1, [], s.slotBegin.setBnd s.txnAbort.2.bnd⟩ :=
    congrArg Answer.of (State.txnAbort_of_bnd (by rw [hbegin]; rfl))
  obtain ⟨hans, hframe, hkept⟩ := State.packetSlot_setBnd (lost := 0) h rfl rfl (show 0x88 ≠ 0x8A by decide) hexec
  have hbnd : (s.packetSlot p 0).bnd = s.txnAbort.2.bnd := by rw [hframe]
  refine ⟨_, rfl, by rw [hbnd]; exact hframe, hkept, fun hs => ?idle, fun hs => ?timedOut, fun hs => ?begun⟩
  case idle =>
    rw [State.txnAbort_of_idle hs] at hans hbnd
    exact ⟨hans, hbnd⟩
  case timedOut =>
    rw [State.txnAbort_of_timedOut hs] at hans hbnd
    exact ⟨hans, hbnd⟩
  case begun =>
    rw [State.txnAbort_of_begun hs] at hans hbnd
    rw [hbnd]
    exact ⟨hans, rfl, rfl, fun x => ⟨Bindery.idle_wrote, by simp⟩⟩

end Sys2Proof.Machine
end

section
/-! PROOF.
The capture pairs: what a pulse start, a pulse end and a write of SPN_K_CFG leave of a pair, and of the rest.
-/
namespace Sys2Proof.Machine

variable {s : State} {k : Nat}

/-! ### Families held sparsely -/

/-- A read after a write, of the key written or of another one. -/
theorem Cells.get_set {β : Type} [DecidableEq β] {d : β} (m : Cells β) (k j : Nat) (v : β) :
    Cells.get d (Cells.set d m k v) j = if j = k then v else Cells.get d m j := by
  split
  · next h => rw [h, Cells.get_set_self]
  · next h => exact Cells.get_set_ne m v h

/-- A counter replaced. -/
@[simp] theorem State.counter_setCounter (x : Counter) (j : Nat) :
    (s.setCounter k x).counter j = if j = k then x else s.counter j := Cells.get_set ..

/-- A compare channel replaced. -/
@[simp] theorem State.compare_setCompare (x : Compare) (j : Nat) :
    (s.setCompare k x).compare j = if j = k then x else s.compare j := Cells.get_set ..

/-- A capture pair replaced. -/
@[simp] theorem State.capture_setCapture (x : Capture) (j : Nat) :
    (s.setCapture k x).capture j = if j = k then x else s.capture j := Cells.get_set ..

/-! ### Pairs (R403 to R406) -/

/-- A pair stored: the pairs and the marks of R633 change, nothing else. -/
theorem State.putCapture_frame (x : Capture) (ovr done : Bool) :
    ∃ f, s.putCapture k x ovr done = { s.setCapture k x with fresh := f } := by
  unfold State.putCapture
  dsimp only
  split <;> exact ⟨_, rfl⟩

/-- A pair stored with no new flag. -/
@[simp] theorem State.putCapture_unflagged (x : Capture) : s.putCapture k x false false = s.setCapture k x := rfl

/-- A pulse start where no captured pulse is held: RISE, OPEN and line 24 + k. -/
theorem State.pulseStart_of_free (hw : s.watches (s.capture k) true = true)
    (hh : ((s.capture k).hold && (s.capture k).done) = false) :
    s.pulseStart k = (s.setCapture k { s.capture k with
      rise := (s.counter (s.capture k).cnt).value, opened := true
      undo := some ((s.capture k).rise, (s.capture k).opened, (s.capture k).ovr) }).raiseLine (24 + k) := by
  simp [State.pulseStart, hw, Capture.start, hh]

/-- A pulse start while a captured pulse is held sets OVR only (R405). -/
theorem State.pulseStart_of_held (hw : s.watches (s.capture k) true = true)
    (hh : ((s.capture k).hold && (s.capture k).done) = true) :
    s.pulseStart k = s.putCapture k { s.capture k with
      ovr := true, undo := some ((s.capture k).rise, (s.capture k).opened, (s.capture k).ovr) } true false := by
  simp [State.pulseStart, hw, Capture.start, hh]

/-- The end of an open pulse: FALL, WIDTH, DONE, SEQ and line 28 + k. -/
theorem State.pulseEnd_of_open (hw : s.watches (s.capture k) false = true) (hu : (s.capture k).undo = none)
    (ho : (s.capture k).opened = true) (hh : ((s.capture k).hold && (s.capture k).done) = false) :
    s.pulseEnd k = (s.putCapture k { s.capture k with
      fall := (s.counter (s.capture k).cnt).value
      width := min ((s.counter (s.capture k).cnt).value - (s.capture k).rise).toNat 0xFFFFFFFF
      opened := false, done := true, ovr := (s.capture k).ovr || (s.capture k).done
      seq := ((s.capture k).seq + 1) % 256 } (s.capture k).done true).raiseLine (28 + k) := by
  simp [State.pulseEnd, hw, hu, Capture.finish, ho, hh]

/-- The end of a pulse that is not open, or while a captured one is held, stores the pair as it is. -/
theorem State.pulseEnd_of_idle (hw : s.watches (s.capture k) false = true) (hu : (s.capture k).undo = none)
    (h : (s.capture k).opened = false ∨ ((s.capture k).hold && (s.capture k).done) = true) :
    s.pulseEnd k = s.setCapture k (s.capture k) := by
  rcases h with h | h <;> simp [State.pulseEnd, hw, hu, Capture.finish, h]

/-- The end of an open pulse in whose tick the next one has started: the end takes the RISE of before, then the start
has its own (R404). -/
theorem State.pulseEnd_of_started {r : BitVec 48} {o : Bool} (hw : s.watches (s.capture k) false = true)
    (hu : (s.capture k).undo = some (r, true, o)) (hh : (s.capture k).hold = false) :
    s.pulseEnd k = (s.putCapture k { s.capture k with
      rise := (s.counter (s.capture k).cnt).value, opened := true, undo := none
      fall := (s.counter (s.capture k).cnt).value
      width := min ((s.counter (s.capture k).cnt).value - r).toNat 0xFFFFFFFF
      done := true, ovr := o || (s.capture k).done, seq := ((s.capture k).seq + 1) % 256 }
      (s.capture k).done true).raiseLine (28 + k) := by
  have hhold : ∀ x : Capture, x.cfg = (s.capture k).cfg → x.hold = false := fun x hx => by
    rw [← hh, Capture.hold, hx, Capture.hold]
  simp [State.pulseEnd, hw, hu, Capture.finish, Capture.start, hhold]

/-- A pair that is not enabled sees no start. -/
theorem State.pulseStart_of_disabled (h : (s.capture k).en = false) : s.pulseStart k = s := by
  simp [State.pulseStart, State.watches, h]

/-- A pair that is not enabled sees no end. -/
theorem State.pulseEnd_of_disabled (h : (s.capture k).en = false) : s.pulseEnd k = s := by
  simp [State.pulseEnd, State.watches, h]

/-- No pair enabled, none captures. -/
theorem State.captureTick_of_disabled (h : ∀ j < 4, (s.capture j).en = false) (ev : BitVec 64) (rise fall : Byte) :
    s.captureTick ev rise fall = s := by
  unfold State.captureTick
  refine List.foldlRecOn (List.range 4) _ (motive := fun t => t = s) rfl ?_
  rintro _ rfl j hj
  have hen := h j (List.mem_range.1 hj)
  simp [State.pulseStart_of_disabled hen, State.pulseEnd_of_disabled hen]

/-- In a live state nothing applies before a write of SPN_K_CFG. -/
theorem State.captureWrite_of_live (h : s.live = true) (v : Word) :
    s.captureWrite v = s.writeCaptureCfg (s.fld F.SPN_SEL_CAP) v := by
  simp only [State.live, Bool.and_eq_true, Bool.not_eq_true'] at h
  obtain ⟨⟨hup, hdue⟩, -⟩ := h
  simp [State.captureWrite, hup, State.dueApply_of hdue]

end Sys2Proof.Machine
end

section
/-! PROOF.
The load of a compare value: the write of SPN_M_LO reaches the channel that SPN_SEL names.
-/
namespace Sys2Proof.Machine

variable {s : State}

/-- A field holds no more than its bits. -/
theorem State.fld_lt (f : Field) (i : Nat) : s.fld f i < 2 ^ (f.hi + 1 - f.lo) :=
  Nat.mod_lt _ (Nat.two_pow_pos _)

/-- A write of a whole word keeps no bit of the word before. -/
theorem merge_full (old v : Word) : merge old v 0xFFFF = v := by
  rw [merge, show (0xFFFF : Word) = BitVec.allOnes 16 from rfl, BitVec.not_allOnes, BitVec.and_zero, BitVec.zero_or,
    BitVec.and_allOnes]

/-- The holding words and the word written, put side by side. -/
theorem join48_eq_append (hi mid lo : Word) : join48 hi mid lo = hi ++ mid ++ lo := by
  unfold join48
  apply BitVec.eq_of_toNat_eq
  have h1 := hi.isLt; have h2 := mid.isLt; have h3 := lo.isLt
  rw [BitVec.toNat_ofNat, Nat.mod_eq_of_lt (by omega), BitVec.toNat_append, BitVec.toNat_append,
    ← Nat.shiftLeft_add_eq_or_of_lt h3, ← Nat.shiftLeft_add_eq_or_of_lt h2, Nat.shiftLeft_eq, Nat.shiftLeft_eq]
  omega

/-- In a live state a write of SPN_M_LO loads the channel that SPN_SEL.CMP names. -/
theorem State.portWrite_compareLow (h : s.live = true) (v : Word) (lost : Bool) :
    s.portWrite R.SPN_M_LO v lost = s.loadCompare (s.fld F.SPN_SEL_CMP) v lost := by
  simp only [State.live, Bool.and_eq_true, Bool.not_eq_true'] at h
  obtain ⟨⟨hup, hdue⟩, hmute⟩ := h
  have hopen : s.writeOpen .port R.SPN_M_LO = true := by simp [State.writeOpen, hup, hmute]
  have hwrite : s.writeMasked .port R.SPN_M_LO v 0xFFFF lost =
      (Status.ok, s.loadCompare (s.fld F.SPN_SEL_CMP)
        (merge (s.view .port R.SPN_M_LO (s.fld F.SPN_SEL_CMP)) v 0xFFFF) lost) := rfl
  rw [State.portWrite, State.hostWrite, if_pos hopen, State.dueApply_of hdue, hwrite, merge_full]
  rfl

/-- An auto-add of the tick meets the load of channel `m` (R397). -/
def State.addMeets (s : State) (m : Nat) (lost : Bool) : Bool :=
  s.spn.added.getLsbD m || (lost && s.flag F.SPN_M_CFG_AUTO m)

/-- Channel `m` with a value loaded (R394 to R396). -/
def State.loaded (s : State) (m : Nat) (lo : Word) : Compare :=
  let c := s.compare m
  let w := c.holdHi ++ c.holdMid ++ lo
  { c with value := w, pending := c.pending || w != c.value, equal := false }

/-- A load replaces its channel, and sets ADD_LOST where an auto-add meets it. -/
theorem State.loadCompare_eq (m : Nat) (lo : Word) (lost : Bool) :
    s.loadCompare m lo lost =
      if s.addMeets m lost then (s.setCompare m (s.loaded m lo)).setFlag F.SPN_M_STAT_ADD_LOST true m
      else s.setCompare m (s.loaded m lo) := by
  simp only [State.loadCompare, State.loaded, State.addMeets, join48_eq_append]
  rfl

/-- A load changes its channel, and the registers only by ADD_LOST. -/
theorem State.loadCompare_spec (m : Nat) (hm : m < 256) (lo : Word) (lost : Bool) {t : State}
    (ht : s.loadCompare m lo lost = t) :
    t = { s with regs := t.regs, fresh := t.fresh, spn := { s.spn with compares := t.spn.compares } } ∧
    (s.addMeets m lost = true → t.flag F.SPN_M_STAT_ADD_LOST m = true) ∧
    s.regsKept t (if s.addMeets m lost then [(F.SPN_M_STAT_ADD_LOST, m)] else []) ∧
    ∀ j, t.compare j = if j = m then s.loaded m lo else s.compare j := by
  rw [State.loadCompare_eq] at ht
  cases hmet : s.addMeets m lost <;> simp only [hmet, if_true, if_false, Bool.false_eq_true] at ht <;> subst ht
  case false =>
    exact ⟨rfl, nofun, State.regsKept_of_regs rfl rfl, State.compare_setCompare _⟩
  case true =>
    refine ⟨rfl, fun _ => State.flag_setFlag _ rfl (by decide) _ _, ?_, State.compare_setCompare _⟩
    exact State.regsKept_trans (State.regsKept_of_regs (t := s.setCompare m (s.loaded m lo)) rfl rfl)
      (State.regsKept_setFlag hm (by decide) (by decide) List.mem_cons_self)

end Sys2Proof.Machine
end

section
/-! PROOF.
The compares of a tick: what the match of one channel does, and that the other channels, and the counters' own steps
after them, leave it standing.
-/
namespace Sys2Proof.Machine

variable {s t u : State} {m n : Nat}

/-! ### Lines and flags -/

/-- A line raised is high, and the others stay as they are. -/
theorem State.lineHigh_raiseLine (h : n < 64) (l : Nat) :
    (s.raiseLine n).lineHigh l = (s.lineHigh l || l == n) := by
  unfold State.lineHigh State.raiseLine
  rw [BitVec.getLsbD_or, BitVec.getLsbD_shiftLeft, BitVec.getLsbD_one]
  rcases Nat.lt_trichotomy l n with hl | rfl | hl
  · simp [hl, Nat.ne_of_lt hl]
  · simp [h]
  · simp [Nat.ne_of_gt hl, show l - n ≠ 0 by omega]

/-- A high line stays high when another is raised. -/
theorem State.lineHigh_raiseLine_of {l : Nat} (h : s.lineHigh l = true) (n : Nat) :
    (s.raiseLine n).lineHigh l = true := by
  unfold State.lineHigh at h
  simp [State.lineHigh, State.raiseLine, BitVec.getLsbD_or, h]

/-- A flag set changes no field of another register. -/
theorem State.fld_setFlag_ne {f g : Field} {b : Bool} {i j : Nat} (h : regKey g.addr j ≠ regKey f.addr i) :
    (s.setFlag f b i).fld g j = s.fld g j := by
  rw [State.fld, State.setFlag_reg, State.reg_setFld_ne s h, State.fld]

/-! ### The terminal count (R388) -/

/-- Counter `n` has become SPENT in this tick: its line shows it. -/
def State.justSpent (s : State) (n : Nat) : Prop := (s.counter n).run = .spent ∧ s.lineHigh (16 + n) = true

/-- A running one-shot is spent, and its line shows it. -/
theorem State.spend_of_running (ho : s.flag F.SPN_C_CFG_ONESHOT n = true) (hr : (s.counter n).run = .running) :
    s.spend n = ((s.setCounter n { s.counter n with run := .spent }).markStep n true).raiseLine (16 + n) := by
  simp [State.spend, ho, hr]

/-- A running one-shot that is spent has become SPENT. -/
theorem State.spend_justSpent (hn : n < 48) (ho : s.flag F.SPN_C_CFG_ONESHOT n = true)
    (hr : (s.counter n).run = .running) : (s.spend n).justSpent n := by
  rw [State.spend_of_running ho hr]
  refine ⟨congrArg Counter.run ((State.counter_setCounter _ n).trans (if_pos rfl)), ?_⟩
  rw [State.lineHigh_raiseLine (by omega), beq_self_eq_true, Bool.or_true]

/-- Any other counter stays. -/
theorem State.spend_of_not (h : ¬(s.flag F.SPN_C_CFG_ONESHOT n = true ∧ (s.counter n).run = .running)) :
    s.spend n = s := by
  unfold State.spend
  rw [if_neg (by simpa using h)]

/-! ### What leaves a channel standing -/

/-- From `s` to `t`, what channel `m` shows stays: its compare value and state, its registers, every line that is high,
and every counter's run state, but for running ones that became SPENT. -/
structure State.Leaves (m : Nat) (s t : State) : Prop where
  compare : t.compare m = s.compare m
  fld : ∀ f i, i < 256 → (f.addr = R.SPN_M_STAT → i = m) → t.fld f i = s.fld f i
  line : ∀ l, s.lineHigh l = true → t.lineHigh l = true
  run : ∀ n, (t.counter n).run = (s.counter n).run ∨ t.justSpent n

/-- Nothing changed. -/
theorem State.Leaves.refl : State.Leaves m s s := ⟨rfl, fun _ _ _ _ => rfl, fun _ h => h, fun _ => .inl rfl⟩

/-- A counter spent in this tick stays so. -/
theorem State.Leaves.justSpent (h : State.Leaves m s t) (hs : s.justSpent n) : t.justSpent n :=
  (h.run n).elim (fun hr => ⟨hr.trans hs.1, h.line _ hs.2⟩) id

/-- One change after the other. -/
theorem State.Leaves.trans (h : State.Leaves m s t) (h' : State.Leaves m t u) : State.Leaves m s u where
  compare := h'.compare.trans h.compare
  fld f i hi hf := (h'.fld f i hi hf).trans (h.fld f i hi hf)
  line l hl := h'.line l (h.line l hl)
  run n := (h'.run n).elim (fun hr => (h.run n).imp hr.trans h'.justSpent) .inr

/-- A flag of the channel stays. -/
theorem State.Leaves.flag (h : State.Leaves m s t) (f : Field) (i : Nat) (hi : i < 256)
    (hf : f.addr = R.SPN_M_STAT → i = m) : t.flag f i = s.flag f i := by
  rw [State.flag, h.fld f i hi hf, State.flag]

/-- What changes neither registers nor the Spine nor lines. -/
theorem State.Leaves.of_eq (hregs : t.regs = s.regs) (hspn : t.spn = s.spn) (hlines : t.lines = s.lines) :
    State.Leaves m s t where
  compare := by rw [State.compare, hspn, State.compare]
  fld f i _ _ := by rw [State.fld, State.reg, hregs, State.fld, State.reg]
  line l hl := by rwa [State.lineHigh, hlines]
  run n := .inl (by rw [State.counter, hspn, State.counter])

/-- A terminal count leaves every channel standing. -/
theorem State.spend_leaves (hn : n < 48) : State.Leaves m s (s.spend n) := by
  by_cases h : s.flag F.SPN_C_CFG_ONESHOT n = true ∧ (s.counter n).run = .running
  · obtain ⟨ho, hr⟩ := h
    have hspent := State.spend_justSpent hn ho hr
    rw [State.spend_of_running ho hr] at hspent ⊢
    refine ⟨rfl, fun _ _ _ _ => rfl, fun l hl => State.lineHigh_raiseLine_of hl _, fun j => ?_⟩
    by_cases hj : j = n
    · exact .inr (hj ▸ hspent)
    · exact .inl (congrArg Counter.run ((State.counter_setCounter _ j).trans (if_neg hj)))
  · rw [State.spend_of_not h]
    exact .refl

/-- A terminal count keeps every value. -/
theorem State.spend_value (n j : Nat) : ((s.spend n).counter j).value = (s.counter j).value := by
  by_cases h : s.flag F.SPN_C_CFG_ONESHOT n = true ∧ (s.counter n).run = .running
  · rw [State.spend_of_running h.1 h.2]
    refine (congrArg Counter.value (State.counter_setCounter _ j)).trans ?_
    split
    · next hj => rw [hj]
    · rfl
  · rw [State.spend_of_not h]

/-! ### A match (R393, R397) -/

/-- Channel `m` after a match: the next value of its grid, or no longer pending. -/
def State.matched (s : State) (m : Nat) : Compare :=
  let c := s.compare m
  if s.flag F.SPN_M_CFG_AUTO m then
    { c with value := c.value + BitVec.ofNat 48 (s.fld F.SPN_M_INTERVAL_INTERVAL m), pending := true, equal := true }
  else { c with pending := false, equal := true }

/-- The match of channel `m` before its terminal count. -/
def State.matchShown (s : State) (m : Nat) : State :=
  let t := (s.setFlag F.SPN_M_STAT_MATCH true m).raiseLine (s.fld F.SPN_M_CFG_LINE m)
  if s.flag F.SPN_M_CFG_AUTO m then (t.setCompare m (s.matched m)).markAdded m else t.setCompare m (s.matched m)

/-- A match: what it shows, then the terminal count where STOP is 1. -/
theorem State.doMatch_eq (m : Nat) : s.doMatch m =
    if s.flag F.SPN_M_CFG_STOP m then (s.matchShown m).spend (s.fld F.SPN_M_CFG_CNT m) else s.matchShown m := by
  unfold State.doMatch State.matchShown State.matched
  cases s.flag F.SPN_M_CFG_AUTO m <;> rfl

/-- What a match shows beside its channel: the flag's registers and its line. -/
theorem State.matchShown_frame (m : Nat) : ∃ (x : Spine) (f : Cells Word),
    s.matchShown m = { s with
      regs := (s.setFlag F.SPN_M_STAT_MATCH true m).regs, fresh := f, spn := x
      lines := (s.raiseLine (s.fld F.SPN_M_CFG_LINE m)).lines } ∧
    x.counters = s.spn.counters ∧ ∀ j, (s.matchShown m).compare j = if j = m then s.matched m else s.compare j := by
  unfold State.matchShown
  cases s.flag F.SPN_M_CFG_AUTO m <;> exact ⟨_, _, rfl, rfl, State.compare_setCompare _⟩

/-- The registers of a match. -/
theorem State.matchShown_fld {f : Field} {i : Nat} (hm : m < 256) (hi : i < 256)
    (hf : f.addr = R.SPN_M_STAT → i ≠ m) : (s.matchShown m).fld f i = s.fld f i := by
  obtain ⟨x, fr, he, -⟩ := s.matchShown_frame m
  have hne : regKey f.addr i ≠ regKey F.SPN_M_STAT_MATCH.addr m := fun h => by
    obtain ⟨ha, him⟩ := regKey_inj hi hm h
    exact hf ha him
  rw [he]
  exact State.fld_setFlag_ne hne

/-- A match sets MATCH. -/
theorem State.matchShown_match (m : Nat) : (s.matchShown m).flag F.SPN_M_STAT_MATCH m = true := by
  obtain ⟨x, fr, he, -⟩ := s.matchShown_frame m
  rw [he]
  exact State.flag_setFlag s rfl (by decide) true m

/-- The counters at a match. -/
theorem State.matchShown_counter (m j : Nat) : (s.matchShown m).counter j = s.counter j := by
  obtain ⟨x, fr, he, hc, -⟩ := s.matchShown_frame m
  rw [he]
  exact congrArg (Cells.get Counter.init · j) hc

/-- The lines at a match. -/
theorem State.matchShown_line (m l : Nat) :
    (s.matchShown m).lineHigh l = (s.raiseLine (s.fld F.SPN_M_CFG_LINE m)).lineHigh l := by
  obtain ⟨x, fr, he, -⟩ := s.matchShown_frame m
  rw [he]
  rfl

/-- The channels at a match. -/
theorem State.matchShown_compare (m j : Nat) :
    (s.matchShown m).compare j = if j = m then s.matched m else s.compare j := by
  obtain ⟨x, fr, he, -, hc⟩ := s.matchShown_frame m
  exact hc j

/-- A counter that has become SPENT stays so at a match. -/
theorem State.matchShown_justSpent (m : Nat) (h : s.justSpent n) : (s.matchShown m).justSpent n :=
  ⟨(congrArg Counter.run (s.matchShown_counter m n)).trans h.1,
    (s.matchShown_line m _).trans (State.lineHigh_raiseLine_of h.2 _)⟩

/-- What a match shows leaves another channel standing. -/
theorem State.matchShown_leaves {j : Nat} (hj : j < 256) (hne : j ≠ m) : State.Leaves m s (s.matchShown j) where
  compare := (s.matchShown_compare j m).trans (if_neg hne.symm)
  fld _ _ hi hf := State.matchShown_fld hj hi fun ha => (hf ha).symm ▸ hne.symm
  line l hl := (s.matchShown_line j l).trans (State.lineHigh_raiseLine_of hl _)
  run n := .inl (congrArg Counter.run (s.matchShown_counter j n))

/-- CNT names one of eight counters. -/
theorem State.compareCnt_lt (s : State) (m : Nat) : s.fld F.SPN_M_CFG_CNT m < 8 := s.fld_lt F.SPN_M_CFG_CNT m

/-- The terminal count of a match leaves every channel standing. -/
theorem State.matchShown_leaves_doMatch (s : State) (m j : Nat) : State.Leaves m (s.matchShown j) (s.doMatch j) := by
  have hcnt := s.compareCnt_lt j
  rw [State.doMatch_eq]
  split
  · exact State.spend_leaves (by omega)
  · exact .refl

/-! ### One tick's compares (R393, R400) -/

/-- The compare of a channel leaves another one standing. -/
theorem State.compareOne_leaves {j : Nat} (hj : j < 256) (hne : j ≠ m) : State.Leaves m s (s.compareOne j) := by
  unfold State.compareOne
  split
  · exact (State.matchShown_leaves hj hne).trans (s.matchShown_leaves_doMatch m j)
  · split
    · exact ⟨(State.compare_setCompare _ m).trans (if_neg hne.symm), fun _ _ _ _ => rfl, fun _ h => h,
        fun _ => .inl rfl⟩
    · exact .refl

/-- The compare of a channel keeps every counter's value. -/
theorem State.compareOne_value (j n : Nat) : ((s.compareOne j).counter n).value = (s.counter n).value := by
  unfold State.compareOne
  split
  · rw [State.doMatch_eq]
    split
    · rw [State.spend_value, State.matchShown_counter]
    · rw [State.matchShown_counter]
  · split <;> rfl

/-- The compares of other channels leave a channel standing. -/
theorem State.compares_leave {l : List Nat} (hl : ∀ j ∈ l, j < 256 ∧ j ≠ m) :
    State.Leaves m s (l.foldl State.compareOne s) :=
  List.foldlRecOn l _ (motive := State.Leaves m s) .refl fun _ ht j hj =>
    ht.trans (State.compareOne_leaves (hl j hj).1 (hl j hj).2)

/-- `t` shows the match that channel `m` of `s` has: MATCH, its line, its channel, and under STOP a running one-shot
spent. -/
def State.showsMatch (m : Nat) (s t : State) : Prop :=
  t.flag F.SPN_M_STAT_MATCH m = true ∧ t.lineHigh (s.fld F.SPN_M_CFG_LINE m) = true ∧ t.compare m = s.matched m ∧
    (s.flag F.SPN_M_CFG_STOP m = true → s.flag F.SPN_C_CFG_ONESHOT (s.fld F.SPN_M_CFG_CNT m) = true →
      (s.counter (s.fld F.SPN_M_CFG_CNT m)).run = .running → t.justSpent (s.fld F.SPN_M_CFG_CNT m))

/-- A match shown stays shown. -/
theorem State.showsMatch.leaves (hm : m < 256) (h : State.showsMatch m s t) (h' : State.Leaves m t u) :
    State.showsMatch m s u := by
  obtain ⟨hflag, hline, hcmp, hspent⟩ := h
  refine ⟨?_, h'.line _ hline, h'.compare.trans hcmp, fun h1 h2 h3 => h'.justSpent (hspent h1 h2 h3)⟩
  rwa [State.flag, h'.fld _ _ hm fun _ => rfl]

/-- A match of a channel left standing is the match that it had before. -/
theorem State.showsMatch.of_leaves (hm : m < 256) (h : State.Leaves m s t)
    (hu : ∀ n, t.justSpent n → u.justSpent n) (h' : State.showsMatch m t u) : State.showsMatch m s u := by
  obtain ⟨hflag, hline, hcmp, hspent⟩ := h'
  have hcnt : t.fld F.SPN_M_CFG_CNT m = s.fld F.SPN_M_CFG_CNT m := h.fld F.SPN_M_CFG_CNT m hm nofun
  have hn : s.fld F.SPN_M_CFG_CNT m < 256 := (s.compareCnt_lt m).trans (by decide)
  have hmatched : t.matched m = s.matched m := by
    rw [State.matched, h.compare, h.flag F.SPN_M_CFG_AUTO m hm nofun, h.fld F.SPN_M_INTERVAL_INTERVAL m hm nofun,
      State.matched]
  rw [hcnt, h.flag F.SPN_M_CFG_STOP m hm nofun, h.flag F.SPN_C_CFG_ONESHOT _ hn nofun] at hspent
  refine ⟨hflag, h.fld F.SPN_M_CFG_LINE m hm nofun ▸ hline, hcmp.trans hmatched, fun hstop hone hrun => ?_⟩
  rcases h.run (s.fld F.SPN_M_CFG_CNT m) with hr | hs
  · exact hspent hstop hone (hr.trans hrun)
  · exact hu _ hs

/-- A match shows. -/
theorem State.doMatch_showsMatch (hm : m < 256) : State.showsMatch m s (s.doMatch m) := by
  have h := s.matchShown_leaves_doMatch m m
  have hcnt := s.compareCnt_lt m
  have hline : s.fld F.SPN_M_CFG_LINE m < 16 := s.fld_lt F.SPN_M_CFG_LINE m
  refine ⟨?_, h.line _ ?_, h.compare.trans ((s.matchShown_compare m m).trans (if_pos rfl)), fun hstop hone hrun => ?_⟩
  · rw [h.flag _ m hm fun _ => rfl]
    exact s.matchShown_match m
  · rw [State.matchShown_line, State.lineHigh_raiseLine (by omega), beq_self_eq_true, Bool.or_true]
  · rw [State.doMatch_eq, if_pos hstop]
    refine State.spend_justSpent (by omega) ?_ ?_
    · rw [State.flag, State.matchShown_fld (f := F.SPN_C_CFG_ONESHOT) hm (by omega) nofun]
      exact hone
    · rw [State.matchShown_counter]
      exact hrun

/-- Whether a channel left standing matches. -/
theorem State.matches_of_leaves (hm : m < 256) (h : State.Leaves m s t)
    (hv : ∀ n, (t.counter n).value = (s.counter n).value) : t.matches_ m = s.matches_ m := by
  rw [State.matches_, h.fld F.SPN_M_CFG_CNT m hm nofun, h.compare, hv,
    h.flag F.SPN_M_CFG_EN m hm nofun, h.flag F.SPN_M_CFG_MODE m hm nofun, State.matches_]

/-- A channel that matches shows its match after the compares of a tick: those before it leave it standing, and those
after it leave its match shown. -/
theorem State.compareAll_showsMatch (hm : m < 16) (h : s.matches_ m = true) : State.showsMatch m s s.compareAll := by
  have hsplit : List.range 16 = List.range m ++ m :: (List.range (15 - m)).map (m + 1 + ·) := by
    rw [show (16 : Nat) = m + (15 - m + 1) by omega, List.range_add, List.range_succ_eq_map]
    simp [Function.comp_def, Nat.add_assoc, Nat.add_comm 1]
  unfold State.compareAll
  rw [hsplit, List.foldl_append, List.foldl_cons]
  have hbefore : State.Leaves m s ((List.range m).foldl State.compareOne s) :=
    State.compares_leave fun j hj => by have := List.mem_range.1 hj; omega
  have hvalue : ∀ n, (((List.range m).foldl State.compareOne s).counter n).value = (s.counter n).value := fun n =>
    State.foldl_leaves (fun t => (t.counter n).value) (fun t j => t.compareOne_value j n) _
  generalize (List.range m).foldl State.compareOne s = t at hbefore hvalue ⊢
  have hmatch : t.matches_ m = true := (State.matches_of_leaves (by omega) hbefore hvalue).trans h
  rw [show t.compareOne m = t.doMatch m by rw [State.compareOne, if_pos hmatch]]
  have hafter : State.Leaves m (t.doMatch m)
      (((List.range (15 - m)).map (m + 1 + ·)).foldl State.compareOne (t.doMatch m)) :=
    State.compares_leave fun j hj => by simp only [List.mem_map, List.mem_range] at hj; omega
  have hself : State.showsMatch m t (t.doMatch m) := State.doMatch_showsMatch (by omega)
  have hspent : ∀ n, t.justSpent n → (t.doMatch m).justSpent n := fun n hn =>
    (t.matchShown_leaves_doMatch m m).justSpent (t.matchShown_justSpent m hn)
  exact .of_leaves (by omega) hbefore (fun n hn => hafter.justSpent (hspent n hn)) (hself.leaves (by omega) hafter)

end Sys2Proof.Machine
end

section
/-! PROOF.
A quiet tick: the units beside the Spine do nothing, the channels compare, and the counters step after them.
-/
namespace Sys2Proof.Machine

variable {s t u old : State} {m n : Nat}

/-! ### What the compares do not touch -/

/-- A terminal count changes the Spine and the lines. -/
theorem State.spend_frame (n : Nat) : ∃ x l, s.spend n = { s with spn := x, lines := l } := by
  unfold State.spend
  dsimp only
  split <;> exact ⟨_, _, rfl⟩

/-- The compare of a channel changes registers, the Spine and the lines. -/
theorem State.compareOne_frame (j : Nat) :
    ∃ r f x l, s.compareOne j = { s with regs := r, fresh := f, spn := x, lines := l } := by
  unfold State.compareOne
  split
  · obtain ⟨x, f, he, -⟩ := s.matchShown_frame j
    rw [State.doMatch_eq, he]
    split
    · obtain ⟨y, l, hy⟩ := State.spend_frame (s := { s with
        regs := (s.setFlag F.SPN_M_STAT_MATCH true j).regs, fresh := f, spn := x
        lines := (s.raiseLine (s.fld F.SPN_M_CFG_LINE j)).lines }) (s.fld F.SPN_M_CFG_CNT j)
      exact ⟨_, _, _, _, hy⟩
    · exact ⟨_, _, _, _, rfl⟩
  · split <;> exact ⟨_, _, _, _, rfl⟩

/-- The compares of a tick change registers, the Spine and the lines. -/
theorem State.compareAll_frame :
    ∃ r f x l, s.compareAll = { s with regs := r, fresh := f, spn := x, lines := l } := by
  unfold State.compareAll
  refine List.foldlRecOn (List.range 16) State.compareOne
    (motive := fun t => ∃ r f x l, t = { s with regs := r, fresh := f, spn := x, lines := l })
    ⟨s.regs, s.fresh, s.spn, s.lines, rfl⟩ ?_
  rintro _ ⟨r, f, x, l, rfl⟩ j -
  obtain ⟨r', f', x', l', h⟩ := State.compareOne_frame (s := { s with regs := r, fresh := f, spn := x, lines := l }) j
  exact ⟨r', f', x', l', h⟩

/-- The compares of a tick write no register but SPN_M_STAT. -/
theorem State.compareAll_fld {f : Field} {i : Nat} (hi : i < 256) (hf : f.addr ≠ R.SPN_M_STAT) :
    s.compareAll.fld f i = s.fld f i := by
  unfold State.compareAll
  refine List.foldlRecOn (List.range 16) State.compareOne (motive := fun t => t.fld f i = s.fld f i) rfl
    fun t ht j hj => ?_
  have hj := List.mem_range.1 hj
  have hleaves : State.Leaves (j + 1) t (t.compareOne j) := State.compareOne_leaves (by omega) (by omega)
  exact (hleaves.fld f i hi fun h => absurd h hf).trans ht

/-- The compares of a tick leave the sources of the counters. -/
theorem State.compareAll_source (hn : n < 256) : s.compareAll.source n = s.source n := by
  rw [State.source, State.compareAll_fld (f := F.SPN_C_CFG_SRC) hn nofun, State.source]

/-! ### The counters' steps (R380, R381) -/

/-- From `s` to `t` counters have stepped: their values, remainders and marks, nothing else. -/
structure State.CountsOn (s t : State) : Prop where
  frame : t = { s with spn := t.spn }
  compares : t.spn.compares = s.spn.compares
  run : ∀ n, (t.counter n).run = (s.counter n).run

/-- No step. -/
theorem State.CountsOn.refl : s.CountsOn s := ⟨rfl, rfl, fun _ => rfl⟩

/-- Steps after steps. -/
theorem State.CountsOn.trans (h : s.CountsOn t) (h' : t.CountsOn u) : s.CountsOn u where
  frame := by
    have he := h'.frame
    rw [h.frame] at he
    exact he
  compares := h'.compares.trans h.compares
  run n := (h'.run n).trans (h.run n)

/-- Steps leave the sources. -/
theorem State.CountsOn.source (h : s.CountsOn t) (n : Nat) : t.source n = s.source n := by
  rw [h.frame]
  rfl

/-- Steps leave every channel standing. -/
theorem State.CountsOn.leaves (h : s.CountsOn t) : State.Leaves m s t where
  compare := congrArg (Cells.get Compare.init · m) h.compares
  fld f i _ _ := by rw [h.frame]; rfl
  line l hl := by rw [h.frame]; exact hl
  run n := .inl (h.run n)

/-- A counter with no encoder source takes a value: no channel is realigned. -/
theorem State.stepTo_countsOn {c : Counter} (hw : (s.source n).weight = 0) (hr : c.run = (s.counter n).run) :
    s.CountsOn (s.stepTo n c).2 := by
  have hset : s.CountsOn (s.setCounter n c) := ⟨rfl, rfl, fun j => by
    rw [State.counter_setCounter]
    split
    · next hj => rw [hr, hj]
    · rfl⟩
  have hmark : (s.setCounter n c).CountsOn ((s.setCounter n c).markStep n false) := ⟨rfl, rfl, fun _ => rfl⟩
  unfold State.stepTo
  simp only [hw, bne_self_eq_false, Bool.and_false, Bool.false_eq_true, if_false]
  split
  · exact hset
  · exact hset.trans hmark

/-- A counter with no encoder source takes its input. -/
theorem State.feedOne_countsOn (hw : (s.source n).weight = 0) (x : Int) : s.CountsOn (s.feedOne n x).2 := by
  unfold State.feedOne
  dsimp only
  split
  · exact State.stepTo_countsOn hw rfl
  · exact .refl

/-- The settings before an apply change what a counter steps by, not that it steps. -/
theorem State.underOld_countsOn {f : State → Nat → List (Nat × Int) × State} (hw : (s.source n).weight = 0)
    (hf : s.CountsOn (f s n).2) : s.CountsOn (s.underOld old n f).2 := by
  unfold State.underOld
  dsimp only
  split
  · exact hf
  · exact State.stepTo_countsOn hw rfl

/-- Where no setting has changed, a counter goes on under the present ones. -/
theorem State.underOld_of_same {f : State → Nat → List (Nat × Int) × State} (hregs : old.regs = s.regs)
    (hspn : old.spn = s.spn) : s.underOld old n f = f s n := by
  unfold State.underOld
  exact if_pos (by simp only [State.counter, State.reg, hregs, hspn, and_self])

/-- What the treatment of each counter keeps, the treatment of all keeps. -/
theorem State.eachCounter_induct {f : State → Nat → List (Nat × Int) × State} {p : State → Prop} (h0 : p s)
    (hf : ∀ t, p t → ∀ n < 8, p (f t n).2) : p (s.eachCounter f).2 := by
  unfold State.eachCounter
  exact List.foldlRecOn (List.range 8) _ (motive := fun (acc : List (Nat × Int) × State) => p acc.2) h0
    fun acc hacc n hn => hf acc.2 hacc n (List.mem_range.1 hn)

/-- A counter with no encoder source is not position-locked. -/
theorem State.locked_of_weight (hw : (s.source n).weight = 0) : s.locked n = false := by
  simp [State.locked, hw]

/-- Without encoder sources, captures and new settings, the Spine's tick is its compares, and then counters step. -/
theorem State.spineTick_countsOn (hregs : old.regs = s.regs) (hspn : old.spn = s.spn)
    (hcap : ∀ j < 4, (s.capture j).en = false) (hw : ∀ n < 8, (s.source n).weight = 0)
    (was : BitVec 48) (ev : BitVec 64) (rise fall : Byte) :
    s.compareAll.CountsOn (s.spineTick old was ev rise fall) := by
  have hlock : (s.eachCounter fun t n => t.underOld old n State.lockOne).2 = s := by
    refine State.eachCounter_induct (p := fun t => t = s) rfl ?_
    rintro _ rfl n hn
    rw [State.underOld_of_same hregs hspn, State.lockOne, if_neg (by simp [State.locked_of_weight (hw n hn)])]
  unfold State.spineTick
  simp only [hlock, State.captureTick_of_disabled hcap]
  refine State.eachCounter_induct (p := s.compareAll.CountsOn) .refl fun t ht n hn => ht.trans ?_
  have hwt : (t.source n).weight = 0 := by
    rw [ht.source, State.compareAll_source (by omega)]
    exact hw n hn
  refine State.underOld_countsOn hwt ?_
  rw [State.locked_of_weight hwt]
  exact State.feedOne_countsOn hwt _

/-! ### A tick in which nothing else is due -/

/-- Nothing beside the Spine is due in a tick: no commit, compile or burst, no events of three ticks ago, and the
analogue units are off. -/
structure State.OnlySpine (s : State) : Prop where
  txn : s.bnd.txn ≠ .pending
  analog : s.analog = false
  compile : s.cnv.compile = none
  burst : s.port.burst = none
  late : (s.past[2]?.map Past.lines).getD 0 = 0

/-- Outside Armed and Streaming the device does not stream. -/
theorem State.not_streaming (h : s.analog = false) : (s.pwr.state == .streaming) = false := by
  simp only [State.analog, Bool.or_eq_false_iff] at h
  exact h.2

/-- With the analogue units off the position unit does nothing (R436). -/
theorem State.posTick_of_not_analog (h : s.analog = false) : s.posTick = s := by simp [State.posTick, h]

/-- Without late events the exposure and the flash monitor see nothing, and no timer runs. -/
theorem State.OnlySpine.lateEvents_eq (h : s.OnlySpine) : s.lateEvents = s := by
  have hcarried : ∀ l, s.carried 0 l = false := fun l => by simp [State.carried]
  have hrun : s.running = false := by simp [State.running, State.not_streaming h.analog]
  have htimer : s.freeTrigger.timerTick = s := by simp [State.freeTrigger, State.timerTick, hrun]
  unfold State.lateEvents
  simp only [h.late, hcarried, Bool.false_eq_true, if_false, htimer]

/-- Without a pending transaction no position applies one. -/
theorem State.OnlySpine.atPosition_eq (h : s.OnlySpine) : s.atPosition = s := if_neg fun hp => h.txn hp.1

/-- Without a pending transaction nothing applies. -/
theorem State.OnlySpine.dueApply_eq (h : s.OnlySpine) : s.dueApply = s := if_neg fun hp => h.txn hp.1

/-- The units behind the Spine: only the scrubber's pass grows. -/
theorem State.OnlySpine.afterSpine_eq_passTick (h : s.OnlySpine) :
    (s.atPosition.lateEvents.tempTick.passTick.compileStep).drained.burstStep = s.passTick := by
  have htemp : s.tempTick = s := by simp [State.tempTick, h.analog]
  have hpass : ∃ x, s.passTick = s.setMem x := by
    unfold State.passTick
    split <;> exact ⟨_, rfl⟩
  obtain ⟨x, hx⟩ := hpass
  have hcompile : (s.setMem x).compileStep = s.setMem x := by simp [State.compileStep, h.compile]
  have hdrained : (s.setMem x).drained = s.setMem x := by simp [State.drained, State.not_streaming h.analog]
  have hburst : (s.setMem x).burstStep = s.setMem x := by simp [State.burstStep, h.burst]
  rw [h.atPosition_eq, h.lateEvents_eq, htemp, hx, hcompile, hdrained, hburst]

/-- The units before the Spine: the engines' lands alone move. -/
theorem State.OnlySpine.beforeSpine_frame (h : s.OnlySpine) (he : s.agt.engines = []) (e : Byte × Byte × State)
    (hedges : s.dueApply.injectedLoss.agtDrive.landEdges = e) :
    ∃ a l k, (e.2.2.raiseLands e.1).posTick = { s with agt := a, lines := l, free := k } := by
  have hinj : s.injectedLoss = s := by simp [State.injectedLoss, h.analog]
  rw [h.dueApply_eq, hinj, State.agtDrive, he, List.isEmpty_nil, if_pos rfl] at hedges
  have hfree : ∃ k, e.2.2 = { s.drive with free := k } := by
    rw [← hedges]
    unfold State.landEdges
    dsimp only
    split <;> exact ⟨_, rfl⟩
  obtain ⟨k, hk⟩ := hfree
  have hpos : (e.2.2.raiseLands e.1).posTick = e.2.2.raiseLands e.1 := by
    rw [hk]
    exact State.posTick_of_not_analog h.analog
  rw [hpos, hk]
  exact ⟨_, _, _, rfl⟩

/-- The Spine's tick where nothing else is due: compares, then the steps of counters, then the scrubber. -/
theorem State.OnlySpine.unitTick_eq_passTick (h : s.OnlySpine) (he : s.agt.engines = [])
    (hcap : ∀ j < 4, (s.capture j).en = false) (hw : ∀ n < 8, (s.source n).weight = 0) (ls : BitVec 64) :
    ∃ a l k u, State.CountsOn (State.compareAll { s with agt := a, lines := l, free := k }) u ∧
      s.unitTick ls = u.passTick := by
  unfold State.unitTick
  dsimp only
  generalize hedges : s.dueApply.injectedLoss.agtDrive.landEdges = e
  obtain ⟨a, l, k, ht⟩ := h.beforeSpine_frame he e hedges
  rw [ht]
  have hcounts := State.spineTick_countsOn (s := { s with agt := a, lines := l, free := k }) (old := s) rfl rfl hcap hw
    s.pos.p ls e.1 e.2.1
  refine ⟨a, l, k, _, hcounts, State.OnlySpine.afterSpine_eq_passTick ?_⟩
  obtain ⟨r, f, x, l', hall⟩ := State.compareAll_frame (s := { s with agt := a, lines := l, free := k })
  rw [hcounts.frame, hall]
  exact ⟨h.txn, h.analog, h.compile, h.burst, h.late⟩

/-- The end of a quiet tick: its past and the windows of the engines. -/
theorem State.closeTick_of_quiet (h : s.quiet) :
    ∃ a, s.closeTick = { s with agt := a, past := (s.nowPast :: s.past).take 3 } ∧ a.engines = [] := by
  obtain ⟨-, -, -, -, -, hanalog, htest, -, hpos, hinj, hengines, -⟩ := h
  have hclose : s.posClose = s := by simp [State.posClose, State.holdEvent, State.encHold, State.encLose, hpos, hanalog]
  have hline : ∀ n, s.injLine n = s := fun n => by simp [State.injLine, hanalog, htest]
  have hevents : ∀ ls, s.injEvents ls = s := fun ls => by
    unfold State.injEvents
    refine List.foldlRecOn _ _ (motive := fun t => t = s) rfl ?_
    rintro _ rfl n -
    rw [hline, ite_self]
  have hstop : s.stopNow = s := by simp [State.stopNow, hinj]
  unfold State.closeTick
  simp only [hclose, hevents, hstop, ite_self]
  exact ⟨_, rfl, hengines⟩

/-- A quiet tick opens with the registers as they were, the Spine without its marks, and nothing else due. -/
theorem State.openTick_of_quiet (h : s.quiet) : ∃ t : State,
    s.tick = t.unitTick s.lines ∧ t.OnlySpine ∧ t.agt.engines = [] ∧ t.regs = s.regs ∧ t.spn = s.spn.newTick := by
  obtain ⟨a, hclose, hengines⟩ := State.closeTick_of_quiet h
  obtain ⟨-, hmem, htxn, hcompile, hburst, hanalog, -, -, -, -, -, -, -, -, hpast⟩ := h
  have hlate : (((s.nowPast :: s.past).take 3)[2]?.map Past.lines).getD 0 = 0 := by
    rw [List.getElem?_take, if_pos (by omega), List.getElem?_cons_succ]
    cases hp : s.past[1]? with
    | none => rfl
    | some e => exact (hpast e (List.mem_of_getElem? hp)).1
  unfold State.tick
  rw [hclose]
  dsimp only [State.setClk]
  rw [hmem, List.isEmpty_nil, if_pos rfl]
  refine ⟨_, rfl, ⟨htxn, hanalog, hcompile, hburst, hlate⟩, ?_, rfl, rfl⟩
  simp [State.openTick, State.agtOpen, hengines, Cells.mapEntries]

/-- A new tick keeps which pairs are enabled. -/
theorem Spine.newTick_capture_en (v : Spine) (j : Nat) :
    (Cells.get Capture.init v.newTick.captures j).en = (Cells.get Capture.init v.captures j).en := by
  simp only [Spine.newTick]
  rw [Cells.get_mapEntries fun _ => rfl]
  rfl

/-- A quiet tick is the Spine's: the compares of the state as it is, then the steps of counters, then the scrubber. -/
theorem State.tick_of_quiet (h : s.quiet) (hcap : ∀ j < 4, (s.capture j).en = false)
    (hw : ∀ n < 8, (s.source n).weight = 0) :
    ∃ t u : State, t.regs = s.regs ∧ t.spn = s.spn.newTick ∧ t.compareAll.CountsOn u ∧ s.tick = u.passTick := by
  obtain ⟨t, htick, honly, hengines, hregs, hspn⟩ := State.openTick_of_quiet h
  have hcap' : ∀ j < 4, (t.capture j).en = false := fun j hj => by
    rw [State.capture, hspn, Spine.newTick_capture_en]
    exact hcap j hj
  have hw' : ∀ n < 8, (t.source n).weight = 0 := fun n hn => by
    rw [State.source, State.fld, State.reg, hregs]
    exact hw n hn
  obtain ⟨a, l, k, u, hu, hunit⟩ := honly.unitTick_eq_passTick hengines hcap' hw' s.lines
  exact ⟨{ t with agt := a, lines := l, free := k }, u, hregs, hspn, hu, htick.trans hunit⟩

/-- In a quiet tick a channel that matches shows its match. -/
theorem State.tick_showsMatch (h : s.quiet) (hcap : ∀ j < 4, (s.capture j).en = false)
    (hw : ∀ n < 8, (s.source n).weight = 0) (hm : m < 16) (hmatch : s.matches_ m = true) :
    State.showsMatch m s s.tick := by
  obtain ⟨t, u, hregs, hspn, hcounts, htick⟩ := State.tick_of_quiet h hcap hw
  have hfld : ∀ f i, t.fld f i = s.fld f i := fun f i => by rw [State.fld, State.reg, hregs, State.fld, State.reg]
  have hflag : ∀ f i, t.flag f i = s.flag f i := fun f i => by rw [State.flag, hfld, State.flag]
  have hcounter : ∀ n, t.counter n = s.counter n := fun n => by rw [State.counter, hspn]; rfl
  have hcompare : ∀ j, t.compare j = s.compare j := fun j => by rw [State.compare, hspn]; rfl
  have htm : t.matches_ m = true := by
    simpa only [State.matches_, hflag, hfld, hcounter, hcompare] using hmatch
  have hpass : State.Leaves m u u.passTick := by
    unfold State.passTick
    split
    · exact .of_eq rfl rfl rfl
    · exact .refl
  have hshow := ((State.compareAll_showsMatch hm htm).leaves (by omega) hcounts.leaves).leaves (by omega) hpass
  rw [htick]
  simpa only [State.showsMatch, State.matched, hflag, hfld, hcounter, hcompare] using hshow

end Sys2Proof.Machine
end

section
/-! PROOF.
Compare loads and capture pairs: the statement put together.
-/
namespace Sys2Proof.Machine

/-- Settles O47. Loads by `State.loadCompare_spec`, the tick by `State.tick_showsMatch`, pulses by the equations of
`State.pulseStart` and `State.pulseEnd`. -/
theorem comparesAndCaptures : Obligations.ComparesAndCaptures := by
  unfold Obligations.ComparesAndCaptures
  intro s v k
  refine ⟨fun hlive lost => ?load, fun hq hcap hw => ?tick, ⟨fun hs => ⟨fun hh => ?start, fun hh => ?held⟩,
    fun he => ⟨fun hu ho hh => ?finish, fun hu h => ?idle, fun r o hu hh => ?restart⟩⟩, fun hlive => ?cfg⟩
  case load =>
    have hm : s.fld F.SPN_SEL_CMP < 16 := s.fld_lt F.SPN_SEL_CMP 0
    exact ⟨_, congrArg Host.Outcome.next (State.portWrite_compareLow hlive v lost),
      State.loadCompare_spec _ (by omega) v lost rfl⟩
  case tick =>
    refine ⟨_, by rw [step, hq.1], fun m hm hen hmatch => State.tick_showsMatch hq hcap hw hm ?_⟩
    rcases hmatch with ⟨hmode, hx, heq⟩ | ⟨hmode, hpend, hlt⟩
    · simp [State.matches_, hen, hmode, hx, heq]
    · simp only [State.matches_, hen, hmode, hpend, hlt, if_true, Bool.true_and, decide_true]
  case start =>
    exact ⟨_, congrArg Host.Outcome.next (State.pulseStart_of_free hs hh), rfl, State.capture_setCapture _⟩
  case held =>
    obtain ⟨f, hf⟩ := State.putCapture_frame (s := s) (k := k.val) _ true false
    exact ⟨_, congrArg Host.Outcome.next ((State.pulseStart_of_held hs hh).trans hf), rfl, State.capture_setCapture _⟩
  case finish =>
    obtain ⟨f, hf⟩ := State.putCapture_frame (s := s) (k := k.val) _ _ true
    have hend := State.pulseEnd_of_open he hu ho hh
    rw [hf] at hend
    exact ⟨_, congrArg Host.Outcome.next hend, rfl, State.capture_setCapture _⟩
  case idle =>
    refine ⟨_, congrArg Host.Outcome.next (State.pulseEnd_of_idle he hu h), rfl, fun j => ?_⟩
    rw [State.capture_setCapture]
    split
    · next hj => rw [hj]
    · rfl
  case restart =>
    obtain ⟨f, hf⟩ := State.putCapture_frame (s := s) (k := k.val) _ _ true
    have hend := State.pulseEnd_of_started he hu hh
    rw [hf] at hend
    exact ⟨_, congrArg Host.Outcome.next hend, rfl, State.capture_setCapture _⟩
  case cfg =>
    refine ⟨_, congrArg Host.Outcome.next (State.captureWrite_of_live hlive v), rfl, fun j => ?_⟩
    rw [State.writeCaptureCfg, State.capture_setCapture]
    split
    · next hj => rw [hj]
    · rfl

end Sys2Proof.Machine
end

section
/-! PROOF.
The queue and the invariant: every command answers, and every step keeps what `Sound` holds.
-/
namespace Sys2Proof.Machine

variable {q : List Instr} {p : Part} {s : State}

/-- Settles O1. With a command in front, `step` is `exec` by definition. -/
theorem stepRunsFront : Obligations.StepRunsFront := fun _ _ _ => rfl

/-- Every command is answered with a next state; no arm of `exec` faults or refuses. -/
theorem exec_answers (c : Instr) (s : State) : ∃ t, exec c s = .next t := by
  cases c <;> exact ⟨_, rfl⟩

/-- Settles O3. -/
theorem everyCommandAnswers : Obligations.EveryCommandAnswers := exec_answers

/-- What every command keeps, row by row of the opcode table. -/
theorem exec_sound (c : Instr) (h : Sound q p s) : ∃ t, exec c s = .next t ∧ Sound q p t := by
  cases c with
  | nop | regRd | regWr | regRmw | bulkRd | bulkWr | txnBegin | txnCommitImmediate | txnCommitNextLine
  | txnCommitNextFrame | txnCommitAtPosition | txnAbort | eventRd | shutdown | wakeRetry | bstRun =>
    exact ⟨_, rfl, State.packetSlot_sound h⟩
  | registerWrite | softReset | pwrReqStandby | pwrReqArmed | pwrReqDormant | clkLostAck | runStart | runStop
  | defLoad | spnGoRelease | spnGoHalt | counterArm | roundNow | agtStart | agtStep | agtHalt | injCancel =>
    exact ⟨_, rfl, State.hostWrite_sound h⟩
  | clkRefdivWrite | bndWdogEnable | bndWdogKick | legColWindowWrite | counterLoad | compareLoad | tmpTempWrite
  | agtForceHalt | agtInjectPart | agtSelWrite | agtFifoPush | pbXferWrite | pbXferRead | pbXferWriteRead
  | pbXferAbort | pbDataWrite | memFlipMaskWrite | memRawWrite | sltRetireWrite =>
    exact ⟨_, rfl, State.portWrite_sound h⟩
  | auxQPop | agtFifoPop | pbDataPop => exact ⟨_, rfl, State.portRead_sound h⟩
  | injSupplyWarn | injCp1 | injCp2 | injBrownOut | injWakeTimeout | injColophonCrc | injRefclkLoss | injEncLoss
  | injQerr | injIndexSpan | injMacroFail | injWatchdog | injTxnTimeout | injPacketCrc | injOpenWire
  | injAuxQueueFull | injSlotCollision | injTempResult | injTempStale | injBlackStep | injExposureOverrun
  | injLaneFifo | injAgtFlags | injBusArbitration | injBusStuck | injLbist | injAnalogCheck =>
    exact ⟨_, rfl, State.injectRow_sound h⟩
  | shortFrameRead => exact ⟨_, rfl, State.shortRead_sound h⟩
  | shortFrameWrite => exact ⟨_, rfl, State.shortWriteSlot_sound h⟩
  | slotBegin => exact ⟨_, rfl, State.slotBegin_sound h⟩
  | slotEnd => exact ⟨_, rfl, State.slotEnd_sound h⟩
  | respReady => exact ⟨_, rfl, State.respReady_sound h⟩
  | readClear => exact ⟨_, rfl, Sound.ite (fun _ => State.portRead_sound h) fun _ => h⟩
  | wakeSupplyWaitEnd => exact ⟨_, rfl, State.supplyWaitEnd_sound h⟩
  | wakeStepDone => exact ⟨_, rfl, State.stepCompletes_sound h⟩
  | wakeStepTimeout => exact ⟨_, rfl, State.stepTimesOut_sound h⟩
  | finishStage => exact ⟨_, rfl, State.finishStage_sound h⟩
  | startupRecordRead => exact ⟨_, rfl, State.startRead_sound h⟩
  | por => exact ⟨_, rfl, State.por_sound h⟩
  | porRelease => exact ⟨_, rfl, State.porRelease_sound h⟩
  | bor => exact ⟨_, rfl, State.bor_sound h⟩
  | borRelease => exact ⟨_, rfl, State.borRelease_sound h⟩
  | pinReset => exact ⟨_, rfl, State.pinReset_sound h⟩
  | resetNRelease => exact ⟨_, rfl, State.resetNRelease_sound h⟩
  | faultReset => exact ⟨_, rfl, State.faultReset_sound h⟩
  | supplyWarn => exact ⟨_, rfl, State.supplyWarn_sound h⟩
  | supplyWarnDeassert => exact ⟨_, rfl, State.supplyReturns_sound h⟩
  | dipHoldEnd => exact ⟨_, rfl, State.holdEnd_sound h⟩
  | cpDroop => exact ⟨_, rfl, State.realDroop_sound h⟩
  | clkRelocked => exact ⟨_, rfl, State.relocked_sound h⟩
  | relockTimeout => exact ⟨_, rfl, State.relockTimeout_sound h⟩
  | refclkMissing | refclkFrequencyLoss => exact ⟨_, rfl, State.refclkLoss_sound h⟩
  | refPresent => exact ⟨_, rfl, State.refReturned_sound h⟩
  | bndTxnTmoExpiry => exact ⟨_, rfl, State.txnTimeout_sound h⟩
  | txnApply => exact ⟨_, rfl, State.applyDue_sound h⟩
  | bankSyncStart => exact ⟨_, rfl, State.syncStart_sound h⟩
  | bankSyncDone => exact ⟨_, rfl, State.syncDone_sound h⟩
  | bndWdogExpiry => exact ⟨_, rfl, State.wdogExpiry_sound h⟩
  | streamDrained => exact ⟨_, rfl, State.drained_sound h⟩
  | freeRunExpiry => exact ⟨_, rfl, State.freeRun_sound h⟩
  | trigger => exact ⟨_, rfl, State.trigger_sound h⟩
  | exposureEnd => exact ⟨_, rfl, State.exposureEnd_sound h⟩
  | legacyEndEvent => exact ⟨_, rfl, State.legacyEnd_sound h⟩
  | subExposureStart => exact ⟨_, rfl, State.subStart_sound h⟩
  | pairConversionEnd => exact ⟨_, rfl, State.pairEnd_sound h⟩
  | folioHanded => exact ⟨_, rfl, State.handed_sound h⟩
  | markerOrderedSet => exact ⟨_, rfl, State.marker_sound h⟩
  | defCompileDone => exact ⟨_, rfl, State.compileDone_sound h⟩
  | counterStep => exact ⟨_, rfl, Sound.ite (fun _ => h) fun _ => State.countInput_sound h⟩
  | capturePulseStart => exact ⟨_, rfl, State.pulseStart_sound h⟩
  | capturePulseEnd => exact ⟨_, rfl, State.pulseEnd_sound h⟩
  | captureCfgWrite => exact ⟨_, rfl, State.captureWrite_sound h⟩
  | encEdge => exact ⟨_, rfl, State.atPosition_sound (State.encLevels_sound h)⟩
  | encZ => exact ⟨_, rfl, Sound.ite (fun _ => State.atPosition_sound (State.encZ_sound h)) fun _ => h⟩
  | posPreset => exact ⟨_, rfl, State.presetWrite_sound h⟩
  | encHold => exact ⟨_, rfl, Sound.ite (fun _ => State.atPosition_sound (State.encHold_sound h)) fun _ => h⟩
  | encLost => exact ⟨_, rfl, Sound.ite (fun _ => State.atPosition_sound (State.encLose_sound h)) fun _ => h⟩
  | encRelocked => exact ⟨_, rfl, State.atPosition_sound (State.encRelocked_sound h)⟩
  | auxRoundTimer => exact ⟨_, rfl, State.askRound_sound h⟩
  | auxSlotStart => exact ⟨_, rfl, State.startSlot_sound h⟩
  | auxInjTrigger => exact ⟨_, rfl, State.injLine_sound h⟩
  | auxInjRequest => exact ⟨_, rfl, State.injRequest_sound h⟩
  | auxFlashStop => exact ⟨_, rfl, State.flashStop_sound h⟩
  | auxRefSettled => exact ⟨_, rfl, State.refSettled_sound h⟩
  | auxConversionEnd => exact ⟨_, rfl, State.conversionEnd_sound h⟩
  | tempStale => exact ⟨_, rfl, State.tempStale_sound h⟩
  | agtCycle => exact ⟨_, rfl, State.engineCycle_sound (State.atPins_sound h)⟩
  | agtWaitLimit => exact ⟨_, rfl, State.waitLimit_sound (State.atPins_sound h)⟩
  | agtInjectedRow => exact ⟨_, rfl, State.injectedRow_sound (State.atPins_sound h)⟩
  | pbBusFree => exact ⟨_, rfl, State.afterBus_sound (State.busFree_sound h)⟩
  | pbArbLost => exact ⟨_, rfl, State.afterBus_sound (State.arbLost_sound h)⟩
  | pbBackoffEnd => exact ⟨_, rfl, State.afterBus_sound (State.backoffEnd_sound h)⟩
  | pbArbSr => exact ⟨_, rfl, State.afterBus_sound (State.arbSr_sound h)⟩
  | pbDone => exact ⟨_, rfl, State.afterBus_sound (State.busDone_sound h)⟩
  | pbAckPoll => exact ⟨_, rfl, State.afterBus_sound (State.pollEnd_sound h)⟩
  | pbBusRecovery => exact ⟨_, rfl, State.afterBus_sound (State.recovered_sound h)⟩
  | sclStuck => exact ⟨_, rfl, State.afterBus_sound (State.sclStuck_sound h)⟩
  | pbTargetWrite => exact ⟨_, rfl, State.targetWrite_sound h⟩
  | pbTargetRead => exact ⟨_, rfl, State.targetRead_sound h⟩
  | pbTargetPointer => exact ⟨_, rfl, State.targetPointer_sound h⟩
  | pbTargetStop => exact ⟨_, rfl, State.targetStop_sound h⟩
  | scrubVisit => exact ⟨_, rfl, State.scrubVisit_sound h⟩
  | correctedWriteback => exact ⟨_, rfl, State.writeBack_sound h⟩
  | testStepEnd => exact ⟨_, rfl, State.testStep_sound h⟩
  | injDurationEnd => exact ⟨_, rfl, State.injEnd_sound h⟩

/-- Canonical contents and queues within their sizes are what `Sound` holds beside the queue and the member. -/
theorem Sound.of_canonical (hc : s.canonical = true) (hb : s.bounded = true) : Sound s.pending s.part s := by
  simp only [State.canonical, State.bounded, Bool.and_eq_true, decide_eq_true_eq] at hc hb
  obtain ⟨⟨hev, hst⟩, hq⟩ := hb
  exact ⟨rfl, rfl, hc.1, hc.2, hev, hst, hq⟩

theorem Sound.canonical (h : Sound q p s) : s.canonical = true :=
  Bool.and_eq_true_iff.2 ⟨h.regs, h.mem⟩

theorem Sound.bounded (h : Sound q p s) : s.bounded = true := by
  simp [State.bounded, h.events, h.staged, h.queue]

/-- A queue shortened from outside leaves the rest of what `Sound` holds. -/
theorem Sound.withPending {r : List Instr} (h : Sound q p s) : Sound r p { s with pending := r } :=
  ⟨rfl, h.part, h.regs, h.mem, h.events, h.staged, h.queue⟩

/-- A step with the command `c` in front takes it off the queue and keeps the rest and the member. -/
theorem step_sound {c : Instr} {rest : List Instr} (hp : s.pending = c :: rest) (h : Sound q p s) :
    ∃ t, step s = .next t ∧ Sound rest p t := by
  unfold step
  rw [hp]
  exact exec_sound c h.withPending

/-- Settles O4. -/
theorem stepTakesOneCommand : Obligations.StepTakesOneCommand := by
  unfold Obligations.StepTakesOneCommand
  intro c rest s hp hc hb
  obtain ⟨t, ht, h⟩ := step_sound hp (Sound.of_canonical hc hb)
  exact ⟨t, ht, h.pending, h.part⟩

/-- Settles O5. With a command in front by `exec_sound`, on an empty queue by `State.tick_sound`. -/
theorem stepKeepsInvariant : Obligations.StepKeepsInvariant := by
  unfold Obligations.StepKeepsInvariant
  intro s t hc hb hst
  have h := Sound.of_canonical hc hb
  cases hp : s.pending with
  | nil =>
    have ht : t = s.tick := by simpa [step, hp] using hst.symm
    exact ht ▸ ⟨(State.tick_sound h).canonical, (State.tick_sound h).bounded⟩
  | cons c rest =>
    obtain ⟨u, hu, hs⟩ := step_sound hp h
    obtain rfl : u = t := by simpa [hu] using hst
    exact ⟨hs.canonical, hs.bounded⟩

/-- The registers after reset, instance by instance, are the Reset columns'. -/
theorem State.reset_regs : State.reset.regs = buildRegs (resetWord .nl2612 0 false) := rfl

/-- A register instance after reset holds the value of its Reset column. -/
theorem State.reset_reg {a i : Nat} (h : (a, i) ∈ allRegs) :
    State.reset.reg a i = BitVec.ofNat 16 (resetWord .nl2612 0 false a i) := by
  unfold State.reg
  rw [State.reset_regs, get_buildRegs _ h]

/-- Settles O6. The registers by `buildRegs_wf`, every memory and queue empty. -/
theorem resetInvariant : Obligations.ResetInvariant := by
  refine ⟨Bool.and_eq_true_iff.2 ⟨?_, State.reset_mem_wf⟩, rfl, rfl, rfl⟩
  rw [State.reset_regs]
  exact buildRegs_wf _

/-- A field after reset, from the value of its register's Reset column. -/
theorem State.reset_fld {f : Field} {i : Nat} (h : (f.addr, i) ∈ allRegs) :
    State.reset.fld f i = f.of (BitVec.ofNat 16 (resetWord .nl2612 0 false f.addr i)) := by
  unfold State.fld
  rw [State.reset_reg h]

/-- Settles O7. The units by their definition, the registers by their Reset columns (`State.reset_reg`). -/
theorem resetValues : Obligations.ResetValues := by
  unfold Obligations.ResetValues
  refine ⟨rfl, rfl, rfl, rfl, rfl, rfl, rfl, rfl, rfl, rfl, rfl, ?_, ?_, fun q hq => ?_, fun m hm => ?_, ?_, ?_, ?_⟩
  · rw [State.reset_reg (mem_allRegs.2 (by decide))]; decide
  · rw [State.reset_reg (mem_allRegs.2 (by decide))]; decide
  · rw [State.reset_reg (mem_allRegs.2 ⟨by decide, by decide, hq⟩)]
    decide +revert
  · rw [State.reset_fld (mem_allRegs.2 ⟨by decide, by decide, hm⟩)]
    decide +revert
  · rw [State.reset_fld (mem_allRegs.2 (by decide))]; decide
  · rw [State.reset_fld (mem_allRegs.2 (by decide))]; decide
  · rw [State.reset_reg (mem_allRegs.2 (by decide))]; decide

end Sys2Proof.Machine
end

section
/-! PROOF.
Packets of one command: reads of the event log, and the transaction's begin and commit.
-/
namespace Sys2Proof.Machine

variable {s : State} {p : Packet}

/-- A packet of one command whose effect, but for the port, leaves `u`: it is answered, and only LAST_SEQ and the port
change beside. -/
theorem State.packetSlot_exec (h : s.portFree p = true) (hburst : p.isBurst = false) {lost : BitVec 32} {st : Nat}
    {d : List Byte} {u : State} (hx : s.slotBegin.execPacket p (lost.getLsbD 0) = ⟨st, d, u.setPort s.slotBegin.port⟩)
    (hr : (p.writes && u.resetting) = false) (hf : u.mem.failing = [])
    (hd : ¬(p.opcode = 0x8A ∧ u.pwr.state = .dormant)) :
    (s.packetSlot p lost).answers p st d ∧
    s.packetSlot p lost = { u with regs := (s.packetSlot p lost).regs, port := (s.packetSlot p lost).port } ∧
    u.regsKept (s.packetSlot p lost) [(F.CP_STATUS_LAST_SEQ, 0)] := by
  have hexec : s.slotBegin.execOne p lost = ⟨st, d, u.setPort s.slotBegin.port⟩ := by
    rw [State.execOne, hburst, if_neg Bool.false_ne_true, hx]
  obtain ⟨hans, hframe, hkept⟩ := State.packetSlot_spec (undo := []) h (by simp [hburst]) hexec hr hf hd
    (State.slotBegin_undo h).symm
  exact ⟨hans, hframe, State.regsKept_trans (State.regsKept_of_regs rfl rfl) hkept⟩

/-- A register of which nothing is listed is kept. -/
theorem State.regsKept.reg_eq {t : State} {l : List (Field × Nat)} {a i : Nat} (h : s.regsKept t l) (hi : i < 256)
    (hl : ∀ x ∈ l, x.1.addr = a → x.2 ≠ i) : t.reg a i = s.reg a i :=
  BitVec.eq_of_getLsbD_eq fun b _ => (h a i b hi fun ⟨x, hx, ha, hxi, _⟩ => hl x hx ha hxi).1

/-- No store has failed where the port is free. -/
theorem State.portFree_failing (h : s.portFree p = true) : s.mem.failing = [] := (State.portFree_iff.1 h).2.1

/-- Settles O15. The packet leaves the state with the entries read dropped. -/
theorem eventRdAnswers : Obligations.EventRdAnswers := by
  unfold Obligations.EventRdAnswers
  intro flags addr len s p h
  obtain ⟨x, hbegin⟩ := State.portFree_begin h
  let u : State := if flags.getLsbD 7 then s else
    { s with flt := { s.flt with events := s.flt.events.drop (len.toNat / 8) } }
  have hu : u = { s with flt := { s.flt with
      events := if flags.getLsbD 7 then s.flt.events else s.flt.events.drop (len.toNat / 8) } } := by
    show (if _ then _ else _) = _
    split <;> rfl
  have hexec : s.slotBegin.execPacket p false =
      ⟨Status.ok, (s.flt.events.take (len.toNat / 8)).flatMap Event.bytes, u.setPort s.slotBegin.port⟩ := by
    show s.slotBegin.eventRead len.toNat (flags.getLsbD 7) = _
    rw [hbegin, hu]
    unfold State.eventRead
    cases flags.getLsbD 7 <;> rfl
  obtain ⟨hans, hframe, hkept⟩ := State.packetSlot_exec (lost := 0) h rfl hexec rfl
    (by rw [hu]; exact State.portFree_failing h) (by show ¬(0x89 = 0x8A ∧ _); simp)
  rw [hu] at hframe hkept
  have hflt : (s.packetSlot p 0).flt = { s.flt with
      events := if flags.getLsbD 7 then s.flt.events else s.flt.events.drop (len.toNat / 8) } := by rw [hframe]
  refine ⟨_, rfl, hans, ?_, State.regsKept_trans (State.regsKept_of_regs rfl rfl) hkept, hflt⟩
  rw [hflt]
  exact hframe

/-! ### Transactions (Table 06-6) -/

/-- TXN_BEGIN sees the Bindery alone, and changes nothing else. -/
theorem State.txnBegin_of_bnd {t : State} (h : t.bnd = s.bnd) :
    t.txnBegin = (s.txnBegin.1, t.setBnd s.txnBegin.2.bnd) := by
  unfold State.txnBegin
  rw [h]
  cases s.bnd.txn
  case idle | timedOut => rfl
  all_goals (rw [← h]; rfl)

/-- Settles O16. The packet changes the Bindery as `State.txnBegin` does. -/
theorem txnBegins : Obligations.TxnBegins := by
  unfold Obligations.TxnBegins
  intro flags addr s p h
  obtain ⟨c, hbegin⟩ := State.portFree_begin h
  have hexec : s.slotBegin.execPacket p false =
      ⟨s.txnBegin.1, [], s.slotBegin.setBnd s.txnBegin.2.bnd⟩ :=
    congrArg Answer.of (State.txnBegin_of_bnd (by rw [hbegin]; rfl))
  obtain ⟨hans, hframe, hkept⟩ := State.packetSlot_setBnd (lost := 0) h rfl rfl (show 0x86 ≠ 0x8A by decide) hexec
  have hbnd : (s.packetSlot p 0).bnd = s.txnBegin.2.bnd := by rw [hframe]
  refine ⟨_, rfl, by rw [hbnd]; exact hframe, hkept, ?_⟩
  rw [hbnd]
  unfold State.txnBegin at hans ⊢
  cases hs : s.bnd.txn <;> rw [hs] at hans <;> exact ⟨hans, rfl⟩

/-- Bytes appended to a number, most significant first. -/
theorem foldl_bytesBE (k : Nat) : ∀ a n : Nat,
    (bytesBE k n).foldl (fun a b => a * 256 + b.toNat) a = a * 256 ^ k + n % 256 ^ k := by
  induction k with
  | zero => simp [bytesBE, Nat.mod_one]
  | succ k ih =>
    intro a n
    rw [bytesBE, List.foldl_cons, ih, BitVec.toNat_ofNat]
    have hn : n % 256 ^ (k + 1) = n % 256 ^ k + 256 ^ k * (n / 256 ^ k % 256) := by
      rw [Nat.pow_succ, Nat.mod_mul]
    rw [hn, show (2 : Nat) ^ 8 = 256 from rfl]
    ring

/-- Bytes spell the number that they were made from. -/
theorem natBE_bytesBE {k n : Nat} (h : n < 256 ^ k) : natBE (bytesBE k n) = n := by
  rw [natBE, foldl_bytesBE, Nat.mod_eq_of_lt h]
  omega

/-- A 48-bit value in its three parts, put together again. -/
theorem join48_part48 (v : BitVec 48) : join48 (BitVec.ofNat 16 (part48 v 0)) (BitVec.ofNat 16 (part48 v 1))
    (BitVec.ofNat 16 (part48 v 2)) = v := by
  apply BitVec.eq_of_toNat_eq
  simp only [join48, part48, BitVec.toNat_ofNat]
  omega

/-- A commit at a point that needs no position is PENDING for that point. -/
theorem State.commitOpen_of_ne {point : ApplyPoint} (h : point ≠ .atPosition) (target : BitVec 48) :
    s.commitOpen point target = (Status.ok, s.setBnd { s.bnd with txn := .pending, point := point }) := by
  cases point with
  | atPosition => exact absurd rfl h
  | _ => rfl

/-- A commit in OPEN at a point that needs no position: the transaction is PENDING for that point. -/
theorem State.packetSlot_commit {flags : Byte} {addr : BitVec 32} (hopen : s.bnd.txn = .open_)
    (haddr : addr.toNat / 4 = 0) (hpoint : pointOf addr.toNat ≠ .atPosition)
    (h : s.portFree (dataPacket 0x87 flags addr []) = true) :
    let p := dataPacket 0x87 flags addr []
    (s.packetSlot p 0).answers p Status.ok [] ∧
    s.packetSlot p 0 = { s with
      regs := (s.packetSlot p 0).regs, port := (s.packetSlot p 0).port
      bnd := { s.bnd with txn := .pending, point := pointOf addr.toNat } } ∧
    s.regsKept (s.packetSlot p 0) [(F.CP_STATUS_LAST_SEQ, 0)] := by
  obtain ⟨x, hbegin⟩ := State.portFree_begin h
  refine State.packetSlot_setBnd h rfl rfl (show 0x87 ≠ 0x8A by decide) ?_
  show s.slotBegin.commitPacket _ = _
  rw [hbegin, State.commitPacket, if_neg (by rintro ⟨-, hn⟩; exact hn haddr), State.txnCommit]
  simp only [State.setPort_bnd, hopen]
  exact congrArg Answer.of (State.commitOpen_of_ne hpoint _)

/-- The target of an AT_POSITION commit stored in BND_TARGET. -/
def State.withTarget (s : State) (v : BitVec 48) : State :=
  ((s.setReg R.BND_TARGET_HI (BitVec.ofNat 16 (part48 v 0))).setReg R.BND_TARGET_MID
    (BitVec.ofNat 16 (part48 v 1))).setReg R.BND_TARGET_LO (BitVec.ofNat 16 (part48 v 2))

/-- The target stored is read back. -/
theorem State.withTarget_join (v : BitVec 48) : join48 ((s.withTarget v).reg R.BND_TARGET_HI)
    ((s.withTarget v).reg R.BND_TARGET_MID) ((s.withTarget v).reg R.BND_TARGET_LO) = v := by
  have hhi : (s.withTarget v).reg R.BND_TARGET_HI = BitVec.ofNat 16 (part48 v 0) := by
    rw [State.withTarget, State.reg_setReg_ne _ _ (by decide), State.reg_setReg_ne _ _ (by decide), State.reg_setReg]
  have hmid : (s.withTarget v).reg R.BND_TARGET_MID = BitVec.ofNat 16 (part48 v 1) := by
    rw [State.withTarget, State.reg_setReg_ne _ _ (by decide), State.reg_setReg]
  have hlo : (s.withTarget v).reg R.BND_TARGET_LO = BitVec.ofNat 16 (part48 v 2) := State.reg_setReg ..
  rw [hhi, hmid, hlo]
  exact join48_part48 v

/-- Storing the target writes BND_TARGET alone. -/
theorem State.withTarget_kept (v : BitVec 48) : s.regsKept (s.withTarget v)
    [(F.CP_STATUS_LAST_SEQ, 0), (Field.word R.BND_TARGET_HI, 0), (Field.word R.BND_TARGET_MID, 0),
      (Field.word R.BND_TARGET_LO, 0)] :=
  State.regsKept_trans (State.regsKept_setReg (by decide) (by simp)) (State.regsKept_trans
    (State.regsKept_setReg (by decide) (by simp)) (State.regsKept_setReg (by decide) (by simp)))

/-- The registers and the Bindery that a commit at a position leaves, and its status. -/
def State.commitAt (s : State) (v : BitVec 48) : Nat × State :=
  if s.pos.ref = false then (Status.needsRef, s)
  else if s.ahead v = false then (Status.txnPast, s)
  else (Status.ok, (s.withTarget v).setBnd { s.bnd with
    txn := .pending, point := .atPosition, below := decide (0 < delta48 s.pos.p v) })

/-- A commit at a position does what `commitAt` says, whatever the port holds. -/
theorem State.setPort_commitOpen (x : Port) (v : BitVec 48) :
    (s.setPort x).commitOpen .atPosition v = ((s.commitAt v).1, (s.commitAt v).2.setPort x) := by
  show (if (!s.pos.ref) = true then _ else if (!s.ahead v) = true then _ else _) = _
  unfold State.commitAt
  cases s.pos.ref <;> cases s.ahead v <;> rfl

/-- The frame of a commit at a position. -/
theorem State.commitAt_frame (v : BitVec 48) :
    (s.commitAt v).2 = { s with regs := (s.commitAt v).2.regs, bnd := (s.commitAt v).2.bnd } ∧
    s.regsKept (s.commitAt v).2 [(F.CP_STATUS_LAST_SEQ, 0), (Field.word R.BND_TARGET_HI, 0),
      (Field.word R.BND_TARGET_MID, 0), (Field.word R.BND_TARGET_LO, 0)] := by
  unfold State.commitAt
  split_ifs
  · exact ⟨rfl, State.regsKept_refl⟩
  · exact ⟨rfl, State.regsKept_refl⟩
  · exact ⟨rfl, s.withTarget_kept v⟩

/-- Settles O17. The three commits without a position by `State.packetSlot_commit`, the one at a position by
`State.commitAt`. -/
theorem txnCommits : Obligations.TxnCommits := by
  unfold Obligations.TxnCommits
  intro flags target s hopen
  refine ⟨fun h => ⟨_, rfl, State.packetSlot_commit hopen rfl (by decide) h⟩,
    fun h => ⟨_, rfl, State.packetSlot_commit hopen rfl (by decide) h⟩,
    fun h => ⟨_, rfl, State.packetSlot_commit hopen rfl (by decide) h⟩, ?_⟩
  intro d p h
  obtain ⟨x, hbegin⟩ := State.portFree_begin h
  obtain ⟨hframe, hkept⟩ := s.commitAt_frame target
  have hnat : BitVec.ofNat 48 (natBE d) = target := by
    rw [natBE_bytesBE (show target.toNat < 256 ^ 6 from target.isLt), BitVec.ofNat_toNat, BitVec.setWidth_eq]
  have hexec : s.slotBegin.execPacket p false =
      ⟨(s.commitAt target).1, [], (s.commitAt target).2.setPort s.slotBegin.port⟩ := by
    show s.slotBegin.commitPacket _ = _
    rw [hbegin, State.commitPacket, if_neg (by exact fun hn => hn.2 (show (3 : BitVec 32).toNat / 4 = 0 by decide)), State.txnCommit]
    simp only [State.setPort_bnd, hopen]
    show Answer.of ((s.setPort x).commitOpen .atPosition (BitVec.ofNat 48 (natBE d))) = _
    rw [hnat, State.setPort_commitOpen]
    rfl
  obtain ⟨hans, hslot, hslotKept⟩ := State.packetSlot_exec (lost := 0) h rfl hexec rfl
    (by rw [hframe]; exact (State.portFree_failing h : s.mem.failing = [])) (by show ¬(0x87 = 0x8A ∧ _); simp)
  have hbnd : (s.packetSlot p 0).bnd = (s.commitAt target).2.bnd := by rw [hslot]
  refine ⟨_, rfl, ?_, State.regsKept_trans hkept (State.regsKept_mono hslotKept (by simp)), fun hr => ?_,
    fun hr ha => ?_, fun hr ha => ?_⟩
  · rw [hbnd]
    rw [hframe] at hslot
    exact hslot
  · rw [State.commitAt, if_pos hr] at hans hbnd
    exact ⟨hans, hbnd⟩
  · rw [State.commitAt, if_neg (by simp [hr]), if_pos ha] at hans hbnd
    exact ⟨hans, hbnd⟩
  · rw [State.commitAt, if_neg (by simp [hr]), if_neg (by simp [ha])] at hans hbnd hslotKept
    refine ⟨hans, by rw [hbnd]; rfl, by rw [hbnd]; rfl, by rw [hbnd]; rfl, ?_⟩
    have hreg : ∀ a, a ≠ R.CP_STATUS → (s.packetSlot p 0).reg a = (s.withTarget target).reg a := fun a ha =>
      hslotKept.reg_eq (by decide) (by simpa using fun e => (ha e.symm).elim)
    rw [hreg _ (by decide), hreg _ (by decide), hreg _ (by decide)]
    exact s.withTarget_join target

end Sys2Proof.Machine
end

section
/-! PROOF.
Reads and bursts of registers through the port: what a register shows does not depend on the port beside RESP_READY, and
a burst takes one register after the other.
-/
namespace Sys2Proof.Machine

variable {s : State} {p : Packet}

/-! ### What registers show, whatever the port holds -/

/-- The attention groups see of the port only whether a response is ready. -/
theorem State.attnGroups_setPort {x : Port} (hx : x.ready = s.port.ready) :
    (s.setPort x).attnGroups = s.attnGroups := by
  have hg : ∀ n, (s.setPort x).attnGroup true n = s.attnGroup true n := by
    intro n
    unfold State.attnGroup
    split
    · show (true && s.flag F.CP_CTRL_RDY_ATTN && x.ready || _) = (true && s.flag F.CP_CTRL_RDY_ATTN && s.port.ready || _)
      rw [hx]
      rfl
    all_goals rfl
  unfold State.attnGroups
  simp only [hg]

/-- What a register shows through the port does not depend on the port beside RESP_READY. -/
theorem State.view_setPort {x : Port} (hx : x.ready = s.port.ready) (a i : Nat) :
    (s.setPort x).view .port a i = s.view .port a i := by
  have hl : (s.setPort x).liveBits .port a i = s.liveBits .port a i := by
    unfold State.liveBits
    rw [State.attnGroups_setPort hx]
    rfl
  unfold State.view
  rw [hl]
  rfl

/-- A read that inspects changes nothing. -/
theorem State.readReg_inspect (r : Route) (a : Nat) : (s.readReg r true a).2 = s := by
  unfold State.readReg State.readDirect
  split <;> rfl

/-- A host read that inspects changes nothing. -/
theorem State.hostRead_inspect (r : Route) (a : Nat) : (s.hostRead r true a).2 = s := by
  unfold State.hostRead
  split
  · rfl
  · exact State.readReg_inspect r a

/-- What an inspecting read answers does not depend on the port beside RESP_READY. -/
theorem State.hostRead_setPort {x : Port} (hx : x.ready = s.port.ready) (a : Nat) :
    ((s.setPort x).hostRead .port true a).1 = (s.hostRead .port true a).1 := by
  have hv := State.view_setPort hx
  unfold State.hostRead
  show Prod.fst (if s.pwr.state = .dormant || !s.pwr.rails.vcore then _ else _) = _
  split
  · unfold State.viewOff
    rw [hv]
    rfl
  · unfold State.readReg State.readDirect
    cases aliasAt a with
    | none => exact hv a _
    | some y => exact congrArg y.show (hv y.addr _)

/-! ### Bursts (R180) -/

/-- A burst goes on: its register is accessed, and the response stays in preparation. -/
theorem State.burstNext_more {b : Burst} {st : Nat} {d : List Byte} {u : State} (hr : s.burstAccess b = ⟨st, d, u⟩)
    (hres : (b.packet.writes && u.resetting) = false) (hmore : b.done + 1 < b.packet.len / 2) (hf : u.mem.failing = [])
    (hw : b.packet.wantsResponse = true)
    (hresp : s.port.resp = .empty ∨ s.port.resp = .prep (Response.of b.packet Status.ok []) false) :
    s.burstNext b = u.setPort { u.port with
      burst := some { b with
        done := b.done + 1, status := if b.status = Status.ok then st else b.status, data := b.data ++ d }
      resp := .prep (Response.of b.packet Status.ok []) false } := by
  unfold State.burstNext
  simp only [hr, hres, Bool.false_eq_true, if_false]
  rw [if_pos ⟨hmore, hf⟩]
  simp only [hw, if_true]
  rcases hresp with h | h <;> simp only [h, Response.of]

/-- The last register of a burst: the packet is answered. -/
theorem State.burstNext_last {b : Burst} {st : Nat} {d : List Byte} {u : State} (hr : s.burstAccess b = ⟨st, d, u⟩)
    (hres : (b.packet.writes && u.resetting) = false) (hlast : b.packet.len / 2 ≤ b.done + 1) (hf : u.mem.failing = [])
    (hop : b.packet.opcode < 0x84) (hw : b.packet.wantsResponse = true)
    (hresp : s.port.resp = .empty ∨ s.port.resp = .prep (Response.of b.packet Status.ok []) false) :
    let answer := Response.of b.packet (if b.status = Status.ok then st else b.status) (b.data ++ d)
    s.burstNext b = (u.setFld F.CP_STATUS_LAST_SEQ b.packet.seq).setPort { u.port with
      burst := none, resp := .prep answer false, kept := some (b.packet.bytes, some answer) } := by
  have h4 : (b.packet.opcode == 0x84) = false := by simp; omega
  have h5 : (b.packet.opcode == 0x85) = false := by simp; omega
  unfold State.burstNext
  simp only [hr, hres, Bool.false_eq_true, if_false]
  rw [if_neg (by omega)]
  unfold Answer.finish
  have hres' : ∀ y, (b.packet.writes && (u.setPort y).resetting) = false := fun _ => hres
  simp only [hres', Bool.false_eq_true, if_false]
  rw [if_neg (by
    show ¬((!u.mem.failing.isEmpty || decide (b.packet.opcode = 0x8A) && _) = true)
    rw [hf, decide_eq_false (by omega : b.packet.opcode ≠ 0x8A)]
    simp)]
  simp only [hw, if_true, Bool.true_or, h4, h5, Bool.or_false, State.prepare]
  rcases hresp with h | h <;> simp only [h] <;> rfl

/-! ### Registers read one after the other -/

/-- The words of the first `k` registers that the packet `p` names, as an inspecting read shows them. -/
def State.burstWords (s : State) (p : Packet) (k : Nat) : List Byte :=
  (List.range k).flatMap fun j => wordBytes (s.hostRead .port true (p.reg + j)).1.toNat

/-- `t` is `s` but for its port, with the first `k` registers of the REG_RD `p` read. -/
def State.readingBurst (s : State) (p : Packet) (k : Nat) (t : State) : Prop :=
  ∃ x : Port, t = s.setPort x ∧ x.ready = s.port.ready ∧ x.undo = s.port.undo ∧
    x.burst = some ⟨p, k, Status.ok, s.burstWords p k, 0⟩ ∧ x.resp = .prep (Response.of p Status.ok []) false

/-- The access of register `k`, with the port changed. -/
theorem State.burstAccess_inspect (hop : p.opcode = 0x81) (hi : p.inspect = true) {x : Port}
    (hx : x.ready = s.port.ready) (k : Nat) (d : List Byte) :
    (s.setPort x).burstAccess ⟨p, k, Status.ok, d, 0⟩ =
      ⟨Status.ok, wordBytes (s.hostRead .port true (p.reg + k)).1.toNat, s.setPort x⟩ := by
  unfold State.burstAccess
  simp only [hop, hi, if_true]
  rw [State.hostRead_inspect, State.hostRead_setPort hx]
  rfl

/-- One more register read adds its word. -/
theorem State.burstWords_succ (k : Nat) : s.burstWords p (k + 1) =
    s.burstWords p k ++ wordBytes (s.hostRead .port true (p.reg + k)).1.toNat := by
  simp [State.burstWords, List.range_succ]

/-- A register of a REG_RD read, and another one to come. -/
theorem State.readingBurst.step {t : State} {k : Nat} (h : s.readingBurst p k t) (hop : p.opcode = 0x81)
    (hi : p.inspect = true) (hf : s.mem.failing = []) (hk : k + 1 < p.len / 2) :
    s.readingBurst p (k + 1) t.burstStep := by
  obtain ⟨x, rfl, hready, hundo, hburst, hresp⟩ := h
  have hw : p.wantsResponse = true := by simp [Packet.wantsResponse, hop]
  have hnext := State.burstNext_more (State.burstAccess_inspect hop hi hready k (s.burstWords p k))
    (by simp [Packet.writes, hop]) hk hf hw (.inr hresp)
  have hstep : (s.setPort x).burstStep = (s.setPort x).burstNext ⟨p, k, Status.ok, s.burstWords p k, 0⟩ := by
    unfold State.burstStep
    simp only [State.setPort_port, hburst]
  rw [hstep, hnext]
  exact ⟨_, rfl, hready, hundo, by rw [State.burstWords_succ]; rfl, rfl⟩

/-- Registers of a REG_RD read, and another one to come. -/
theorem State.readingBurst.steps {k : Nat} (hop : p.opcode = 0x81) (hi : p.inspect = true) (hf : s.mem.failing = [])
    (j : Nat) : ∀ {t : State}, s.readingBurst p k t → k + j < p.len / 2 →
      s.readingBurst p (k + j) (State.burstStep^[j] t) := by
  induction j with
  | zero => exact fun h _ => h
  | succ j ih =>
    intro t h hk
    rw [Function.iterate_succ_apply']
    exact (ih h (by omega)).step hop hi hf (by omega)

/-- The registers that are left of a REG_RD, read as its response becomes ready. -/
theorem State.readingBurst.respReady {t : State} {k : Nat} (h : s.readingBurst p k t) (hop : p.opcode = 0x81)
    (hi : p.inspect = true) (hf : s.mem.failing = []) (hk : k < p.len / 2) (hc : s.commitDue = false) :
    ∃ x : Port, t.respReady = (s.setFld F.CP_STATUS_LAST_SEQ p.seq).setPort x ∧ x.burst = none ∧
      x.resp = .pend (Response.of p Status.ok (s.burstWords p (p.len / 2))) ∧ x.ready = true := by
  obtain ⟨j, hj⟩ : ∃ j, p.len / 2 - k = j + 1 := ⟨p.len / 2 - k - 1, by omega⟩
  have hw : p.wantsResponse = true := by simp [Packet.wantsResponse, hop]
  have hlast := h.steps hop hi hf j (by omega)
  obtain ⟨x, rfl, hready, -, hburst, hresp⟩ := h
  obtain ⟨y, hy, hyready, -, hyburst, hyresp⟩ := hlast
  have hend : (s.setPort x).endBurst = State.burstStep (State.burstStep^[j] (s.setPort x)) := by
    unfold State.endBurst
    simp only [State.setPort_port, hburst, hj]
    rw [List.foldl_const, List.length_range, Function.iterate_succ_apply']
  unfold State.respReady
  rw [State.dueApply_of (s := s.setPort x) hc, hend, hy]
  unfold State.burstStep
  simp only [State.setPort_port, hyburst]
  rw [State.burstNext_last (State.burstAccess_inspect hop hi hyready (k + j) _) (by simp [Packet.writes, hop])
    (by show p.len / 2 ≤ k + j + 1; omega) hf (by show p.opcode < _; omega) hw (.inr hyresp)]
  have hdata : s.burstWords p (k + j) ++ wordBytes (s.hostRead .port true (p.reg + (k + j))).1.toNat =
      s.burstWords p (p.len / 2) := by
    rw [← State.burstWords_succ, show k + j + 1 = p.len / 2 by omega]
  exact ⟨_, rfl, rfl, congrArg (fun d => RespState.pend (Response.of p Status.ok d)) hdata, rfl⟩

/-! ### The packets -/

/-- No store has failed where a packet's slot begins with the port free. -/
theorem State.slotBegin_failing (h : s.portFree p = true) : s.slotBegin.mem.failing = [] := by
  obtain ⟨x, hbegin⟩ := State.portFree_begin h
  rw [hbegin]
  exact (State.portFree_failing h : s.mem.failing = [])

/-- The first register of a REG_RD of several is read in the packet's slot. -/
theorem State.packetSlot_burst (h : s.portFree p = true) (hop : p.opcode = 0x81) (hb : p.isBurst = true)
    (hi : p.inspect = true) (hlen : 1 < p.len / 2) : s.slotBegin.readingBurst p 1 (s.packetSlot p 0) := by
  have hw : p.wantsResponse = true := by simp [Packet.wantsResponse, hop]
  obtain ⟨hans, -, hin, hempty, -⟩ := State.portFree_iff.1 h
  have hbegin := State.slotBegin_free hans hin hempty
  have hacc : s.slotBegin.burstAccess ⟨p, 0, Status.ok, [], 0⟩ = _ :=
    State.burstAccess_inspect (s := s.slotBegin) (x := s.slotBegin.port) hop hi rfl 0 []
  rw [State.packetSlot_free h, if_pos hb, State.burstNext_more hacc (by simp [Packet.writes, hop]) hlen
    (State.slotBegin_failing h) hw (.inl (by rw [hbegin]; exact hempty))]
  exact ⟨_, rfl, rfl, by rw [hbegin]; rfl, rfl, rfl⟩

/-- A REG_RD of one register that inspects: it is answered, and only LAST_SEQ and the port change. -/
theorem State.packetSlot_inspectOne (h : s.portFree p = true) (hop : p.opcode = 0x81) (hb : p.isBurst = true)
    (hi : p.inspect = true) (hlen : p.len / 2 = 1) :
    (s.packetSlot p 0).answers p Status.ok (wordBytes (s.slotBegin.hostRead .port true (p.reg + 0)).1.toNat) ∧
    s.packetSlot p 0 = { s with regs := (s.packetSlot p 0).regs, port := (s.packetSlot p 0).port } ∧
    s.regsKept (s.packetSlot p 0) [(F.CP_STATUS_LAST_SEQ, 0)] := by
  obtain ⟨x, hbegin⟩ := State.portFree_begin h
  have hacc : s.slotBegin.execOne p 0 =
      ⟨Status.ok, wordBytes (s.slotBegin.hostRead .port true (p.reg + 0)).1.toNat, s.slotBegin⟩ := by
    rw [State.execOne, if_pos hb]
    exact State.burstAccess_inspect (s := s.slotBegin) (x := s.slotBegin.port) hop hi rfl 0 []
  obtain ⟨hans, hframe, hkept⟩ := State.packetSlot_spec (undo := []) h (fun _ => by omega) hacc
    (by simp [Packet.writes, hop]) (State.slotBegin_failing h) (by simp [hop]) (State.slotBegin_undo h).symm
  rw [hbegin] at hframe hkept
  exact ⟨hans, hframe, State.regsKept_trans (State.regsKept_of_regs rfl rfl) hkept⟩

/-- A packet without effect beside its answer: only LAST_SEQ and the port change. -/
theorem State.packetSlot_noEffect (h : s.portFree p = true) (hburst : p.isBurst = false) {lost : BitVec 32} {st : Nat}
    {d : List Byte} (hx : s.slotBegin.execPacket p (lost.getLsbD 0) = ⟨st, d, s.slotBegin⟩)
    (hr : (p.writes && s.resetting) = false) (hop : p.opcode ≠ 0x8A) :
    (s.packetSlot p lost).answers p st d ∧
    s.packetSlot p lost = { s with regs := (s.packetSlot p lost).regs, port := (s.packetSlot p lost).port } ∧
    s.regsKept (s.packetSlot p lost) [(F.CP_STATUS_LAST_SEQ, 0)] := by
  obtain ⟨x, hbegin⟩ := State.portFree_begin h
  exact State.packetSlot_exec (u := s) h hburst (by rw [hx, hbegin]; rfl) hr (State.portFree_failing h)
    fun hh => hop hh.1

/-- No reset runs where the port is free for a write. -/
theorem State.portFree_resetting (h : s.portFree p = true) (hop : p.writes = true) : s.resetting = false := by
  obtain ⟨-, -, -, -, -, -, -, -, -, -, hpow⟩ := State.portFree_iff.1 h
  have h81 : p.opcode ≠ 0x81 := by rintro e; simp [Packet.writes, e] at hop
  have h84 : p.readsColophon = false := by
    simp only [Packet.readsColophon, Bool.and_eq_false_iff, beq_eq_false_iff_ne]
    left; rintro e; simp [Packet.writes, e] at hop
  cases hst : s.pwr.state with
  | off | waking => simp [State.powerCheck, hst, h81, h84, Status.busy, Status.ok] at hpow
  | _ => simp [State.resetting, hst]

/-- Settles O9. The packet is no burst, and `execPacket` refuses it. -/
theorem burstRangeRefused : Obligations.BurstRangeRefused := by
  unfold Obligations.BurstRangeRefused
  intro flags addr n d lost s hrange hn hn32 hd
  have hlen : (BitVec.ofNat 16 (2 * n)).toNat = 2 * n := by rw [BitVec.toNat_ofNat]; omega
  refine ⟨fun h => ⟨_, rfl, State.packetSlot_noEffect h ?_ rfl rfl (show 0x81 ≠ 0x8A by decide)⟩,
    fun h => ⟨_, rfl, State.packetSlot_noEffect h ?_ rfl (by rw [State.portFree_resetting h rfl]; rfl)
      (show 0x82 ≠ 0x8A by decide)⟩⟩
  · show (_ && decide (addr.toNat + (BitVec.ofNat 16 (2 * n)).toNat / 2 ≤ 0x100)) = false
    rw [hlen, decide_eq_false (by omega), Bool.and_false]
  · show (_ && decide (addr.toNat + d.length / 2 ≤ 0x100)) = false
    rw [hd, decide_eq_false (by omega), Bool.and_false]

/-- Settles O8. NOP has no effect; a burst is read register by register (`State.readingBurst`). -/
theorem nopAndReadsAnswer : Obligations.NopAndReadsAnswer := by
  unfold Obligations.NopAndReadsAnswer
  refine ⟨?_, ?_⟩
  · intro flags addr len s p h
    exact ⟨_, rfl, State.packetSlot_noEffect h rfl rfl rfl (show 0x80 ≠ 0x8A by decide)⟩
  intro flags addr n s p word hn hn32 hrange hins h
  have hlen : p.len = 2 * n := by
    show (BitVec.ofNat 16 (2 * n)).toNat = 2 * n
    rw [BitVec.toNat_ofNat]; omega
  have hburst : p.isBurst = true := by
    show (_ && decide (addr.toNat + p.len / 2 ≤ 0x100)) = true
    rw [hlen, decide_eq_true (by omega)]; rfl
  obtain ⟨x, hbegin⟩ := State.portFree_begin h
  obtain ⟨-, -, -, -, -, hcommit, -⟩ := State.portFree_iff.1 h
  constructor
  · rintro rfl
    exact ⟨_, rfl, State.packetSlot_inspectOne h rfl hburst hins (by rw [hlen])⟩
  · intro hne
    have hreading := State.packetSlot_burst h rfl hburst hins (by omega)
    obtain ⟨y, hy, hburstEnd, hresp, hready⟩ := hreading.respReady rfl hins (State.slotBegin_failing h)
      (by omega) (by rw [hbegin]; exact hcommit)
    obtain ⟨z, hz, -, -, hzburst, hzresp⟩ := hreading
    have hwords : ∀ k, s.slotBegin.burstWords p k = (List.range k).flatMap word := fun _ => rfl
    refine ⟨_, _, rfl, ?_, ?_, ?_, rfl, ?_, ?_, ?_, ?_, ?_, ?_⟩
    · rw [hz, hbegin]; rfl
    · rw [hz, State.setPort_port, hzburst, hwords]; simp
    · rw [hz]; exact hzresp
    · rw [hy, hbegin]; rfl
    · rw [hy]; exact hburstEnd
    · rw [hy, State.setPort_port, hresp, hwords, hlen]; simp
    · rw [hy]; exact hready
    · rw [hy]
      exact (State.fld_setFld s.slotBegin (by decide) (by decide) _ _).trans (Nat.mod_eq_of_lt p.seq_lt)
    · rw [hy, hbegin]
      exact State.regsKept_setFld (s := s) (by decide) (by decide) (by decide) (by simp)

end Sys2Proof.Machine
end

section
/-! PROOF.
Register writes by the host: the routes in a live state, registers whose write only stores, and reads that clear.
-/
namespace Sys2Proof.Machine

variable {s : State} {p : Packet}

/-! ### The port in a live state -/

/-- The parts of `State.live`. -/
theorem State.live_iff : s.live = true ↔ s.up = true ∧ s.commitDue = false ∧ s.pwr.mute = false := by
  simp [State.live, and_assoc]

/-- In a live state a write by the port is the register's write. -/
theorem State.hostWrite_of_live (h : s.live = true) (a : Nat) (v m : Word) (lost : Bool) :
    s.hostWrite .port a v m lost = (s.writeMasked .port a v m lost).2 := by
  obtain ⟨hup, hdue, hmute⟩ := State.live_iff.1 h
  have hopen : s.writeOpen .port a = true := by simp [State.writeOpen, hup, hmute]
  rw [State.hostWrite, if_pos hopen, State.dueApply_of hdue]
  exact if_neg fun hh => nomatch hh.1

/-- In a live state a write of a whole register by the port is the register's write. -/
theorem State.portWrite_of_live (h : s.live = true) (a : Nat) (v : Word) (lost : Bool) :
    s.portWrite a v lost = (s.writeMasked .port a v 0xFFFF lost).2 :=
  State.hostWrite_of_live h a v 0xFFFF lost

/-! ### Registers whose write only stores -/

/-- What makes a write of a plain register only store. -/
theorem plainRegs_facts : ∀ a ∈ plainRegs, aliasAt a = none ∧ isTrans a = false ∧
    (limits.filter fun x => x.field.addr = a) = [] ∧ accessMask a .rw &&& accessMask a .w1c = 0 ∧ a < 256 := by
  decide +kernel

/-- No limit applies to a plain register. -/
theorem limitWord_plain {a : Nat} (h : a ∈ plainRegs) (w : Word) : limitWord a w = w := by
  rw [limitWord, (plainRegs_facts a h).2.2.1]
  rfl

/-- A plain register has one instance. -/
theorem State.selected_plain {a : Nat} (h : a ∈ plainRegs) : s.selected a = 0 := by
  fin_cases h <;> rfl

/-- A write of a plain register stores it. -/
theorem State.writeThrough_plain {a : Nat} (h : a ∈ plainRegs) (v m : Word) (lost : Bool) :
    s.writeThrough a 0 v m lost = (Status.ok, s.storeReg a 0 v m) := by
  fin_cases h <;> rfl

/-- A write of a plain register by either route stores it. -/
theorem State.writeMasked_plain {a : Nat} (h : a ∈ plainRegs) (r : Route) (v m : Word) (lost : Bool) :
    s.writeMasked r a v m lost = (Status.ok, s.storeReg a 0 v m) := by
  obtain ⟨halias, htrans, -⟩ := plainRegs_facts a h
  rw [State.writeMasked, halias]
  show s.writeDirect r a v m lost = _
  rw [State.writeDirect, htrans, if_neg Bool.false_ne_true, State.selected_plain h]
  exact State.writeThrough_plain h v m lost

/-- Every bit of a stored word, by its access code. -/
theorem getLsbD_storedAfter (a : Nat) (old v m : Word) {b : Nat} (hb : b < 16) :
    (storedAfter a old v m).getLsbD b =
      ((old.getLsbD b && !(m.getLsbD b && (accessMask a .rw).getLsbD b) ||
          v.getLsbD b && (m.getLsbD b && (accessMask a .rw).getLsbD b)) &&
        !(v.getLsbD b && m.getLsbD b && (accessMask a .w1c).getLsbD b)) := by
  simp [storedAfter, merge, hb]

/-- What a plain write leaves of every bit (R12, R13, R181, R633). -/
theorem State.getLsbD_storeReg {a : Nat} (h : a ∈ plainRegs) (v m : Word) {b : Nat} (hb : b < 16) :
    ((s.storeReg a 0 v m).reg a).getLsbD b = s.storedBit a v m b := by
  obtain ⟨-, -, -, hdisj, -⟩ := plainRegs_facts a h
  have hd : ((accessMask a .rw).getLsbD b && (accessMask a .w1c).getLsbD b) = false := by
    rw [← BitVec.getLsbD_and, hdisj]; simp
  rw [State.storeReg, State.reg_setReg, limitWord_plain h, getLsbD_storedAfter _ _ _ _ hb]
  unfold State.reaches State.storedBit
  simp only [BitVec.getLsbD_and, BitVec.getLsbD_not, hb, decide_true, Bool.true_and]
  revert hd
  cases (accessMask a .rw).getLsbD b <;> cases (accessMask a .w1c).getLsbD b <;> cases m.getLsbD b <;>
    cases v.getLsbD b <;> simp

/-- A plain write changes its register alone. -/
theorem State.storeReg_kept (a : Nat) {i : Nat} (hi : i < 256) (v m : Word) :
    s.regsKept (s.storeReg a i v m) [(Field.word a, i)] :=
  State.regsKept_setReg hi List.mem_cons_self

/-! ### Transactional registers with no effect beside their value -/

/-- A quiet transactional register has no hook. -/
theorem State.liveHook_quiet {a : Nat} (h : quietTrans a = true) (i : Nat) (old : Word) : s.liveHook a i old = s := by
  simp only [quietTrans, Bool.and_eq_true, Bool.not_eq_true', List.contains_eq_mem, decide_eq_false_iff_not,
    List.mem_cons, List.not_mem_nil, or_false, not_or] at h
  obtain ⟨-, hcfg, -, -, hm, hpos, haux, ht1, ht2, ht3, hp1, hp2⟩ := h
  simp [State.liveHook, hcfg, hm, hpos, haux, ht1, ht2, ht3, hp1, hp2]

end Sys2Proof.Machine
end

section
/-! PROOF.
Packets that write plain registers, and reads that clear counts.
-/
namespace Sys2Proof.Machine

variable {s : State} {p : Packet}

/-! ### REG_WR and REG_RMW of plain registers (R180, R181) -/

@[simp] theorem State.setPort_resetting (x : Port) : (s.setPort x).resetting = s.resetting := rfl
@[simp] theorem State.storeReg_resetting (a i : Nat) (v m : Word) : (s.storeReg a i v m).resetting = s.resetting := rfl

/-- What a plain write leaves of a bit depends on its register and its mark alone. -/
theorem State.storedBit_congr {t : State} {a : Nat} (hreg : t.reg a = s.reg a) (hfresh : t.fresh = s.fresh) (v m : Word)
    (b : Nat) : t.storedBit a v m b = s.storedBit a v m b := by
  unfold State.storedBit State.freshBits
  rw [hreg, hfresh]

@[simp] theorem length_bytesBE (k n : Nat) : (bytesBE k n).length = k := by
  induction k with
  | zero => rfl
  | succ k ih => rw [bytesBE, List.length_cons, ih]

/-- Two bytes of a word are one payload word. -/
theorem payloadWords_bytesBE (v : Word) (d : List Byte) : payloadWords (bytesBE 2 v.toNat ++ d) = v :: payloadWords d := by
  have hv : BitVec.ofNat 16 ((BitVec.ofNat 8 (v.toNat / 256)).toNat * 256 + (BitVec.ofNat 8 v.toNat).toNat) = v := by
    apply BitVec.eq_of_toNat_eq
    have := v.isLt
    simp only [BitVec.toNat_ofNat]
    omega
  show BitVec.ofNat 16 ((BitVec.ofNat 8 (v.toNat / 256 ^ 1)).toNat * 256 +
    (BitVec.ofNat 8 (v.toNat / 256 ^ 0)).toNat) :: payloadWords d = _
  rw [Nat.pow_one, Nat.pow_zero, Nat.div_one, hv]

/-- The access of a plain register by a REG_WR stores it. -/
theorem State.burstAccess_plain {b : Burst} {a : Nat} (ha : a ∈ plainRegs) (hop : b.packet.opcode = 0x82)
    (hreg : b.packet.addr.toNat + b.done = a) {v : Word}
    (hv : (payloadWords b.packet.payload).getD b.done 0 = v) :
    s.burstAccess b = ⟨Status.ok, [0], s.storeReg a 0 v 0xFFFF⟩ := by
  unfold State.burstAccess
  simp only [hop, hreg, hv]
  rw [if_neg (by decide), State.writeReg, State.writeMasked_plain ha]
  rfl

/-- A plain register's address in a packet. -/
theorem toNat_ofNat_plain {a : Nat} (ha : a ∈ plainRegs) : (BitVec.ofNat 32 a).toNat = a := by
  have := (plainRegs_facts a ha).2.2.2.2
  rw [BitVec.toNat_ofNat]
  omega

/-- A packet that stores one plain register: it is answered, and that register, LAST_SEQ and the port change. -/
theorem State.packetSlot_store {a : Nat} (ha : a ∈ plainRegs) (h : s.portFree p = true) (hop : p.writes = true)
    (h1 : p.isBurst = true → p.len / 2 ≤ 1) {lost : BitVec 32} {d : List Byte} {v m : Word}
    (hx : s.slotBegin.execOne p lost = ⟨Status.ok, d, s.slotBegin.storeReg a 0 v m⟩) :
    (s.packetSlot p lost).answers p Status.ok d ∧
    s.packetSlot p lost = { s with regs := (s.packetSlot p lost).regs, port := (s.packetSlot p lost).port } ∧
    (∀ b < 16, ((s.packetSlot p lost).reg a).getLsbD b = s.storedBit a v m b) ∧
    s.regsKept (s.packetSlot p lost) [(F.CP_STATUS_LAST_SEQ, 0), (Field.word a, 0)] := by
  obtain ⟨x, hbegin⟩ := State.portFree_begin h
  have hop8A : p.opcode ≠ 0x8A := by rintro e; simp [Packet.writes, e] at hop
  obtain ⟨hans, hframe, hkept⟩ := State.packetSlot_spec (undo := []) h h1 hx
    (by simp [hbegin, State.portFree_resetting h hop])
    (State.slotBegin_failing h) (fun hh => hop8A hh.1) (State.slotBegin_undo h).symm
  have hne : a ≠ R.CP_STATUS := by rintro rfl; exact absurd ha (by decide)
  have hreg : (s.packetSlot p lost).reg a = (s.slotBegin.storeReg a 0 v m).reg a :=
    hkept.reg_eq (by decide) (by simpa using fun e => (hne e.symm).elim)
  rw [hbegin] at hframe hkept hreg
  refine ⟨hans, hframe, fun b hb => ?_, State.regsKept_trans (State.regsKept_trans (State.regsKept_of_regs rfl rfl)
    (State.regsKept_mono (State.storeReg_kept (s := s.setPort x) a (by decide) v m) (by simp)))
    (State.regsKept_mono hkept (by simp))⟩
  rw [hreg, State.getLsbD_storeReg ha v m hb]
  rfl

/-- Between two registers of one REG_WR: the first is stored, the second waits. -/
theorem State.packetSlot_storeFirst {a : Nat} (ha : a ∈ plainRegs) (h : s.portFree p = true) (hop : p.opcode = 0x82)
    (hb : p.isBurst = true) (hw : p.wantsResponse = true) (hlen : p.len / 2 = 2) (hreg : p.addr.toNat = a) {v : Word}
    (hv : (payloadWords p.payload).getD 0 0 = v) (lost : BitVec 32) :
    ∃ x : Port, s.packetSlot p lost = (s.storeReg a 0 v 0xFFFF).setPort x ∧
      x.burst = some ⟨p, 1, Status.ok, [0], lost⟩ ∧ x.resp = .prep (Response.of p Status.ok []) false := by
  obtain ⟨hans, -, hin, hempty, -⟩ := State.portFree_iff.1 h
  have hbegin := State.slotBegin_free hans hin hempty
  have hacc := State.burstAccess_plain (s := s.slotBegin) (b := ⟨p, 0, Status.ok, [], lost⟩) ha hop (by simpa using hreg) hv
  rw [State.packetSlot_free h, if_pos hb, State.burstNext_more hacc (by
      simp [hbegin, State.portFree_resetting h (by simp [Packet.writes, hop] : p.writes = true)])
    (by show 1 < p.len / 2; omega) (State.slotBegin_failing h) hw (.inl (by rw [hbegin]; exact hempty))]
  exact ⟨_, by rw [hbegin]; rfl, rfl, rfl⟩

/-- The second of two registers, as the response becomes ready. -/
theorem State.respReady_storeLast {a : Nat} (ha : a ∈ plainRegs) (hop : p.opcode = 0x82) (hw : p.wantsResponse = true)
    (hlen : p.len / 2 = 2) (hreg : p.addr.toNat + 1 = a) {v : Word} (hv : (payloadWords p.payload).getD 1 0 = v)
    {lost : BitVec 32} {x : Port} (hburst : x.burst = some ⟨p, 1, Status.ok, [0], lost⟩)
    (hresp : x.resp = .prep (Response.of p Status.ok []) false) (hf : s.mem.failing = [])
    (hres : s.resetting = false) (hc : s.commitDue = false) :
    ∃ y : Port, (s.setPort x).respReady =
        ((s.storeReg a 0 v 0xFFFF).setFld F.CP_STATUS_LAST_SEQ p.seq).setPort y ∧
      y.resp = .pend (Response.of p Status.ok [0, 0]) := by
  have hend : (s.setPort x).endBurst = (s.setPort x).burstNext ⟨p, 1, Status.ok, [0], lost⟩ := by
    unfold State.endBurst
    simp only [State.setPort_port, hburst, hlen]
    show State.burstStep (s.setPort x) = _
    unfold State.burstStep
    simp only [State.setPort_port, hburst]
  have hacc := State.burstAccess_plain (s := s.setPort x) (b := ⟨p, 1, Status.ok, [0], lost⟩) ha hop hreg hv
  unfold State.respReady
  rw [State.dueApply_of (s := s.setPort x) hc, hend, State.burstNext_last hacc (by simp [hres])
    (by show p.len / 2 ≤ 2; omega) hf (by show p.opcode < _; omega) hw (.inr hresp)]
  exact ⟨_, rfl, rfl⟩

/-- Settles O10. One register by `State.packetSlot_store`; of two, the first in the packet's slot and the second as the
response becomes ready. -/
theorem registerPacketsStore : Obligations.RegisterPacketsStore := by
  unfold Obligations.RegisterPacketsStore
  intro flags a v m lost lost1 s ha
  have hlt := (plainRegs_facts a ha).2.2.2.2
  have haddr := toNat_ofNat_plain ha
  refine ⟨?one, ?two, ?modify⟩
  case one =>
    intro d p h
    have hlen : p.len = 2 := length_bytesBE ..
    have hb : p.isBurst = true := by
      show (_ && decide ((BitVec.ofNat 32 a).toNat + p.len / 2 ≤ 0x100)) = true
      rw [haddr, hlen, decide_eq_true (by omega)]; rfl
    refine ⟨_, rfl, State.packetSlot_store (v := v) (m := 0xFFFF) ha h rfl (fun _ => by omega) ?_⟩
    rw [State.execOne, if_pos hb]
    refine State.burstAccess_plain (b := ⟨p, 0, Status.ok, [], lost⟩) ha rfl haddr ?_
    show (payloadWords (bytesBE 2 v.toNat)).getD 0 0 = v
    rw [← List.append_nil (bytesBE 2 v.toNat), payloadWords_bytesBE]
    rfl
  case two =>
    intro ha1 d p hflag h
    have hlt1 := (plainRegs_facts _ ha1).2.2.2.2
    have hlen : p.len / 2 = 2 := by
      show (bytesBE 2 v.toNat ++ bytesBE 2 m.toNat).length / 2 = 2
      simp
    have hb : p.isBurst = true := by
      show (_ && decide ((BitVec.ofNat 32 a).toNat + p.len / 2 ≤ 0x100)) = true
      rw [haddr, hlen, decide_eq_true (by omega)]; rfl
    have hw : p.wantsResponse = true := by
      show (flags.getLsbD 6 || _ || _ || _) = true
      rw [hflag]; rfl
    have hpayload : payloadWords p.payload = [v, m] := by
      show payloadWords (bytesBE 2 v.toNat ++ bytesBE 2 m.toNat) = _
      rw [payloadWords_bytesBE, ← List.append_nil (bytesBE 2 m.toNat), payloadWords_bytesBE]
      rfl
    obtain ⟨-, -, -, -, -, hc, -⟩ := State.portFree_iff.1 h
    obtain ⟨x, hx, hburst, hresp⟩ := State.packetSlot_storeFirst (v := v) ha h rfl hb hw hlen haddr
      (by rw [hpayload]; rfl) lost
    obtain ⟨y, hy, hpend⟩ := State.respReady_storeLast (s := s.storeReg a 0 v 0xFFFF) (v := m) ha1 rfl hw hlen
      (show (BitVec.ofNat 32 a).toNat + 1 = a + 1 by rw [haddr]) (by rw [hpayload]; rfl) hburst hresp
      (State.portFree_failing h : s.mem.failing = []) (State.portFree_resetting h rfl : s.resetting = false) hc
    have hkey : regKey (a + 1) 0 ≠ regKey a 0 := by simp [regKey]
    have hne : a + 1 ≠ R.CP_STATUS := by intro e; exact absurd (e ▸ ha1) (by decide)
    have hkept := s.storeReg_kept a (i := 0) (by decide) v 0xFFFF
    refine ⟨_, _, rfl, by rw [hx]; rfl, fun b hb => ?_, by rw [hx]; exact hkept, rfl, ?_, ?_, ?_, ?_, ?_⟩
    · rw [hx]
      exact State.getLsbD_storeReg ha v 0xFFFF hb
    · rw [hx, hy]; rfl
    · rw [hx, hy]; exact hpend
    · rw [hx, hy]
      exact (State.fld_setFld _ (by decide) (by decide) _ _).trans (Nat.mod_eq_of_lt p.seq_lt)
    · intro b hb
      rw [hx, hy]
      rw [← State.storedBit_congr (t := s.storeReg a 0 v 0xFFFF) (State.reg_setReg_ne _ _ hkey) rfl,
        ← State.getLsbD_storeReg ha1 m 0xFFFF hb]
      exact congrArg (·.getLsbD b) (State.reg_setFld_ne _ (f := F.CP_STATUS_LAST_SEQ) (i := 0)
        fun e => hne (regKey_inj (i := 0) (j := 0) (by decide) (by decide) e).1)
    · rw [hx, hy]
      exact State.regsKept_trans (State.regsKept_mono hkept (by simp)) (State.regsKept_trans
        (State.regsKept_mono (State.storeReg_kept (a + 1) (by decide) m 0xFFFF) (by simp))
        (State.regsKept_setFld (s := (s.storeReg a 0 v 0xFFFF).storeReg (a + 1) 0 m 0xFFFF) (by decide) (by decide)
          (by decide) (by simp)))
  case modify =>
    intro d p h
    refine ⟨_, rfl, State.packetSlot_store (v := v) (m := m) ha h rfl nofun ?_⟩
    have hview : s.slotBegin.rmwValue .port a = s.slotBegin.view .port a 0 := by
      obtain ⟨halias, htrans, -⟩ := plainRegs_facts a ha
      simp [State.rmwValue, halias, htrans, State.selected_plain ha]
    have hpayload : payloadWords d = [m, v] := by
      show payloadWords (bytesBE 2 m.toNat ++ bytesBE 2 v.toNat) = _
      rw [payloadWords_bytesBE, ← List.append_nil (bytesBE 2 v.toNat), payloadWords_bytesBE]
      rfl
    show s.slotBegin.regModify (BitVec.ofNat 32 a).toNat d _ = _
    rw [haddr, State.regModify, if_neg (by omega), hpayload]
    simp only [State.writeMasked_plain ha, hview]

end Sys2Proof.Machine
end

section
/-! PROOF.
Reads that clear counts, by packet and by READ_CLEAR.
-/
namespace Sys2Proof.Machine

variable {s : State} {p : Packet}

/-- The registers of RC counts. -/
def countRegs : List Nat :=
  [R.CLK_TRIG_LOST, R.CP_ERR, R.CP_REFUSED, R.EXP_TRIG_HELD, R.EXP_DROPPED, R.LN_DROPPED, R.POS_SKIPPED,
    R.AUX_OVF_COUNT, R.AUX_INJ_DROPPED, R.PB_ERR, R.FLT_EV_LOST]

/-- Every bit of such a register belongs to an RC field, at its own address. -/
theorem countRegs_facts : ∀ a ∈ countRegs, aliasAt a = none ∧ accessMask a .rc = 0xFFFF ∧ a < 256 ∧
    readClears a = true := by
  decide +kernel

/-- Such a register has no live bits. -/
theorem State.view_count {a : Nat} (h : a ∈ countRegs) : s.view .port a 0 = s.reg a := by
  have hlive : s.liveBits .port a 0 = (0, 0) := by fin_cases h <;> rfl
  have hinst : instPresent s.part a 0 = true := by fin_cases h <;> rfl
  rw [State.view, if_pos hinst, hlive]
  apply BitVec.eq_of_toNat_eq
  have hlt := (s.reg a).isLt
  have hand : (s.reg a).toNat &&& 0xFFFF = (s.reg a).toNat := by
    rw [show 0xFFFF = 2 ^ 16 - 1 from rfl, Nat.and_two_pow_sub_one_eq_mod, Nat.mod_eq_of_lt hlt]
  simp only [Nat.sub_zero, Nat.and_self, Nat.or_zero, BitVec.toNat_ofNat, hand]
  exact Nat.mod_eq_of_lt hlt

/-- A read of such a register answers the counts and clears them. -/
theorem State.hostRead_count {a : Nat} (h : a ∈ countRegs) (hv : s.pwr.rails.vcore = true) (hd : s.pwr.state ≠ .dormant) :
    s.hostRead .port false a = (s.reg a, s.setReg a 0) := by
  obtain ⟨halias, hmask, -⟩ := countRegs_facts a h
  have hsel : s.selected a = 0 := by fin_cases h <;> rfl
  have heffect : s.readEffect a 0 = s.setReg a (s.reg a &&& ~~~accessMask a .rc) := by fin_cases h <;> rfl
  have hhold : a ≠ R.AUX_Q_LO := by fin_cases h <;> decide
  rw [State.hostRead, if_neg (by simp [hv, hd]), State.readReg, halias]
  simp only [State.readDirect, hsel, Bool.false_eq_true, if_false, hhold, State.view_count h, heffect, hmask]
  congr 2
  simp

/-- Settles O11. Both ways read the register as `State.hostRead_count` says. -/
theorem readClearsCounts : Obligations.ReadClears := by
  unfold Obligations.ReadClears
  intro flags a s ha hv hd
  obtain ⟨-, -, hlt, hclears⟩ := countRegs_facts a ha
  refine ⟨fun hopen hdue => ?_, ?_⟩
  · have hread : exec (.readClear (BitVec.ofNat 8 a)) s = .next (s.setReg a 0) := by
      show Host.Outcome.next (if readClears (BitVec.ofNat 8 a).toNat then s.portRead (BitVec.ofNat 8 a).toNat else s) = _
      rw [BitVec.toNat_ofNat, Nat.mod_eq_of_lt hlt, if_pos hclears, State.portRead, if_pos hopen,
        State.dueApply_of hdue, State.hostRead_count ha hv hd]
    exact ⟨_, hread, rfl, State.reg_setReg .., State.regsKept_setReg (by decide) (by simp)⟩
  · intro p hflag h
    obtain ⟨x, hbegin⟩ := State.portFree_begin h
    have haddr : (BitVec.ofNat 32 a).toNat = a := by rw [BitVec.toNat_ofNat]; omega
    have hb : p.isBurst = true := by
      have hlen : p.len = 2 := rfl
      show (_ && decide ((BitVec.ofNat 32 a).toNat + p.len / 2 ≤ 0x100)) = true
      rw [haddr, hlen, decide_eq_true (by omega)]; rfl
    have hexec : s.slotBegin.execOne p 0 = ⟨Status.ok, wordBytes (s.reg a).toNat, s.slotBegin.setReg a 0⟩ := by
      have hread : s.slotBegin.hostRead .port false a = (s.reg a, s.slotBegin.setReg a 0) := by
        rw [hbegin]
        exact State.hostRead_count (s := s.setPort x) ha hv hd
      rw [State.execOne, if_pos hb]
      show (let r := s.slotBegin.hostRead .port (flags.getLsbD 7) ((BitVec.ofNat 32 a).toNat + 0)
        Answer.mk Status.ok (wordBytes r.1.toNat) r.2) = _
      rw [hflag, haddr, Nat.add_zero, hread]
    obtain ⟨hans, hframe, hkept⟩ := State.packetSlot_spec (undo := []) h (fun _ => by show 2 / 2 ≤ 1; decide) hexec rfl
      (State.slotBegin_failing h) (by show ¬(0x81 = 0x8A ∧ _); simp) (State.slotBegin_undo h).symm
    have hne : a ≠ R.CP_STATUS := by rintro rfl; exact absurd ha (by decide)
    have hreg : (s.packetSlot p 0).reg a = 0 :=
      (hkept.reg_eq (by decide) (by simpa using fun e => (hne e.symm).elim)).trans (State.reg_setReg ..)
    rw [hbegin] at hframe hkept
    exact ⟨_, rfl, hans, hframe, hreg, State.regsKept_trans (State.regsKept_of_regs rfl rfl) (State.regsKept_trans
      (State.regsKept_setReg (s := s.setPort x) (by decide) (by simp)) (State.regsKept_mono hkept (by simp)))⟩

end Sys2Proof.Machine
end

section
/-! PROOF.
Flags and events: what a flag set and an event raised leave of the state, where the event log has room.
-/
namespace Sys2Proof.Machine

variable {s : State}

/-- The entry of an event raised now (Table 19-2). -/
def State.entry (s : State) (code unit data : Nat) : Event :=
  ⟨code, s.flt.mark, unit, data % 2 ^ 16, s.timeBits 32, false⟩

/-- The state with one more entry in its event log. -/
def State.logged (s : State) (e : Event) : State := { s with flt := { s.flt with events := s.flt.events ++ [e] } }

/-- With room in the log, an event is one entry more, and nothing else changes (R619). -/
theorem State.raise_room (h : s.flt.events.length < 64) (code unit data : Nat) :
    s.raise code unit data = s.logged (s.entry code unit data) := if_pos h

/-- An entry changes no register. -/
theorem State.logged_kept (e : Event) (l : List (Field × Nat)) : s.regsKept (s.logged e) l :=
  State.regsKept_of_regs rfl rfl

@[simp] theorem State.logged_reg (e : Event) (a i : Nat) : (s.logged e).reg a i = s.reg a i := rfl
@[simp] theorem State.logged_fld (e : Event) (f : Field) (i : Nat) : (s.logged e).fld f i = s.fld f i := rfl
@[simp] theorem State.logged_flag (e : Event) (f : Field) (i : Nat) : (s.logged e).flag f i = s.flag f i := rfl

/-- A flag changes the registers and the marks of R633 alone. -/
theorem State.setFlag_frame (f : Field) (b : Bool) (i : Nat) :
    s.setFlag f b i = { s with regs := (s.setFlag f b i).regs, fresh := (s.setFlag f b i).fresh } := by
  unfold State.setFlag
  split <;> rfl

/-- A flag cleared, or one that the host may write, changes the registers alone. -/
theorem State.setFlag_unmarked {f : Field} {b : Bool} (h : (b && f.acc == .w1c) = false) (i : Nat) :
    s.setFlag f b i = s.setFld f (bit b) i := by
  unfold State.setFlag
  simp [h]

@[simp] theorem State.setFlag_entry (f : Field) (b : Bool) (i code unit data : Nat) :
    (s.setFlag f b i).entry code unit data = s.entry code unit data := by
  rw [s.setFlag_frame f b i]; rfl

/-- `t` is `s` with the flag `f` set and one entry in the event log: the registers but for the flag, and everything
else, as they were. -/
def State.flagged (s t : State) (f : Field) (i : Nat) (es : List Event) : Prop :=
  t = { s with regs := t.regs, fresh := t.fresh, flt := { s.flt with events := s.flt.events ++ es } } ∧
    t.flag f i = true ∧ s.regsKept t [(f, i)]

/-- A flag set and an event raised, with room in the log. -/
theorem State.setFlag_raise (h : s.flt.events.length < 64) {f : Field} (hf : f.hi = f.lo) (h16 : f.hi < 16) {i : Nat}
    (hi : i < 256) (code unit data : Nat) :
    s.flagged ((s.setFlag f true i).raise code unit data) f i [s.entry code unit data] := by
  rw [State.raise_room (by simpa using h), State.setFlag_entry]
  refine ⟨?_, State.flag_setFlag s hf h16 true i, State.regsKept_trans
    (State.regsKept_setFlag hi hf.ge h16 List.mem_cons_self) (State.logged_kept _ _)⟩
  rw [s.setFlag_frame f true i]
  rfl

/-- A flag that raises an event when it goes from 0 to 1, with room in the log (Table 19-3). -/
theorem State.setAndRaise_flagged (h : s.flt.events.length < 64) {f : Field} (hf : f.hi = f.lo) (h16 : f.hi < 16)
    (code unit data : Nat) :
    s.flagged (s.setAndRaise f code unit data) f 0 (if s.flag f then [] else [s.entry code unit data]) := by
  unfold State.setAndRaise
  cases hs : s.flag f with
  | true =>
    refine ⟨?_, State.flag_setFlag s hf h16 true 0, State.regsKept_setFlag (by decide) hf.ge h16 List.mem_cons_self⟩
    rw [if_pos rfl, if_pos rfl, List.append_nil]
    exact s.setFlag_frame f true 0
  | false => exact State.setFlag_raise h hf h16 (by decide) code unit data

end Sys2Proof.Machine
end

section
/-! PROOF.
Transactional values going live: registers with no effect beside their value, the live write, the apply and the timeout.
-/
namespace Sys2Proof.Machine

variable {s t : State}

/-! ### Values stored together (R211) -/

/-- Staged values stored. -/
def State.storeAll (s : State) (ws : List Staged) : State := ws.foldl (fun t w => t.setReg w.addr w.value w.inst) s

/-- The register instances of staged values. -/
def stagedWords (ws : List Staged) : List (Field × Nat) := ws.map fun w => (Field.word w.addr, w.inst)

/-- Staged values stored change the registers alone. -/
theorem State.storeAll_frame (ws : List Staged) : s.storeAll ws = { s with regs := (s.storeAll ws).regs } := by
  induction ws generalizing s with
  | nil => rfl
  | cons w ws ih => exact ih (s := s.setReg w.addr w.value w.inst)

/-- Staged values stored change their own registers alone. -/
theorem State.storeAll_kept {ws : List Staged} (h : ∀ w ∈ ws, w.inst < 256) :
    s.regsKept (s.storeAll ws) (stagedWords ws) := by
  induction ws generalizing s with
  | nil => exact State.regsKept_refl
  | cons w ws ih =>
    exact State.regsKept_trans (State.regsKept_setReg (h w List.mem_cons_self) List.mem_cons_self)
      (State.regsKept_mono (ih fun x hx => h x (List.mem_cons_of_mem _ hx)) fun x hx => List.mem_cons_of_mem _ hx)

/-- Each staged value is stored, where no two are for one register instance. -/
theorem State.storeAll_reg {ws : List Staged} (h : ∀ w ∈ ws, w.inst < 256)
    (hnd : (ws.map fun w => (w.addr, w.inst)).Nodup) : ∀ w ∈ ws, (s.storeAll ws).reg w.addr w.inst = w.value := by
  induction ws generalizing s with
  | nil => exact fun _ hw => nomatch hw
  | cons x ws ih =>
    rw [List.map_cons, List.nodup_cons] at hnd
    have htail : ∀ w ∈ ws, w.inst < 256 := fun w hw => h w (List.mem_cons_of_mem _ hw)
    intro w hw
    rcases List.mem_cons.1 hw with rfl | hw
    · refine ((State.storeAll_kept (s := s.setReg w.addr w.value w.inst) htail).reg_eq (h w List.mem_cons_self)
        ?_).trans (State.reg_setReg ..)
      intro y hy ha hi
      obtain ⟨z, hz, rfl⟩ := List.mem_map.1 hy
      exact hnd.1 (List.mem_map.2 ⟨z, hz, Prod.ext ha hi⟩)
    · exact ih (s := s.setReg x.addr x.value x.inst) htail hnd.2 w hw

/-- A field of a register of which nothing is listed is kept. -/
theorem State.regsKept.fld_eq {l : List (Field × Nat)} {f : Field} {i : Nat} (h : s.regsKept t l) (hi : i < 256)
    (hl : ∀ x ∈ l, x.1.addr = f.addr → x.2 ≠ i) : t.fld f i = s.fld f i :=
  congrArg f.of (h.reg_eq hi hl)

/-- A flag of a register of which nothing is listed is kept. -/
theorem State.regsKept.flag_eq {l : List (Field × Nat)} {f : Field} {i : Nat} (h : s.regsKept t l) (hi : i < 256)
    (hl : ∀ x ∈ l, x.1.addr = f.addr → x.2 ≠ i) : t.flag f i = s.flag f i :=
  congrArg (· == 1) (h.fld_eq hi hl)

/-! ### Quiet registers -/

/-- A quiet register is transactional, outside the frame context, and no setting of a unit. -/
theorem quietTrans_facts {a : Nat} (h : quietTrans a = true) : isTrans a = true ∧ inContext a = false ∧
    a ≠ R.AUX_CTRL ∧ a ≠ R.SPN_C_DIV_LO ∧ a ≠ R.SPN_C_DIV_HI := by
  simp only [quietTrans, Bool.and_eq_true, Bool.not_eq_true', List.contains_eq_mem, decide_eq_false_iff_not,
    List.mem_cons, List.not_mem_nil, or_false, not_or] at h
  obtain ⟨⟨htrans, hctx⟩, -, hhi, hlo, -, -, haux, -⟩ := h
  exact ⟨htrans, hctx, haux, hlo, hhi⟩

/-- A quiet register is none of the addresses that are not transactional. -/
theorem ne_of_quietTrans {a b : Nat} (h : quietTrans a = true) (hb : isTrans b = false) : a ≠ b := by
  rintro rfl
  exact absurd (quietTrans_facts h).1 (by simp [hb])

/-- Registers of another address, of all quiet ones. -/
theorem stagedWords_ne {ws : List Staged} {b i : Nat} (hq : ∀ w ∈ ws, quietTrans w.addr = true)
    (hb : quietTrans b = false) : ∀ x ∈ stagedWords ws, x.1.addr = b → x.2 ≠ i := by
  intro x hx ha
  obtain ⟨w, hw, rfl⟩ := List.mem_map.1 hx
  obtain rfl : w.addr = b := ha
  exact absurd (hq w hw) (by simp [hb])

/-- Quiet values stored disable no unit that a pending injection needs (R640). -/
theorem State.cancelDisabled_quiet {ws : List Staged} (hq : ∀ w ∈ ws, quietTrans w.addr = true)
    (hi : ∀ w ∈ ws, w.inst < 256) : s.cancelDisabled (s.storeAll ws) = s.storeAll ws := by
  have hk := s.storeAll_kept hi
  have hpart : (s.storeAll ws).part = s.part := by rw [s.storeAll_frame ws]
  have haux : ∀ f : Field, f.addr = R.AUX_CTRL → (s.storeAll ws).fld f = s.fld f := fun f hf =>
    hk.fld_eq (by decide) (stagedWords_ne hq (by rw [hf]; decide))
  have hen : (s.storeAll ws).fld F.QR_ENABLE_EN = s.fld F.QR_ENABLE_EN :=
    hk.fld_eq (by decide) (stagedWords_ne hq (by decide))
  have hconv : ∀ k, (s.storeAll ws).convOn k = s.convOn k := by
    intro k
    unfold State.convOn State.flag
    rw [hpart, haux _ (by split <;> rfl)]
  unfold State.cancelDisabled
  refine if_neg ?_
  dsimp only
  split <;> simp only [hconv, haux F.AUX_CTRL_INJ_EN rfl, hen, Bool.and_not_self, Bool.false_eq_true, not_false_eq_true]

/-- Quiet values going live are stored, and nothing else happens. -/
theorem State.makeLive_quiet {ws : List Staged} (hq : ∀ w ∈ ws, quietTrans w.addr = true)
    (hi : ∀ w ∈ ws, w.inst < 256) : s.makeLive ws [] = s.storeAll ws := by
  have hhook : ∀ (l : List Staged) (u : State), (∀ w ∈ l, quietTrans w.addr = true) →
      l.foldl (fun t w => t.liveHook w.addr w.inst (s.reg w.addr w.inst)) u = u := by
    intro l
    induction l with
    | nil => exact fun _ _ => rfl
    | cons w l ih =>
      intro u hl
      rw [List.foldl_cons, State.liveHook_quiet (hl w List.mem_cons_self)]
      exact ih u fun x hx => hl x (List.mem_cons_of_mem _ hx)
  have hctx : (ws.any fun w => inContext w.addr && s.reg w.addr w.inst != w.value) = false := by
    rw [List.any_eq_false]
    intro w hw
    simp [(quietTrans_facts (hq w hw)).2.1]
  unfold State.makeLive
  dsimp only
  rw [hhook ws _ hq, List.foldl_nil, hctx, if_neg Bool.false_ne_true]
  exact State.cancelDisabled_quiet hq hi

/-! ### Register writes (R206, R216) -/

/-- Numbers within an address that the unit-select registers name lie below 256. -/
theorem State.selected_lt (a : Nat) : s.selected a < 256 := by
  have hlt : ∀ f : Field, f.hi + 1 - f.lo ≤ 8 → s.fld f < 256 := fun f hf =>
    lt_of_lt_of_le (s.fld_lt f 0) (Nat.pow_le_pow_right (by decide) hf)
  unfold State.selected
  split_ifs
  iterate 8 exact hlt _ (by decide)
  decide

/-- A generation more changes BND_GEN alone. -/
theorem State.nextGen_kept : s.regsKept s.nextGen [(F.BND_GEN_GEN, 0)] :=
  State.regsKept_setFld (by decide) (by decide) (by decide) List.mem_cons_self

/-- BND_GEN after a generation more. -/
theorem State.nextGen_fld : s.nextGen.fld F.BND_GEN_GEN = (s.fld F.BND_GEN_GEN + 1) % 256 := by
  rw [State.nextGen, State.fld_setFld s (by decide) (by decide)]
  exact Nat.mod_mod _ _

/-- A write of a quiet register that passes its checks puts its value. -/
theorem State.writeMasked_quiet {a : Nat} (hq : quietTrans a = true) (halias : aliasAt a = none)
    (hf : a ≠ R.LEG_COL_FIRST) (hl : a ≠ R.LEG_COL_LAST) (hinst : instPresent s.part a (s.selected a) = true)
    (hr : s.transRefusal .port = none) (v m : Word) (lost : Bool) :
    let old := s.transValue a (s.selected a)
    let w := limitWord a (storedAfter a old v m)
    s.transCheck a old w m = Status.ok →
    s.writeMasked .port a v m lost = s.putTrans [⟨a, s.selected a, w⟩] [] := by
  intro old w hok
  have hdiv := (quietTrans_facts hq).2.2.2.1
  rw [State.writeMasked, halias]
  show s.writeDirect .port a v m lost = _
  rw [State.writeDirect]
  simp only [(quietTrans_facts hq).1, if_true]
  unfold State.writeTrans
  simp only [hr, hf, hl, or_self, if_false, hinst, Bool.not_true, Bool.false_eq_true, if_neg hdiv]
  exact if_neg (not_not.2 hok)

/-- One value staged where its register is not staged yet and a slot is free. -/
theorem Bindery.stageAll_one {b : Bindery} {w : Staged} (hv : b.stagedValue w.addr w.inst = none)
    (hlen : b.staged.length < stagingSlots) : b.stageAll [w] = some { b with staged := b.staged ++ [w] } := by
  simp [Bindery.stageAll, Bindery.stage, hv, hlen]

/-- One quiet value put live in IDLE: stored, and counted where it changes the register. -/
theorem State.putTrans_idle (hs : s.bnd.txn = .idle) {a i : Nat} (hq : quietTrans a = true) (hi : i < 256) (w : Word) :
    s.putTrans [⟨a, i, w⟩] [] =
      (Status.ok, if s.reg a i = w then s.setReg a w i else (s.setReg a w i).nextGen) := by
  have hlive : s.makeLive [⟨a, i, w⟩] [] = s.setReg a w i :=
    State.makeLive_quiet (by simpa using hq) (by simpa using hi)
  unfold State.putTrans
  rw [if_neg (by simp [hs])]
  simp only [hlive]
  by_cases h : s.reg a i = w <;> simp [h]

/-- Settles O24. -/
theorem registerWrites : Obligations.RegisterWrites := by
  unfold Obligations.RegisterWrites
  intro a v lost s hlive ha
  have hexec : exec (.registerWrite .port (BitVec.ofNat 8 a) v lost) s = .next (s.writeMasked .port a v 0xFFFF lost).2 := by
    show Host.Outcome.next (s.hostWrite .port (BitVec.ofNat 8 a).toNat v 0xFFFF lost) = _
    rw [State.hostWrite_of_live hlive, BitVec.toNat_ofNat, Nat.mod_eq_of_lt ha]
  rw [hexec]
  refine ⟨fun hp => ?_, fun hq halias hf hl hinst => ?_⟩
  · rw [State.writeMasked_plain hp]
    exact ⟨_, rfl, rfl, fun b hb => State.getLsbD_storeReg hp v 0xFFFF hb, s.storeReg_kept a (by decide) v 0xFFFF⟩
  intro w hok
  have hwrite : s.transRefusal .port = none → s.writeMasked .port a v 0xFFFF lost = s.putTrans [⟨a, s.selected a, w⟩] [] :=
    fun hr => State.writeMasked_quiet hq halias hf hl hinst hr v 0xFFFF lost hok
  clear_value w
  refine ⟨fun hs hv hlen => ?_, fun hs => ?_⟩
  · rw [hwrite (by simp [State.transRefusal, hs]), State.putTrans, if_pos hs, Bindery.stageAll_one hv hlen]
    rfl
  · rw [hwrite (by simp [State.transRefusal, hs]), State.putTrans_idle hs hq (State.selected_lt a)]
    have hne : regKey a (s.selected a) ≠ regKey F.BND_GEN_GEN.addr 0 := fun e =>
      ne_of_quietTrans hq (by decide) (regKey_inj (State.selected_lt a) (by decide) e).1
    have hset : s.regsKept (s.setReg a w (s.selected a)) [(Field.word a, s.selected a), (F.BND_GEN_GEN, 0)] :=
      State.regsKept_setReg (State.selected_lt a) List.mem_cons_self
    have hgen : (s.setReg a w (s.selected a)).fld F.BND_GEN_GEN = s.fld F.BND_GEN_GEN :=
      congrArg F.BND_GEN_GEN.of (State.reg_setReg_ne _ _ hne.symm)
    by_cases h : s.reg a (s.selected a) = w
    · rw [if_pos h, if_pos h]
      exact ⟨_, rfl, rfl, State.reg_setReg .., hgen, hset⟩
    · rw [if_neg h, if_neg h]
      exact ⟨_, rfl, rfl, (State.reg_setFld_ne _ hne).trans (State.reg_setReg ..), State.nextGen_fld.trans (by rw [hgen]),
        State.regsKept_trans hset (State.regsKept_mono State.nextGen_kept (by simp))⟩

/-! ### The apply (R211, R215) -/

/-- Without stores written there is no bank to swap. -/
theorem State.swapBanks_of_unwritten (h : ∀ x, s.bnd.wrote x = false) : s.swapBanks = s := by
  have hwave : s.bnd.wroteWave = false := h .wave
  have hlut : s.bnd.wroteLut = false := h .lut
  have hadc : s.bnd.wroteAdc = false := h .adcseq
  simp [State.swapBanks, allBanked, h, hwave, hlut, hadc]

/-- Without stores written no bank sync follows. -/
theorem Bindery.pendSyncs_of_unwritten {b : Bindery} (h : ∀ x, b.wrote x = false) : b.pendSyncs = b := by
  simp [Bindery.pendSyncs, allBanked, h]

/-- The apply of quiet values, with no store written: they are stored, the transaction is over, BND_GEN counts it, and
TXN_APPLIED tells of it. -/
theorem State.applyTxn_quiet (hs : s.bnd.txn = .pending) (hw : ∀ x, s.bnd.wrote x = false)
    (hq : ∀ w ∈ s.bnd.staged, quietTrans w.addr = true) (hi : ∀ w ∈ s.bnd.staged, w.inst < 256)
    (hinst : ∀ w ∈ s.bnd.staged, instPresent s.part w.addr w.inst = true) :
    let t := ((s.storeAll s.bnd.staged).setBnd s.bnd.idle).nextGen
    s.applyTxn = (t.setFlag F.BND_STATUS_APPLIED true).raise 0x20 noUnit (t.fld F.BND_GEN_GEN) := by
  have hrate : (s.bnd.staged.any fun w => w.addr == R.LN_RATE && w.value != s.reg R.LN_RATE) = false := by
    rw [List.any_eq_false]
    intro w hw
    have hne : w.addr ≠ R.LN_RATE := by
      intro e
      exact absurd (hq w hw) (by rw [e]; decide)
    simp [hne]
  have hhold : s.holdRate s.bnd.staged = (s.bnd.staged, s) := by simp [State.holdRate, hrate]
  have hall : (s.bnd.staged.filter fun w => instPresent s.part w.addr w.inst) = s.bnd.staged :=
    List.filter_eq_self.2 hinst
  have hdiv : divisorsOf s.bnd.staged = [] := by
    have hnone : (s.bnd.staged.filter fun w => w.addr == R.SPN_C_DIV_HI || w.addr == R.SPN_C_DIV_LO) = [] := by
      rw [List.filter_eq_nil_iff]
      intro w hw
      obtain ⟨-, -, -, hlo, hhi⟩ := quietTrans_facts (hq w hw)
      simp [hlo, hhi]
    rw [divisorsOf, hnone, List.map_nil]
  unfold State.applyTxn
  simp only [hs, if_true, hhold, hall, State.swapBanks_of_unwritten hw, hdiv, State.makeLive_quiet hq hi,
    Bindery.pendSyncs_of_unwritten hw]

/-- Where a pending commit's apply point has come, TXN_APPLY is its apply. -/
theorem State.applyDue_of_come (hs : s.bnd.txn = .pending)
    (h : s.bnd.point = .immediate ∨ s.bnd.point = .atPosition ∧ (if s.bnd.below then
        delta48 s.pos.p (join48 (s.reg R.BND_TARGET_HI) (s.reg R.BND_TARGET_MID) (s.reg R.BND_TARGET_LO)) ≤ 0
      else 0 ≤ delta48 s.pos.p (join48 (s.reg R.BND_TARGET_HI) (s.reg R.BND_TARGET_MID) (s.reg R.BND_TARGET_LO)))) :
    s.applyDue = s.applyTxn := by
  unfold State.applyDue
  rcases h with hp | ⟨hp, hd⟩
  · simp [hp, State.dueApply, hs]
  · simp only [hp, State.atPosition, hs, and_self, if_true]
    exact if_pos hd

/-- Where it has not come, or nothing is pending, TXN_APPLY does nothing. -/
theorem State.applyDue_of_not_come (h : s.bnd.txn ≠ .pending ∨ s.bnd.point = .nextLine ∨ s.bnd.point = .nextFrame ∨
      s.bnd.point = .atPosition ∧ ¬(if s.bnd.below then
        delta48 s.pos.p (join48 (s.reg R.BND_TARGET_HI) (s.reg R.BND_TARGET_MID) (s.reg R.BND_TARGET_LO)) ≤ 0
      else 0 ≤ delta48 s.pos.p (join48 (s.reg R.BND_TARGET_HI) (s.reg R.BND_TARGET_MID) (s.reg R.BND_TARGET_LO)))) :
    s.applyDue = s := by
  unfold State.applyDue State.dueApply State.atPosition
  rcases h with h | hp | hp | ⟨hp, hd⟩
  · split <;> simp [h]
  · simp [hp]
  · simp [hp]
  · simp only [hp]
    split_ifs
    all_goals rfl

/-- Settles O19. -/
theorem txnApplies : Obligations.TxnApplies := by
  unfold Obligations.TxnApplies
  intro s hlen d
  refine ⟨fun hs hcome hw hall hnd => ?_, fun _ hwait => ?_, fun hs => ?_⟩
  · have hq := fun w h => (hall w h).1
    have hi := fun w h => (hall w h).2.1
    have hk := s.storeAll_kept hi
    let t := ((s.storeAll s.bnd.staged).setBnd s.bnd.idle).nextGen
    have hgen : t.fld F.BND_GEN_GEN = (s.fld F.BND_GEN_GEN + 1) % 256 := by
      refine State.nextGen_fld.trans ?_
      exact congrArg (fun n => (n + 1) % 256) (hk.fld_eq (f := F.BND_GEN_GEN) (i := 0) (by decide)
        (stagedWords_ne hq (by decide)))
    have happly : exec .txnApply s = .next ((t.setFlag F.BND_STATUS_APPLIED true).raise 0x20 noUnit
        ((s.fld F.BND_GEN_GEN + 1) % 256)) := by
      show Host.Outcome.next s.applyDue = _
      rw [State.applyDue_of_come hs hcome, State.applyTxn_quiet hs hw hq hi fun w h => (hall w h).2.2]
      show Host.Outcome.next ((t.setFlag F.BND_STATUS_APPLIED true).raise 0x20 noUnit (t.fld F.BND_GEN_GEN)) = _
      rw [hgen]
    have ht : t = { s with regs := t.regs, bnd := s.bnd.idle } := by
      show State.setFld (State.setBnd (s.storeAll s.bnd.staged) s.bnd.idle) _ _ = _
      rw [s.storeAll_frame s.bnd.staged]
      rfl
    obtain ⟨hframe, hflag, hkept⟩ := State.setFlag_raise (s := t) (f := F.BND_STATUS_APPLIED) (i := 0)
      (by rw [ht]; exact hlen) rfl (by decide) (by decide) 0x20 noUnit ((s.fld F.BND_GEN_GEN + 1) % 256)
    generalize (t.setFlag F.BND_STATUS_APPLIED true).raise 0x20 noUnit ((s.fld F.BND_GEN_GEN + 1) % 256) = u at *
    have hentry : t.entry 0x20 noUnit ((s.fld F.BND_GEN_GEN + 1) % 256) =
        ⟨0x20, s.flt.mark, noUnit, (s.fld F.BND_GEN_GEN + 1) % 256, s.timeBits 32, false⟩ := by
      rw [ht]
      unfold State.entry
      rw [Nat.mod_eq_of_lt (a := (s.fld F.BND_GEN_GEN + 1) % 256) (by omega)]
      rfl
    have hkept' : s.regsKept t ((F.BND_GEN_GEN, 0) :: stagedWords s.bnd.staged) :=
      State.regsKept_trans (State.regsKept_mono hk (by simp +contextual)) (State.regsKept_mono
        (State.nextGen_kept (s := (s.storeAll s.bnd.staged).setBnd s.bnd.idle)) (by simp))
    rw [hentry, ht] at hframe
    have hbnd : u.bnd = s.bnd.idle := congrArg State.bnd hframe
    have hflt := congrArg State.flt hframe
    dsimp only at hflt
    refine ⟨u, happly, ?_, hbnd, fun w hw' => ?_, ?_, hflag, hflt, ?_⟩
    · rw [hbnd, hflt]
      exact hframe
    · have hne := fun b hb => ne_of_quietTrans (b := b) (hq w hw') hb
      rw [hkept.reg_eq (hi w hw') (fun x hx ha => by
          rw [List.mem_singleton.1 hx] at ha
          exact absurd ha.symm (hne R.BND_STATUS (by decide))),
        ← State.storeAll_reg (s := s) hi hnd w hw']
      exact State.reg_setFld_ne _ fun e => hne R.BND_GEN (by decide) (regKey_inj (hi w hw') (by decide) e).1
    · exact (hkept.fld_eq (by decide) (List.forall_mem_singleton.2 fun e => absurd e (by decide))).trans hgen
    · exact State.regsKept_trans (State.regsKept_mono hkept' (by simp +contextual [stagedWords]))
        (State.regsKept_mono hkept (by simp))
  · rw [show exec .txnApply s = .next s.applyDue from rfl, State.applyDue_of_not_come (.inr hwait)]
  · rw [show exec .txnApply s = .next s.applyDue from rfl, State.applyDue_of_not_come (.inl hs)]

/-! ### Timeout and bank syncs (R217 to R219) -/

/-- Settles O20. -/
theorem txnTimesOut : Obligations.TxnTimesOut := by
  unfold Obligations.TxnTimesOut
  intro s hs hlen
  let t := s.setBnd { s.bnd.pendSyncs.idle with txn := .timedOut }
  have htimeout : exec .bndTxnTmoExpiry s =
      .next ((t.setFlag F.BND_STATUS_TIMEOUT_LATCH true).raise 0x21 noUnit s.bnd.staged.length) := by
    show Host.Outcome.next s.txnTimeout = _
    rw [State.txnTimeout, if_pos hs]
    rfl
  obtain ⟨hframe, hflag, hkept⟩ := State.setFlag_raise (s := t) (f := F.BND_STATUS_TIMEOUT_LATCH) (i := 0) hlen rfl
    (by decide) (by decide) 0x21 noUnit s.bnd.staged.length
  generalize (t.setFlag F.BND_STATUS_TIMEOUT_LATCH true).raise 0x21 noUnit s.bnd.staged.length = u at *
  have hbnd : u.bnd = { s.bnd.pendSyncs.idle with txn := .timedOut } := congrArg State.bnd hframe
  have hflt := congrArg State.flt hframe
  dsimp only at hflt
  refine ⟨u, htimeout, ?_, by rw [hbnd], by rw [hbnd]; rfl, hflag, fun x => ?_, hflt,
    State.regsKept_trans (State.regsKept_of_regs rfl rfl) hkept⟩
  · rw [hbnd, hflt]
    exact hframe
  · rw [hbnd, ← Bindery.pendSyncs_sync]
    cases x <;> rfl


end Sys2Proof.Machine
end

section
/-! PROOF.
Bank syncs: where a copied bank holds what, and the commands that start and end a sync.
-/
namespace Sys2Proof.Machine

variable {s : State} {β : Type} {d : β}

/-! ### Contents cut and moved -/

/-- The entries whose keys satisfy `p`: the other keys read as the default. -/
theorem Cells.get_filter_key (c : Cells β) (p : Nat → Bool) (j : Nat) :
    Cells.get d (c.filter fun e => p e.1) j = if p j then Cells.get d c j else d := by
  induction c with
  | nil => simp [Cells.get]
  | cons e c ih =>
    obtain ⟨k, v⟩ := e
    by_cases hk : p k <;> by_cases hj : j = k <;> simp_all [Cells.get]

/-- A key that no entry has reads as the default. -/
theorem Cells.get_of_absent {c : Cells β} {j : Nat} (h : ∀ x ∈ c, x.1 ≠ j) : Cells.get d c j = d := by
  induction c with
  | nil => rfl
  | cons x c ih =>
    obtain ⟨k, v⟩ := x
    rw [List.forall_mem_cons] at h
    simp [Cells.get, Ne.symm h.1, ih h.2]

/-- A part that does not hold the key is passed over. -/
theorem Cells.get_append_right {c : Cells β} (e : Cells β) {j : Nat} (h : ∀ x ∈ c, x.1 ≠ j) :
    Cells.get d (c ++ e) j = Cells.get d e j := by
  induction c with
  | nil => rfl
  | cons x c ih =>
    obtain ⟨k, v⟩ := x
    rw [List.forall_mem_cons] at h
    simp [Cells.get, Ne.symm h.1, ih h.2]

/-- A part behind that does not hold the key adds nothing. -/
theorem Cells.get_append_left (c : Cells β) {e : Cells β} {j : Nat} (h : ∀ x ∈ e, x.1 ≠ j) :
    Cells.get d (c ++ e) j = Cells.get d c j := by
  induction c with
  | nil => exact Cells.get_of_absent h
  | cons x c ih => simp only [List.cons_append, Cells.get, ih]

/-- Entries moved from `a` to `b` read there as they did before. -/
theorem Cells.get_map_shift {a b j : Nat} {c : Cells β} (ha : ∀ e ∈ c, a ≤ e.1) (hj : b ≤ j) :
    Cells.get d (c.map fun e => (e.1 - a + b, e.2)) j = Cells.get d c (j - b + a) := by
  induction c with
  | nil => rfl
  | cons x c ih =>
    obtain ⟨k, v⟩ := x
    have hk : a ≤ k := ha (k, v) List.mem_cons_self
    have ih := ih fun e he => ha e (List.mem_cons_of_mem _ he)
    simp only [List.map_cons, Cells.get, ih, show (j = k - a + b) = (j - b + a = k) by apply propext; omega]

/-- In the bank copied to, a key reads what the bank copied from holds at its place. -/
theorem Cells.get_copyBank (c : Cells β) {a b n j : Nat} (hb : b ≤ j) (hn : j < b + n) :
    Cells.get d (c.filter (fun e => decide (e.1 < b)) ++
      ((c.filter fun e => decide (a ≤ e.1) && decide (e.1 < a + n)).map fun e => (e.1 - a + b, e.2)) ++
      c.filter (fun e => decide (b + n ≤ e.1))) j = Cells.get d c (j - b + a) := by
  have hbelow : ∀ x ∈ c.filter (fun e => decide (e.1 < b)), x.1 ≠ j := fun x hx => by
    have := of_decide_eq_true (List.mem_filter.1 hx).2
    omega
  have habove : ∀ x ∈ c.filter (fun e => decide (b + n ≤ e.1)), x.1 ≠ j := fun x hx => by
    have := of_decide_eq_true (List.mem_filter.1 hx).2
    omega
  rw [Cells.get_append_left _ habove, Cells.get_append_right _ hbelow, Cells.get_map_shift (by simp +contextual) hb,
    Cells.get_filter_key c (fun k => decide (a ≤ k) && decide (k < a + n)), if_pos]
  simp only [Bool.and_eq_true, decide_eq_true_eq]
  omega

/-- Consecutive keys that read alike hold the same values. -/
theorem Cells.getRange_congr {c e : Cells β} {k l : Nat} {n : Nat}
    (h : ∀ i < n, Cells.get d c (k + i) = Cells.get d e (l + i)) : Cells.getRange d c k n = Cells.getRange d e l n := by
  induction n generalizing k l with
  | zero => rfl
  | succ n ih =>
    have h0 := h 0 (by omega)
    have ih := ih (k := k + 1) (l := l + 1) fun i hi => by
      have := h (i + 1) (by omega)
      rwa [show k + 1 + i = k + (i + 1) by omega, show l + 1 + i = l + (i + 1) by omega]
    simp only [Nat.add_zero] at h0
    simp only [Cells.getRange, h0, ih]

/-! ### A bank copied (R218) -/

/-- A word whose raw bytes lie in its bank, after the copy from the other bank: raw bytes and valid bit of the word
there. -/
theorem Memory.copyBank_word (m : Memory) (id : Nat) (src : Bool) {k : Nat} (hk : (k + 1) * rawSize id ≤ 2 ^ 23) :
    (m.copyBank id src).raw ⟨id, !src, k⟩ = m.raw ⟨id, src, k⟩ ∧
    (m.copyBank id src).isValid ⟨id, !src, k⟩ = m.isValid ⟨id, src, k⟩ := by
  have hsize : 1 ≤ rawSize id := by unfold rawSize; split <;> omega
  have hcell : k * rawSize id + rawSize id ≤ 2 ^ 23 := by rwa [← Nat.succ_mul]
  have hword : k < 2 ^ 23 := Nat.lt_of_lt_of_le (Nat.lt_of_lt_of_le (Nat.lt_succ_self k)
    (Nat.le_mul_of_pos_right _ hsize)) hk
  refine ⟨Cells.getRange_congr fun i hi => ?_, ?_⟩
  · refine (Cells.get_copyBank m.cells (a := bankBase id src) (b := bankBase id (!src)) ?_ ?_).trans ?_
    · simp only [WordAddr.cell, cellAddr]; omega
    · simp only [WordAddr.cell, cellAddr] at hi ⊢; omega
    · congr 1
      simp only [WordAddr.cell, cellAddr]; omega
  · refine (Cells.get_copyBank m.valid (a := bankBase id src) (b := bankBase id (!src)) ?_ ?_).trans ?_
    · simp only [WordAddr.key]; omega
    · simp only [WordAddr.key]; omega
    · congr 1
      simp only [WordAddr.key]; omega

/-- Settles O21. -/
theorem bankSyncs : Obligations.BankSyncs := by
  unfold Obligations.BankSyncs
  intro x s
  refine ⟨fun hs hfree => ?_, fun hs hused => ?_, fun hs hgood => ?_⟩
  · exact congrArg Host.Outcome.next (if_pos (by simp [hs, hfree]))
  · exact congrArg Host.Outcome.next (if_neg (by simp [hused]))
  · have hcopy : s.copyActive x = { s with mem := s.mem.copyBank (bankedId x) (s.activeBank x) } := by
      simp only [State.copyActive, hgood]
    have hdone : s.syncDone x = (s.copyActive x).setBnd (s.bnd.setSync x .none) := if_pos hs
    rw [hcopy] at hdone
    refine ⟨_, congrArg Host.Outcome.next hdone, rfl, fun k hk => ?_⟩
    have hraw : rawSize (bankedId x) = 5 := by cases x <;> rfl
    exact s.mem.copyBank_word _ _ (by rwa [hraw])

end Sys2Proof.Machine
end

section
/-! PROOF.
Fields of registers of which other fields have changed.
-/
namespace Sys2Proof.Machine

variable {s t : State} {l : List (Field × Nat)} {f : Field} {i : Nat}

/-- A field apart from every field listed is kept. -/
theorem State.regsKept.fld_apart (h : s.regsKept t l)
    (hl : i < 256 ∧ ∀ x ∈ l, x.1.addr = f.addr → x.2 = i → x.1.hi < f.lo ∨ f.hi < x.1.lo) : t.fld f i = s.fld f i := by
  refine Field.of_congr fun b hlo hhi => (h _ _ b hl.1 ?_).1
  rintro ⟨x, hx, ha, hi, hxlo, hxhi⟩
  have := hl.2 x hx ha hi
  omega

/-- A flag apart from every field listed is kept. -/
theorem State.regsKept.flag_apart (h : s.regsKept t l)
    (hl : i < 256 ∧ ∀ x ∈ l, x.1.addr = f.addr → x.2 = i → x.1.hi < f.lo ∨ f.hi < x.1.lo) : t.flag f i = s.flag f i :=
  congrArg (· == 1) (h.fld_apart hl)

/-- A field reads as it was written, where the value fits. -/
theorem State.fld_setFld_of_lt {v : Nat} (hf : f.lo ≤ f.hi ∧ f.hi < 16) (hv : v < 2 ^ (f.hi + 1 - f.lo)) :
    (s.setFld f v i).fld f i = v := by
  rw [State.fld_setFld s hf.1 hf.2, Nat.mod_eq_of_lt hv]

/-- A write of a field changes that field. -/
theorem State.setFld_kept (hf : i < 256 ∧ f.lo ≤ f.hi ∧ f.hi < 16) (v : Nat) : s.regsKept (s.setFld f v i) [(f, i)] :=
  State.regsKept_setFld hf.1 hf.2.1 hf.2.2 List.mem_cons_self

/-- A write of a flag changes that flag. -/
theorem State.setFlag_kept (hf : i < 256 ∧ f.lo ≤ f.hi ∧ f.hi < 16) (b : Bool) : s.regsKept (s.setFlag f b i) [(f, i)] :=
  State.regsKept_setFlag hf.1 hf.2.1 hf.2.2 List.mem_cons_self

/-- Two changes one after the other. -/
theorem State.regsKept.append {u : State} {m : List (Field × Nat)} (h : s.regsKept t l) (h' : t.regsKept u m) :
    s.regsKept u (l ++ m) :=
  State.regsKept_trans (State.regsKept_mono h fun _ hx => List.mem_append_left m hx)
    (State.regsKept_mono h' fun _ hx => List.mem_append_right l hx)

end Sys2Proof.Machine
end

section
/-! PROOF.
What ends the hold of a reset, and the wait for the supply.
-/
namespace Sys2Proof.Machine

variable {s : State}

/-- A wake begins at a step, or waits for the supply (R92). -/
theorem State.beginWake_eq (h : s.pwr.supplyWait = false) (n : Nat) :
    s.beginWake n = s.setPwr { s.pwr with step := n, stepRunning := !s.pwr.warn, supplyWait := s.pwr.warn } := by
  unfold State.beginWake State.armStep
  cases hw : s.pwr.warn <;> simp [h]

/-- With nothing else holding the device, a released reset begins the wake sequence. -/
theorem State.released_of_free (hs : s.pwr.state = .waking ∨ s.pwr.state = .off) (hstep : s.pwr.step = 0)
    (hw : s.pwr.supplyWait = false) (hr : s.pwr.inReset = none) (hl : s.pwr.resetLow = false)
    (ht : s.pwr.testHigh = false) :
    s.released = s.setPwr { s.pwr with
      state := .waking, step := 1, stepRunning := !s.pwr.warn, supplyWait := s.pwr.warn } := by
  unfold State.released
  have hstate : (if s.pwr.inReset = some .por then PState.off else .waking) = .waking := if_neg (by simp [hr])
  rw [if_pos ⟨hs, hstep, hw⟩]
  simp only [hstate]
  rw [if_neg (by simp [Power.held, hr, hl, ht])]
  exact State.beginWake_eq (s := s.setPwr { s.pwr with state := .waking }) hw 1

/-- Straps sampled change the registers that take them, and the port's mode. -/
theorem State.sampleStraps_frame (cfgsel : Nat) (spi : Bool) : s.sampleStraps cfgsel spi = { s with
    regs := (s.sampleStraps cfgsel spi).regs, port := { s.port with mode3 := spi } } := by
  unfold State.sampleStraps
  simp only [State.setFlag_unmarked (f := F.SYS_STRAPS_SPIMODE) (b := spi) (by rw [Bool.and_comm]; rfl),
    State.setFlag_unmarked (f := F.CP_MODE_SPI) (b := spi) (by rw [Bool.and_comm]; rfl)]
  rfl

/-- The straps show what was sampled, and no other register has changed (R52, R53). -/
theorem State.sampleStraps_regs {cfgsel : Nat} (hc : cfgsel < 4) (spi : Bool) :
    let t := s.sampleStraps cfgsel spi
    t.fld F.SYS_STRAPS_CFGSEL = cfgsel ∧ t.flag F.SYS_STRAPS_SPIMODE = spi ∧ t.flag F.CP_MODE_SPI = spi ∧
      t.fld F.PB_TGT_ADDR = 0x2C + cfgsel ∧
      s.regsKept t [(F.SYS_STRAPS_CFGSEL, 0), (F.SYS_STRAPS_SPIMODE, 0), (F.CP_MODE_SPI, 0), (F.PB_TGT_ADDR, 0)] := by
  let t1 := s.setFld F.SYS_STRAPS_CFGSEL cfgsel
  let t2 := t1.setFlag F.SYS_STRAPS_SPIMODE spi
  let t3 := t2.setFlag F.CP_MODE_SPI spi
  let t4 := t3.setFld F.PB_TGT_ADDR (0x2C + cfgsel)
  have h1 : s.regsKept t1 [(F.SYS_STRAPS_CFGSEL, 0)] := State.setFld_kept (by decide) _
  have h2 : t1.regsKept t2 [(F.SYS_STRAPS_SPIMODE, 0)] := State.setFlag_kept (by decide) _
  have h3 : t2.regsKept t3 [(F.CP_MODE_SPI, 0)] := State.setFlag_kept (by decide) _
  have h4 : t3.regsKept t4 [(F.PB_TGT_ADDR, 0)] := State.setFld_kept (by decide) _
  have hcfg : t1.fld F.SYS_STRAPS_CFGSEL = cfgsel := State.fld_setFld_of_lt (by decide) hc
  have hspi : t2.flag F.SYS_STRAPS_SPIMODE = spi := State.flag_setFlag _ (by decide) (by decide) _ _
  have hmode : t3.flag F.CP_MODE_SPI = spi := State.flag_setFlag _ (by decide) (by decide) _ _
  have haddr : t4.fld F.PB_TGT_ADDR = 0x2C + cfgsel :=
    State.fld_setFld_of_lt (by decide) (show 0x2C + cfgsel < 2 ^ 7 by omega)
  exact ⟨((h2.append (h3.append h4)).fld_apart (by decide)).trans hcfg, ((h3.append h4).flag_apart (by decide)).trans hspi,
    (h4.flag_apart (by decide)).trans hmode, haddr, h1.append (h2.append (h3.append h4))⟩

/-- Settles O32. -/
theorem resetsRelease : Obligations.ResetsRelease := by
  unfold Obligations.ResetsRelease
  intro cfgsel spi s hstep hw ht
  refine ⟨fun hs hr hl => ?por, fun hs hr hl => ?bor, fun hs hr hl => ?pin⟩
  case por =>
    let t := (s.setPwr { s.pwr with inReset := none }).sampleStraps cfgsel.toNat spi
    have hframe : t = { s with
        regs := t.regs, pwr := { s.pwr with inReset := none }, port := { s.port with mode3 := spi } } :=
      State.sampleStraps_frame cfgsel.toNat spi
    have hpwr : t.pwr = { s.pwr with inReset := none } := congrArg State.pwr hframe
    have hrel : t.released = t.setPwr { s.pwr with
        inReset := none, state := .waking, step := 1, stepRunning := !s.pwr.warn, supplyWait := s.pwr.warn } := by
      rw [State.released_of_free (by rw [hpwr]; exact .inr hs) (by rw [hpwr]; exact hstep) (by rw [hpwr]; exact hw)
        (by rw [hpwr]) (by rw [hpwr]; exact hl) (by rw [hpwr]; exact ht), hpwr]
    have hexec : exec (.porRelease cfgsel spi) s = .next t.released := congrArg Host.Outcome.next (if_pos hr)
    rw [hrel] at hexec
    refine ⟨_, hexec, ?_, State.sampleStraps_regs (by omega) spi⟩
    exact (congrArg (fun u : State => u.setPwr _) hframe :)
  case bor =>
    have hexec : exec .borRelease s = .next (s.setPwr { s.pwr with inReset := none }).released :=
      congrArg Host.Outcome.next (if_pos hr)
    rw [hexec, State.released_of_free (s := s.setPwr { s.pwr with inReset := none }) (.inl hs) hstep hw rfl hl ht]
    simp only [State.setPwr, hs]
  case pin =>
    have hexec : exec .resetNRelease s = .next (s.setPwr { s.pwr with resetLow := false }).released :=
      congrArg Host.Outcome.next (if_pos hl)
    rw [hexec, State.released_of_free (s := s.setPwr { s.pwr with resetLow := false }) (.inl hs) hstep hw hr rfl ht]
    simp only [State.setPwr, hs]

/-- With no injected failure pending for a step, it starts. -/
theorem State.startStep_of_none (h : s.injArg 0x04 = none) (n : Nat) : s.startStep n = s.armStep n := by
  unfold State.startStep
  rw [if_neg (by simp [h])]

/-- A wake that waits for the supply begins at the step that waits (R92). -/
theorem State.resumeWake_of_waiting (hs : s.pwr.state = .waking) (hh : s.pwr.held = false) (hwarn : s.pwr.warn = false)
    (hw : s.pwr.supplyWait = true) :
    s.resumeWake = (s.setPwr { s.pwr with supplyWait := false }).startStep (max 1 s.pwr.step) := by
  unfold State.resumeWake
  rw [if_neg (by simp [hs, hh, hwarn]), if_pos hw]
  rfl

/-- Settles O33. -/
theorem supplyWaitEnds : Obligations.SupplyWaitEnds := by
  unfold Obligations.SupplyWaitEnds
  intro s hs hw hr hl ht hinj
  let t := s.setPwr { s.pwr with warn := false, warnReal := false }
  have hheld : s.pwr.held = false := by simp [Power.held, hr, hl, ht]
  have hexec : exec .wakeSupplyWaitEnd s = .next t.resumeWake := congrArg Host.Outcome.next (if_pos (by simp [hw, hheld]))
  have hstep := State.startStep_of_none (s := t.setPwr { t.pwr with supplyWait := false }) hinj (max 1 s.pwr.step)
  rw [hexec, State.resumeWake_of_waiting (s := t) hs hheld rfl hw]
  exact congrArg Host.Outcome.next hstep

end Sys2Proof.Machine
end

section
/-! PROOF.
The supply warning and the charge pumps.
-/
namespace Sys2Proof.Machine

variable {s t : State}

/-- The marks of the exposures in progress depend on the exposure unit alone. -/
theorem State.markSW_of_exp (h : t.exp = s.exp) : t.markSW = { t with exp := s.markSW.exp } := by
  unfold State.markSW
  rw [h]
  rfl

/-- The power unit once the warning has asserted (R105, R107). -/
def State.warned (s : State) : Power :=
  { s.pwr with warn := true, hold := s.pwr.hold || !s.flag F.PWR_DIP_POLICY_POLICY, holdCount := false }

/-- What the assertion of the warning leaves of `s`: the power unit, WARN_LATCH, and while VCORE is on the event
SUPPLY_WARN, line 59 and the marks SW (R105 to R107). -/
structure State.WarnedTo (s t : State) : Prop where
  frame : t = { s with
    regs := t.regs, fresh := t.fresh, pwr := s.warned, exp := if s.pwr.rails.vcore then s.markSW.exp else s.exp
    lines := if s.pwr.rails.vcore then s.lines ||| (1#64 <<< 59) else s.lines
    flt := { s.flt with
      events := s.flt.events ++ if s.pwr.rails.vcore then [s.entry 0x10 noUnit s.warnLevel] else [] } }
  latch : t.flag F.PWR_STATUS_WARN_LATCH = true
  kept : s.regsKept t [(F.PWR_STATUS_WARN_LATCH, 0)]

/-- The warning asserts where it was not. -/
theorem State.assertWarn_warnedTo (hw : s.pwr.warn = false) (hlen : s.flt.events.length < 64) :
    s.WarnedTo s.assertWarn := by
  let b := (s.setPwr s.warned).setFlag F.PWR_STATUS_WARN_LATCH true
  have hframe : b = { s with regs := b.regs, fresh := b.fresh, pwr := s.warned } :=
    State.setFlag_frame (s := s.setPwr s.warned) F.PWR_STATUS_WARN_LATCH true 0
  have hlatch : b.flag F.PWR_STATUS_WARN_LATCH = true := State.flag_setFlag _ (by decide) (by decide) _ _
  have hkept : s.regsKept b [(F.PWR_STATUS_WARN_LATCH, 0)] := State.setFlag_kept (s := s.setPwr s.warned) (by decide) _
  have hassert : s.assertWarn =
      if b.pwr.rails.vcore then (b.markSW.raise 0x10 noUnit b.warnLevel).raiseLine 59 else b := by
    unfold State.assertWarn
    rw [if_neg (by simp [hw])]
    rfl
  have hlevel : b.warnLevel = s.warnLevel := congrArg (1620 + 10 * ·) (hkept.fld_apart (by decide))
  have hvcore : b.pwr.rails.vcore = s.pwr.rails.vcore := by rw [hframe]; rfl
  have hmark : b.markSW = { b with exp := s.markSW.exp } := State.markSW_of_exp (by rw [hframe])
  rw [hvcore, hlevel] at hassert
  clear_value b
  cases hv : s.pwr.rails.vcore <;> rw [hv] at hassert
  case false =>
    rw [if_neg Bool.false_ne_true] at hassert
    refine ⟨?_, by rw [hassert]; exact hlatch, by rw [hassert]; exact hkept⟩
    rw [hassert, hv]
    simp only [Bool.false_eq_true, if_false, List.append_nil]
    exact hframe
  case true =>
    rw [if_pos rfl, hmark, State.raise_room (by rw [hframe]; exact hlen)] at hassert
    refine ⟨?_, by rw [hassert]; exact hlatch, by rw [hassert]; exact State.regsKept_trans hkept (State.regsKept_of_regs rfl rfl)⟩
    rw [hassert, hv]
    have hentry : State.entry { b with exp := s.markSW.exp } 0x10 noUnit s.warnLevel = s.entry 0x10 noUnit s.warnLevel := by
      rw [hframe]; rfl
    rw [hentry]
    exact (congrArg (fun u : State => ({ u with exp := s.markSW.exp }.logged (s.entry 0x10 noUnit s.warnLevel)).raiseLine 59) hframe :)

/-! ### Charge pumps (R109) -/

/-- The power unit once pump 2 (or 1) has left regulation at tick `now`. -/
def Power.drooped (p : Power) (second : Bool) (now : Nat) : Power :=
  if second then { p with cp2Ok := false, droop2 := some now } else { p with cp1Ok := false, droop1 := some now }

/-- A pump that leaves regulation while Armed or Streaming: CP_DROOP and its event. -/
theorem State.droop_flagged (second : Bool) (ha : s.analog = true) (hlen : s.flt.events.length < 64)
    (hok : (if second then s.pwr.cp2Ok else s.pwr.cp1Ok) = true) :
    ∃ data, (s.setPwr (s.pwr.drooped second s.clk.now)).flagged (s.droop second true) F.PWR_STATUS_CP_DROOP 0
      [s.entry 0x11 (if second then 2 else 1) data] := by
  have hstate : (s.pwr.drooped second s.clk.now).state = s.pwr.state := by cases second <;> rfl
  have hwas : (if second then s.pwr.cp2Ok || s.pwr.droop2.isSome else s.pwr.cp1Ok || s.pwr.droop1.isSome) = true := by
    cases second <;> simp_all
  have hpwr : (if second then { s.pwr with cp2Ok := false, droop2 := if true && s.analog then some s.clk.now else s.pwr.droop2 }
      else { s.pwr with cp1Ok := false, droop1 := if true && s.analog then some s.clk.now else s.pwr.droop1 }) =
      s.pwr.drooped second s.clk.now := by
    simp only [ha, Bool.and_self, if_true]
    rfl
  have hanalog : (s.setPwr (s.pwr.drooped second s.clk.now)).analog = true := by
    rw [← ha]
    unfold State.analog
    rw [State.setPwr_pwr, hstate]
  unfold State.droop
  simp only [hpwr, hanalog, hwas, Bool.and_self, if_true]
  exact ⟨_, State.setFlag_raise (s := s.setPwr (s.pwr.drooped second s.clk.now)) hlen (by decide) (by decide) (by decide) _ _ _⟩

/-- A pump that has left regulation in this tick reads 0. -/
theorem State.pumpOk_drooped {second : Bool} {p : Power} (ht : t.pwr = p.drooped second t.clk.now) :
    t.pumpOk second = false := by
  unfold State.pumpOk
  rw [ht]
  cases second <;> simp [Power.drooped]

/-- Settles O34. -/
theorem supplyAndPumpsWarn : Obligations.SupplyAndPumpsWarn := by
  unfold Obligations.SupplyAndPumpsWarn
  refine ⟨fun s hrun hlen => ⟨fun hw => ?warn, fun hw hact hs => ?deassert, fun hw hc => ?holdEnd⟩,
    fun second s ha hlen hok => ?droop⟩
  case warn =>
    have hwarned := State.assertWarn_warnedTo (s := s.setPwr { s.pwr with warnReal := true }) hw hlen
    have hexec : exec .supplyWarn s = .next (s.setPwr { s.pwr with warnReal := true }).assertWarn := by
      show Host.Outcome.next (State.testEvent _ 4) = _
      generalize (s.setPwr { s.pwr with warnReal := true }).assertWarn = t at hwarned ⊢
      unfold State.testEvent
      rw [show t.bst.run = none by rw [hwarned.frame]; exact hrun]
    generalize (s.setPwr { s.pwr with warnReal := true }).assertWarn = t at *
    obtain ⟨hframe, hlatch, hkept⟩ := hwarned
    have hpwr := congrArg State.pwr hframe
    have hflt := congrArg State.flt hframe
    have hexp := congrArg State.exp hframe
    refine ⟨t, hexec, ?_, hpwr, hlatch, State.regsKept_trans (State.regsKept_of_regs rfl rfl) hkept, hflt, hexp⟩
    rw [hpwr, hflt, hexp]
    exact hframe
  case deassert =>
    let t := (s.setPwr { s.pwr with warnReal := false }).deassertWarn
    have ht : t = s.setPwr { s.pwr with warn := false, warnReal := false, holdCount := s.pwr.hold } := if_pos hw
    have hexec : exec .supplyWarnDeassert s = .next t.resumeWake := by
      show Host.Outcome.next s.supplyReturns = _
      unfold State.supplyReturns
      simp [hact, t]
    rw [hexec, State.resumeWake, if_pos (.inl (by rw [ht]; exact hs)), ht]
    rfl
  case holdEnd => exact congrArg Host.Outcome.next (if_pos (by simp [hw, hc]))
  case droop =>
    obtain ⟨data, hframe, hflag, hkept⟩ := State.droop_flagged second ha hlen hok
    have hexec : exec (.cpDroop second) s = .next ((s.droop second true).setFlt { (s.droop second true).flt with
        active := (s.droop second true).flt.active.filter (· != if second then 2 else 1) }) := rfl
    generalize s.droop second true = t at *
    have hpwr : t.pwr = s.pwr.drooped second s.clk.now := congrArg State.pwr hframe
    have hflt := congrArg State.flt hframe
    refine ⟨_, _, hexec, ?_, hpwr, State.pumpOk_drooped (p := s.pwr) (by rw [State.setFlt_pwr, hpwr, hframe]; rfl), hflag,
      State.regsKept_trans (State.regsKept_of_regs rfl rfl) (State.regsKept_trans hkept (State.regsKept_of_regs rfl rfl)),
      by rw [State.setFlt_flt, hflt]; rfl, rfl, rfl⟩
    rw [State.setFlt_pwr, hpwr]
    exact (congrArg (fun u : State => u.setFlt
      { t.flt with active := t.flt.active.filter (· != if second then 2 else 1) }) hframe :)

end Sys2Proof.Machine
end

section
/-! PROOF.
CLK_REFDIV, relocks and the return of REFCLK.
-/
namespace Sys2Proof.Machine

variable {s : State}

/-- A write of CLK_REFDIV in a live state is judged and, where accepted, stored. -/
theorem exec_clkRefdivWrite (h : s.live = true) (v : Word) :
    exec (.clkRefdivWrite v) s = .next (ifOk s (s.refdivCheck v) (s.writeRefdiv v)).2 := by
  have hwrite : s.writeMasked .port R.CLK_REFDIV v 0xFFFF false =
      ifOk s (s.refdivCheck (merge (s.reg R.CLK_REFDIV) v 0xFFFF)) (s.writeRefdiv (merge (s.reg R.CLK_REFDIV) v 0xFFFF)) := rfl
  show Host.Outcome.next (s.portWrite R.CLK_REFDIV v false) = _
  rw [State.portWrite_of_live h, hwrite, merge_full]

/-- Outside Streaming and while no relock runs, FREQ up to 60 is accepted. -/
theorem State.refdivCheck_ok {v : Word} (hs : s.pwr.state ≠ .streaming) (hr : s.clk.relocking = false)
    (hv : F.CLK_REFDIV_FREQ.of v ≤ 60) : s.refdivCheck v = Status.ok := by
  unfold State.refdivCheck
  rw [if_neg (by omega), if_neg hs, if_neg (by simp [hr])]

/-- Every other write is refused. -/
theorem State.refdivCheck_refused {v : Word}
    (h : 60 < F.CLK_REFDIV_FREQ.of v ∨ s.pwr.state = .streaming ∨ s.clk.relocking = true) :
    s.refdivCheck v ≠ Status.ok := by
  unfold State.refdivCheck
  split_ifs with hv hs hr
  · decide
  · decide
  · decide
  · exact absurd h (by simp [hv, hs, hr])

/-- Time held: the clock unit, and TIME_GAP. -/
theorem State.holdTime_spec {t : State} (ht : s.holdTime = t) :
    t = { s with regs := t.regs, fresh := t.fresh, clk := { s.clk with held := true } } ∧
      t.flag F.CLK_STATUS_TIME_GAP = true ∧ s.regsKept t [(F.CLK_STATUS_TIME_GAP, 0)] := by
  subst ht
  exact ⟨State.setFlag_frame (s := s.setClk { s.clk with held := true }) F.CLK_STATUS_TIME_GAP true 0,
    State.flag_setFlag _ (by decide) (by decide) _ _,
    State.setFlag_kept (s := s.setClk { s.clk with held := true }) (by decide) true⟩

/-- FREQ stored. -/
theorem State.setFreq_spec (v : Word) {t : State} (ht : s.setFld F.CLK_REFDIV_FREQ (F.CLK_REFDIV_FREQ.of v) = t) :
    t = { s with regs := t.regs } ∧ t.fld F.CLK_REFDIV_FREQ = F.CLK_REFDIV_FREQ.of v ∧
      s.regsKept t [(F.CLK_REFDIV_FREQ, 0)] ∧ t.gated = s.gated := by
  subst ht
  have hkept : s.regsKept (s.setFld F.CLK_REFDIV_FREQ (F.CLK_REFDIV_FREQ.of v)) [(F.CLK_REFDIV_FREQ, 0)] :=
    State.setFld_kept (by decide) _
  exact ⟨rfl, State.fld_setFld_of_lt (by decide) (Nat.mod_lt _ (Nat.two_pow_pos _)), hkept, hkept.flag_apart (by decide)⟩

/-- Settles O35. -/
theorem relocks : Obligations.Relocks := by
  unfold Obligations.Relocks
  intro v s hlen
  refine ⟨fun hlive hs hr hv => ⟨fun hg => ?relock, fun hg => ?owed⟩, fun hlive href => ?refused,
    fun hpll hr => ?locked, fun hpll hr => ⟨fun hl => ?returned, fun hl ho => ?owedReturn⟩⟩
  case relock =>
    obtain ⟨hframe, hfreq, hkept, hgate⟩ := State.setFreq_spec (s := s) v rfl
    have hexec := exec_clkRefdivWrite hlive v
    rw [ifOk, if_pos (State.refdivCheck_ok hs hr hv), State.writeRefdiv] at hexec
    generalize s.setFld F.CLK_REFDIV_FREQ (F.CLK_REFDIV_FREQ.of v) = t at *
    simp only [hgate, hg, Bool.false_eq_true, if_false] at hexec
    obtain ⟨hframe', hgap, hkept'⟩ := State.holdTime_spec
      (s := t.setClk { t.clk with relocking := true, locked := false, toFull := true }) rfl
    refine ⟨_, hexec, ?_, (hkept'.fld_apart (by decide)).trans hfreq, hgap,
      hkept.append (State.regsKept_trans (State.regsKept_of_regs rfl rfl) hkept')⟩
    refine hframe'.trans ?_
    rw [hframe]
    rfl
  case owed =>
    obtain ⟨hframe, hfreq, hkept, hgate⟩ := State.setFreq_spec (s := s) v rfl
    have hexec := exec_clkRefdivWrite hlive v
    rw [ifOk, if_pos (State.refdivCheck_ok hs hr hv), State.writeRefdiv] at hexec
    generalize s.setFld F.CLK_REFDIV_FREQ (F.CLK_REFDIV_FREQ.of v) = t at *
    simp only [hgate, hg, if_true] at hexec
    exact ⟨_, hexec, by rw [hframe]; rfl, hfreq, State.regsKept_trans hkept (State.regsKept_of_regs rfl rfl)⟩
  case refused =>
    rw [exec_clkRefdivWrite hlive, ifOk, if_neg (State.refdivCheck_refused href)]
  case locked =>
    let t := s.setClk { s.clk with
      relocking := false, locked := true, refPresent := true, boot := !s.clk.toFull, held := false }
    have hexec : exec .clkRelocked s = .next (t.raise 0x19 noUnit (s.fld F.CLK_REFDIV_FREQ)) :=
      congrArg Host.Outcome.next (if_pos (by simp [hpll, hr]))
    exact hexec.trans (congrArg Host.Outcome.next (State.raise_room (s := t) hlen _ _ _))
  case returned =>
    have hexec : exec .refPresent s = .next s.refReturned := rfl
    rw [hexec, State.refReturned, if_pos (by simp [hpll, hr, hl])]
    simp only [hl, Bool.false_eq_true, if_false]
    rfl
  case owedReturn =>
    have hexec : exec .refPresent s = .next s.refReturned := rfl
    rw [State.refReturned, if_pos (by simp [hpll, hr, ho])] at hexec
    simp only [hl, if_true] at hexec
    obtain ⟨hframe, hgap, hkept⟩ := State.holdTime_spec
      (s := s.setClk { s.clk with refPresent := true, relocking := true, locked := false, owed := false }) rfl
    exact ⟨_, hexec, hframe, hgap, State.regsKept_trans (State.regsKept_of_regs rfl rfl) hkept⟩

end Sys2Proof.Machine
end

section
/-! PROOF.
REFCLK losses, where nothing of a stream is left, and their acknowledgement.
-/
namespace Sys2Proof.Machine

variable {s : State}

/-! ### A stream with nothing in it -/

/-- The parts of `State.idleStream`. -/
theorem State.idleStream_iff : s.idleStream = true ↔ s.exp.exposing = none ∧ s.exp.reading = none ∧
    s.exp.between = none ∧ s.exp.tdiLines = [] ∧ ∀ e ∈ s.lanes.lanes, e.2.spill = [] := by
  simp [State.idleStream, and_assoc]

/-- With no frame left, abandoning all drops the flash energies alone. -/
theorem State.abandonAll_of_idle (h : s.idleStream = true) : s.abandonAll = s.setAux { s.aux with flash := [] } := by
  obtain ⟨he, hr, hb, -, -⟩ := State.idleStream_iff.1 h
  unfold State.abandonAll
  simp only [he, hr, hb, Option.toList_none, List.flatMap_nil, List.append_nil, State.usePages, List.foldl_nil]
  rw [show { s.exp with exposing := none, reading := none, between := none } = s.exp by rw [← he, ← hr, ← hb]]
  rfl

/-- Stopped lanes that hold no spill give back no page. -/
theorem State.stopLanes_of_unspilled (h : ∀ e ∈ s.lanes.lanes, e.2.spill = []) (how : FolioEnd) :
    s.stopLanes how = { s with lanes := (s.stopLanes how).lanes, free := s.free + 13 } := by
  have hpages : (s.lanes.lanes.flatMap fun e => e.2.spill.map Prod.fst) = [] := by
    rw [List.flatMap_eq_nil_iff]
    intro e he
    rw [h e he, List.map_nil]
  unfold State.stopLanes
  rw [hpages]
  rfl

/-! ### Losses (R148 to R150) -/

/-- The clock unit after a loss. -/
def Clock.lost (x : Clock) : Clock :=
  { x with
    locked := false, refPresent := false, relocking := false, owed := false
    toFull := x.relocking || x.owed || !x.boot, held := true }

/-- The registers and the clock unit after a loss is declared. -/
def State.lossShown (s : State) (cause : Nat) : State :=
  (((s.setClk { s.clk.lost with held := s.clk.held }).setFlag F.CLK_STATUS_LOST true).setFld F.CLK_STATUS_CAUSE
    cause).holdTime

/-- What a declared loss shows: LOST, CAUSE and TIME_GAP. -/
theorem State.lossShown_spec {cause : Nat} (hc : cause < 4) {t : State} (ht : s.lossShown cause = t) :
    t = { s with regs := t.regs, fresh := t.fresh, clk := s.clk.lost } ∧ t.flag F.CLK_STATUS_LOST = true ∧
      t.fld F.CLK_STATUS_CAUSE = cause ∧ t.flag F.CLK_STATUS_TIME_GAP = true ∧
      s.regsKept t [(F.CLK_STATUS_LOST, 0), (F.CLK_STATUS_CAUSE, 0), (F.CLK_STATUS_TIME_GAP, 0)] := by
  let a := s.setClk { s.clk.lost with held := s.clk.held }
  let b := a.setFlag F.CLK_STATUS_LOST true
  let c := b.setFld F.CLK_STATUS_CAUSE cause
  obtain ⟨hframe, hgap, hkept⟩ := State.holdTime_spec (s := c) ht
  have hb : b = { a with regs := b.regs, fresh := b.fresh } := State.setFlag_frame F.CLK_STATUS_LOST true 0
  have hlost : b.flag F.CLK_STATUS_LOST = true := State.flag_setFlag _ (by decide) (by decide) _ _
  have hcause : c.fld F.CLK_STATUS_CAUSE = cause := State.fld_setFld_of_lt (by decide) hc
  have hkb : s.regsKept b [(F.CLK_STATUS_LOST, 0)] := State.setFlag_kept (s := a) (by decide) _
  have hkc : b.regsKept c [(F.CLK_STATUS_CAUSE, 0)] := State.setFld_kept (by decide) _
  refine ⟨?_, ((hkc.append hkept).flag_apart (by decide)).trans hlost, (hkept.fld_apart (by decide)).trans hcause, hgap,
    hkb.append (hkc.append hkept)⟩
  refine hframe.trans ?_
  rw [show c.clk = a.clk by rw [State.setFld_clk, State.setFlag_clk]]
  exact (congrArg (fun u : State => { u with regs := t.regs, fresh := t.fresh, clk := s.clk.lost }) hb :)

/-- A loss declared where nothing of a stream is left. -/
theorem State.declareLoss_of_idle (hp : s.pllOn = true) (hl : s.clk.locked = true ∨ s.clk.relocking = true)
    (hi : s.idleStream = true) (hlen : s.flt.events.length < 64) (cause : Nat) {t u : State}
    (ht : s.lossShown cause = t) (hf : t = { s with regs := t.regs, fresh := t.fresh, clk := s.clk.lost })
    (hu : s.declareLoss cause = u) :
    u = { s with
      regs := t.regs, fresh := t.fresh, clk := s.clk.lost, lanes := u.lanes, free := s.free + 13
      aux := { s.aux with flash := [] }
      flt := { s.flt with events := s.flt.events ++ [s.entry 0x18 noUnit cause] } } := by
  have hu' : u = (t.raise 0x18 noUnit cause).abandonAll.cutLanes := by
    rw [← hu, State.declareLoss, if_pos (by simpa [hp] using hl), ← ht]
    rfl
  have hroom : t.raise 0x18 noUnit cause = t.logged (s.entry 0x18 noUnit cause) := by
    rw [State.raise_room (by rw [hf]; exact hlen)]
    rw [hf]
    rfl
  have hidle : (t.logged (s.entry 0x18 noUnit cause)).idleStream = true := by rw [hf]; exact hi
  obtain ⟨-, -, -, -, hspill⟩ := State.idleStream_iff.1 hidle
  rw [hroom, State.abandonAll_of_idle hidle] at hu'
  have hstop := State.stopLanes_of_unspilled (s := (t.logged (s.entry 0x18 noUnit cause)).setAux
    { (t.logged (s.entry 0x18 noUnit cause)).aux with flash := [] }) hspill .void
  refine hu'.trans (hstop.trans ?_)
  rw [← show u.lanes = State.lanes (State.stopLanes _ .void) from congrArg State.lanes hu']
  rw [hf]
  rfl

/-- In Standby and Armed a loss changes no power state (R130). -/
theorem State.refclkLoss_of_up (hs : s.pwr.state = .standby ∨ s.pwr.state = .armed)
    (hl : s.clk.locked = true ∨ s.clk.relocking = true) {cause : Nat}
    (hp : (s.declareLoss cause).pwr = s.pwr) : s.refclkLoss cause = s.declareLoss cause := by
  unfold State.refclkLoss
  rw [if_neg (by rcases hl with h | h <;> simp [h])]
  simp only [hp]
  rcases hs with h | h <;> rw [h]

/-! ### The acknowledgement (R152, R155) -/

/-- A register stored as it is. -/
theorem State.setReg_self_kept (a i : Nat) (l : List (Field × Nat)) : s.regsKept (s.setReg a (s.reg a i) i) l := by
  intro b j k _ _
  refine ⟨?_, rfl⟩
  by_cases hk : regKey b j = regKey a i
  · have hself : (s.setReg a (s.reg a i) i).reg b j = s.reg b j := by
      unfold State.reg State.setReg
      dsimp only
      rw [hk]
      exact Cells.get_set_self _ _ _
    rw [hself]
  · rw [s.reg_setReg_ne _ hk]

/-- A plain write of no bit stores the register as it is. -/
theorem State.storeReg_none {a : Nat} (ha : (Machine.limits.filter fun x => x.field.addr = a) = []) (i : Nat) (v : Word) :
    s.storeReg a i v 0 = s.setReg a (s.reg a i) i := by
  unfold State.storeReg limitWord
  rw [ha]
  have hones (w : Word) : w &&& 65535#16 = w := BitVec.and_allOnes
  simp [storedAfter, merge, State.reaches, hones]

/-- The state as the acknowledgement of a loss finds it: CLK_STATUS stored as it is. -/
def State.ackSeen (s : State) : State := s.setReg R.CLK_STATUS (s.reg R.CLK_STATUS)

theorem State.ackSeen_kept (l : List (Field × Nat)) : s.regsKept s.ackSeen l := State.setReg_self_kept _ _ _

/-- A write of 1 to CLK_STATUS.LOST in a live state. -/
theorem exec_clkLostAck (h : s.live = true) : exec .clkLostAck s = .next s.ackSeen.openGate := by
  have hwrite : s.writeMasked .port R.CLK_STATUS 4 4 false = (Status.ok, (s.storeReg R.CLK_STATUS 0 4 0).openGate) := rfl
  show Host.Outcome.next (s.hostWrite .port R.CLK_STATUS 4 4 false) = _
  rw [State.hostWrite_of_live h, hwrite, State.storeReg_none (by decide)]
  rfl

/-- Settles O36. -/
theorem referenceClockLost : Obligations.ReferenceClockLost := by
  unfold Obligations.ReferenceClockLost
  refine ⟨fun s c cause hs hi hlen hc => ?loss, fun s hlive hg => ⟨fun hl hnot htdi => ?ack, fun hno => ?ignored⟩⟩
  case loss =>
    have hl : s.clk.locked = true ∨ s.clk.relocking = true := by
      rcases hc with ⟨-, -, h⟩ | ⟨-, -, h⟩ | ⟨-, -, h⟩
      · exact .inl h
      · exact .inl h
      · exact .inr h
    have hcause : cause < 4 := by rcases hc with ⟨-, h, -⟩ | ⟨-, h, -⟩ | ⟨-, h, -⟩ <;> omega
    have hexec : exec c s = .next (s.refclkLoss cause) := by
      rcases hc with ⟨rfl, rfl, -⟩ | ⟨rfl, rfl, -⟩ | ⟨rfl, rfl, h⟩
      · rfl
      · rfl
      · exact congrArg Host.Outcome.next (if_pos h)
    have hpll : s.pllOn = true := by rcases hs with h | h <;> simp [State.pllOn, State.up, h]
    obtain ⟨hshown, hlost, hcaused, hgap, hkept⟩ := State.lossShown_spec (s := s) hcause rfl
    have hloss := State.declareLoss_of_idle hpll hl hi hlen cause rfl hshown rfl
    rw [State.refclkLoss_of_up hs hl (by rw [hloss])] at hexec
    generalize s.lossShown cause = t at *
    generalize s.declareLoss cause = u at *
    have hclk := congrArg State.clk hloss
    have hflt := congrArg State.flt hloss
    have hregs : u.regs = t.regs := by rw [hloss]
    have hfresh : u.fresh = t.fresh := by rw [hloss]
    have hfld : ∀ f i, u.fld f i = t.fld f i := fun f i => by rw [State.fld, State.reg, hregs, State.fld, State.reg]
    refine ⟨u, hexec, ?_, hclk, (congrArg (· == 1) (hfld _ _)).trans hlost, (hfld _ _).trans hcaused,
      (congrArg (· == 1) (hfld _ _)).trans hgap, State.regsKept_trans hkept (State.regsKept_of_regs hregs hfresh), ?_⟩
    · rw [hclk, hflt, hregs, hfresh]
      exact hloss
    · rw [hflt, State.entry, Nat.mod_eq_of_lt (show cause < 2 ^ 16 by omega)]
  case ack =>
    have hbit : F.CLK_STATUS_LOST.of (s.freshBits R.CLK_STATUS) = 0 := by
      have : F.CLK_STATUS_LOST.of (s.freshBits R.CLK_STATUS) < 2 := Nat.mod_lt _ (by decide)
      omega
    have hgate : s.ackSeen.gated = true := ((s.ackSeen_kept []).flag_apart (by decide)).trans hg
    let a := s.ackSeen.setFld F.CLK_STATUS_LOST 0
    let b := a.setFld F.CLK_STATUS_CAUSE 0
    have ha : s.regsKept a [(F.CLK_STATUS_LOST, 0)] :=
      State.regsKept_trans (s.ackSeen_kept _) (State.setFld_kept (by decide) 0)
    have hb : a.regsKept b [(F.CLK_STATUS_CAUSE, 0)] := State.setFld_kept (by decide) 0
    have hopen : s.ackSeen.openGate = b.markGap := by
      have htdi' : b.markGap.restartTdi = b.markGap := 
        if_neg (by rw [show b.markGap.exp.tdiCtx = none from htdi]; simp)
      rw [State.openGate, if_pos (by simp only [hgate, show s.ackSeen.clk.locked = true from hl,
        show s.ackSeen.freshBits R.CLK_STATUS = s.freshBits R.CLK_STATUS from rfl, hbit]; rfl),
        State.setFlag_unmarked (by rfl)]
      exact htdi'
    refine ⟨_, (exec_clkLostAck hlive).trans (congrArg _ hopen), rfl, ?_, State.fld_setFld_of_lt (by decide) (by decide),
      fun q hq hen => ?_, ha.append hb⟩
    · exact (hb.flag_apart (by decide)).trans (congrArg (· == 1) (State.fld_setFld_of_lt (by decide) (by decide)))
    · have hen' : (b.fld F.QR_ENABLE_EN).testBit q = true := by
        rw [(ha.append hb).fld_apart (by decide), Nat.testBit_eq_decide_div_mod_eq, hen]
        rfl
      have hq12 : q < 12 := by
        by_contra hge
        exact absurd (Nat.testBit_lt_two_pow (Nat.lt_of_lt_of_le (b.fld_lt F.QR_ENABLE_EN 0)
          (Nat.pow_le_pow_right (by decide) (show 12 ≤ q by omega)))) (by rw [hen']; decide)
      show (b.exp.gap ||| BitVec.ofNat 12 (b.fld F.QR_ENABLE_EN)).getLsbD q = true
      rw [BitVec.getLsbD_or, BitVec.getLsbD_ofNat, hen', decide_eq_true hq12]
      simp
  case ignored =>
    have hclosed : s.ackSeen.openGate = s.ackSeen := by
      rw [State.openGate, if_neg]
      rcases hno with h | h
      · simp [State.ackSeen, h]
      · simp only [show s.ackSeen.freshBits R.CLK_STATUS = s.freshBits R.CLK_STATUS from rfl, h]
        simp
    exact ⟨_, (exec_clkLostAck hlive).trans (congrArg _ hclosed), rfl, s.ackSeen_kept []⟩

end Sys2Proof.Machine
end

section
/-! PROOF.
Slots: their beginning, and their end without an edge, after a fetch, and after a framing error.
-/
namespace Sys2Proof.Machine

variable {s : State}

/-- A count goes up by one, or stays at its maximum. -/
theorem State.count_counts {f : Field} {i : Nat} (hf : f.lo ≤ f.hi ∧ f.hi < 16) : s.counts (s.count f i) f i := by
  have hpos : 0 < 2 ^ (f.hi + 1 - f.lo) := Nat.two_pow_pos _
  unfold State.counts State.count
  rw [State.fld_setFld s hf.1 hf.2]
  have hlt := s.fld_lt f i
  have hsat : satSucc (2 ^ (f.hi + 1 - f.lo) - 1) (s.fld f i) = min (2 ^ (f.hi + 1 - f.lo) - 1) (s.fld f i + 1) := by
    unfold satSucc
    split <;> omega
  rw [hsat, Nat.mod_eq_of_lt (by omega)]

/-- A framing error, a CRC failure or a SHORT packet: its count, and ERR (R191). -/
theorem State.portError_spec {f : Field} (hf : f.lo ≤ f.hi ∧ f.hi < 16) (ha : f.addr ≠ R.CP_STATUS) {t : State}
    (ht : s.portError f = t) :
    t = { s with regs := t.regs, fresh := t.fresh } ∧ s.counts t f ∧ t.flag F.CP_STATUS_ERR = true ∧
      s.regsKept t [(f, 0), (F.CP_STATUS_ERR, 0)] := by
  subst ht
  have hc : s.regsKept (s.count f) [(f, 0)] := State.setFld_kept ⟨by decide, hf.1, hf.2⟩ _
  have he : (s.count f).regsKept (s.portError f) [(F.CP_STATUS_ERR, 0)] := State.setFlag_kept (by decide) _
  refine ⟨State.setFlag_frame (s := s.count f) F.CP_STATUS_ERR true 0, ?_, State.flag_setFlag _ (by decide) (by decide) _ _,
    hc.append he⟩
  exact (he.fld_eq (f := f) (i := 0) (by decide) (List.forall_mem_singleton.2 fun h => absurd h.symm ha)).trans
    (State.count_counts hf)

/-- The port as a slot begins, whatever response it holds. -/
def Port.opened (p : Port) : Port :=
  { p with
    inSlot := true, ready := false, readyBefore := p.ready, prepAtBegin := false, pendAtBegin := false, sdo := []
    sdoFill := 0xFF }

section
variable (ha : s.portAnswers = true) (hi : s.port.inSlot = false)
include ha hi

/-- SCS_N falls with no response held (R161). -/
theorem State.slotBegin_of_empty (hr : s.port.resp = .empty) : s.slotBegin = s.setPort { s.port.opened with undo := [] } := by
  simp [State.slotBegin, ha, hi, hr, Port.opened]

/-- SCS_N falls with a response in preparation (R161). -/
theorem State.slotBegin_of_prep {r : Response} {b : Bool} (hr : s.port.resp = .prep r b) :
    s.slotBegin = s.setPort { s.port.opened with prepAtBegin := true, sdoFill := 0xFE } := by
  simp [State.slotBegin, ha, hi, hr, Port.opened]

/-- SCS_N falls with a response pending (R161). -/
theorem State.slotBegin_of_pend {r : Response} (hr : s.port.resp = .pend r) :
    s.slotBegin = s.setPort { s.port.opened with pendAtBegin := true, sdo := r.bytes (s.portByte r) } := by
  simp [State.slotBegin, ha, hi, hr, Port.opened]

end

/-- What a slot of `n` bits leaves of the response: one that was pending as it began, and is shifted out, is released
(R171). -/
def Port.respAfter (p : Port) (n : Nat) : RespState :=
  match p.resp with
  | .pend r => if p.pendAtBegin = true ∧ 8 * p.sdo.length ≤ n then .empty else .pend r
  | x => x

/-- A port that releases what a slot of `n` bits has shifted out. -/
theorem Port.release_eq (p : Port) (n : Nat) :
    (if p.pendAtBegin && decide (8 * p.sdo.length ≤ n) then p.release else p) = { p with resp := p.respAfter n } := by
  obtain ⟨resp, burst, kept, inSlot, prepAtBegin, pendAtBegin, sdo, fill, ready, before, undo, mode3, onSclk⟩ := p
  cases resp with
  | empty => simp [Port.release, Port.respAfter]
  | prep r b => simp [Port.release, Port.respAfter]
  | pend r =>
    cases pendAtBegin with
    | false => simp [Port.respAfter]
    | true => by_cases hn : 8 * sdo.length ≤ n <;> simp [Port.release, Port.respAfter, hn]

/-- What a slot of `n` bits shifts out. -/
theorem State.shiftedOut_eq (n : Nat) : s.shiftedOut n = s.setPort { s.port with resp := s.port.respAfter n } := by
  rw [← Port.release_eq]
  unfold State.shiftedOut
  split <;> rfl

/-- The port once SCS_N has risen, in the SPI mode and on the clock that are due. -/
def State.portClosed (s : State) : Port :=
  { s.port with
    inSlot := false, readyBefore := false, prepAtBegin := false, pendAtBegin := false, sdo := [], sdoFill := 0xFF
    onSclk := s.pwr.state.onSclk, mode3 := s.flag F.CP_MODE_SPI }

/-- A fetch slot: eight bits that are 1 (R164). -/
theorem State.slotEnd_of_fetch {sdi : List Bool} (hi : s.port.inSlot = true) (h8 : sdi.take 8 = List.replicate 8 true)
    (hn : sdi.length ≠ 24) : s.slotEnd sdi = (s.shiftedOut sdi.length).closeSlot := by
  cases sdi with
  | nil => simp at h8
  | cons b sdi =>
    have hb : b = true := by simpa using congrArg List.head? h8
    subst hb
    have hall : ((true :: sdi).take 8).all id = true := by rw [h8]; rfl
    simp only [State.slotEnd, hi, Bool.not_true, Bool.false_eq_true, if_false, State.slotBits, hn, hall, if_true]

/-- A slot whose first bit is 0, and that is no short frame, is a framing error (R191). -/
theorem State.slotEnd_of_framing {sdi : List Bool} (hi : s.port.inSlot = true) (h0 : sdi.head? = some false)
    (hn : sdi.length ≠ 24 ∨ s.flag F.CP_MODE_LEGACY_EN = false) : s.slotEnd sdi =
      ((if s.flag F.CP_MODE_LEGACY_EN then s else s.shiftedOut sdi.length).portError F.CP_ERR_FRAME_ERRS).closeSlot := by
  cases sdi with
  | nil => simp at h0
  | cons b sdi =>
    have hb : b = false := by simpa using h0
    subst hb
    have hno : ∀ t : State, t.flag F.CP_MODE_LEGACY_EN = s.flag F.CP_MODE_LEGACY_EN →
        ¬((false :: sdi).length = 24 ∧ t.flag F.CP_MODE_LEGACY_EN = true) := by
      rintro t ht ⟨hlen, hleg⟩
      rw [ht] at hleg
      rcases hn with h | h
      · exact h hlen
      · exact absurd hleg (by simp [h])
    simp only [State.slotEnd, hi, Bool.not_true, Bool.false_eq_true, if_false]
    rw [if_neg (hno _ ?_)]
    split
    · rfl
    · rw [State.shiftedOut_eq]
      rfl

/-- With LEGACY_EN at 0 a slot that is a framing error shifts out what another one would. -/
theorem State.respLeft_eq (n : Nat) :
    (if s.flag F.CP_MODE_LEGACY_EN then s.port.resp else s.port.respAfter n) =
      match s.port.resp with
      | .pend x => if s.flag F.CP_MODE_LEGACY_EN = false ∧ s.port.pendAtBegin = true ∧ 8 * s.port.sdo.length ≤ n
          then RespState.empty else .pend x
      | x => x := by
  unfold Port.respAfter
  cases s.port.resp <;> cases s.flag F.CP_MODE_LEGACY_EN <;> simp

/-- Settles O37. -/
theorem slotsMove : Obligations.SlotsMove := by
  unfold Obligations.SlotsMove
  intro s sdi r bulk
  refine ⟨fun ha hi => ?begins, fun hi => ⟨?ignored, fun h8 hn hr hp hout => ?fetch, fun h0 hn => ?framing⟩,
    fun hdue hburst hr => ?ready⟩
  case begins =>
    cases hr : s.port.resp with
    | empty =>
      exact ⟨_, congrArg Host.Outcome.next (State.slotBegin_of_empty ha hi hr), rfl, rfl, rfl, rfl, hr, rfl, rfl, rfl,
        fun _ => ⟨rfl, rfl⟩, nofun, nofun⟩
    | prep x b =>
      exact ⟨_, congrArg Host.Outcome.next (State.slotBegin_of_prep ha hi hr), rfl, rfl, rfl, rfl, hr, rfl, rfl, rfl,
        nofun, fun _ => ⟨rfl, rfl⟩, nofun⟩
    | pend x =>
      refine ⟨_, congrArg Host.Outcome.next (State.slotBegin_of_pend ha hi hr), rfl, rfl, rfl, rfl, hr, rfl, rfl, rfl,
        nofun, nofun, fun hx => ?_⟩
      rw [← RespState.pend.inj hx]
      rfl
  case ignored =>
    show Host.Outcome.next (s.slotEnd []) = _
    rw [State.slotEnd, if_neg (by simp [hi])]
    rfl
  case fetch =>
    have hleft : s.port.respAfter sdi.length = .empty := by simp [Port.respAfter, hr, hp, hout]
    show Host.Outcome.next (s.slotEnd sdi) = _
    rw [State.slotEnd_of_fetch hi h8 hn, State.shiftedOut_eq, hleft]
    rfl
  case framing =>
    let left := if s.flag F.CP_MODE_LEGACY_EN then s.port.resp else s.port.respAfter sdi.length
    have hleft : (if s.flag F.CP_MODE_LEGACY_EN then s else s.shiftedOut sdi.length) = s.setPort { s.port with resp := left } := by
      rw [State.shiftedOut_eq]
      unfold left
      split <;> rfl
    have hexec : exec (.slotEnd sdi) s = .next _ := congrArg Host.Outcome.next (State.slotEnd_of_framing hi h0 hn)
    rw [hleft] at hexec
    obtain ⟨hframe, hcount, herr, hkept⟩ := State.portError_spec (s := s.setPort { s.port with resp := left })
      (f := F.CP_ERR_FRAME_ERRS) (by decide) (by decide) rfl
    generalize (s.setPort { s.port with resp := left }).portError F.CP_ERR_FRAME_ERRS = t at *
    have hmode : t.flag F.CP_MODE_SPI = s.flag F.CP_MODE_SPI := hkept.flag_apart (by decide)
    have hport : t.closeSlot.port = { s.portClosed with resp := left } := by
      unfold State.closeSlot
      rw [hmode, hframe]
      rfl
    refine ⟨_, hexec, ?_, hcount, herr, State.regsKept_trans (State.regsKept_of_regs rfl rfl)
      (State.regsKept_trans hkept (State.regsKept_of_regs rfl rfl))⟩
    have hclose : t.closeSlot = t.setPort { s.portClosed with resp := left } := by rw [← hport]; rfl
    rw [hclose, show left = _ from s.respLeft_eq sdi.length]
    exact (congrArg (fun u : State => u.setPort { s.portClosed with resp := _ }) hframe :)
  case ready =>
    show Host.Outcome.next s.respReady = _
    simp [State.respReady, State.dueApply_of hdue, State.endBurst, hburst, hr]
    rfl

end Sys2Proof.Machine
end

section
/-! PROOF.
What a fault-log entry and a checked read leave alone.
-/
namespace Sys2Proof.Machine

variable {s t u : State}

/-- Fields that lie within other fields listed. -/
theorem State.regsKept.widen {l m : List (Field × Nat)} (h : s.regsKept t l)
    (hs : ∀ x ∈ l, ∃ y ∈ m, y.1.addr = x.1.addr ∧ y.2 = x.2 ∧ y.1.lo ≤ x.1.lo ∧ x.1.hi ≤ y.1.hi) : s.regsKept t m := by
  refine fun a i b hi hb => h a i b hi fun ⟨x, hx, ha, hxi, hlo, hhi⟩ => hb ?_
  obtain ⟨y, hy, hya, hyi, hylo, hyhi⟩ := hs x hx
  exact ⟨y, hy, hya.trans ha, hyi.trans hxi, by omega, by omega⟩

/-- The registers in which the fault log and the checkers report. -/
def faultWords : List (Field × Nat) :=
  [(Field.word R.MEM_STATUS, 0), (Field.word R.FLT_STATUS, 0), (Field.word R.FLT_LOG_WR, 0), (F.FLT_EV_LOST_COUNT, 0)]

/-- From `s` to `t` only the memories, the logs and the registers of `faultWords` have changed. -/
structure State.Reports (s t : State) : Prop where
  frame : t = { s with
    regs := t.regs, fresh := t.fresh, mem := t.mem, flt := { s.flt with events := t.flt.events, head := t.flt.head } }
  kept : s.regsKept t faultWords
  grows : ∃ l, t.flt.events = s.flt.events ++ l

theorem State.Reports.refl : s.Reports s := ⟨rfl, State.regsKept_refl, [], (List.append_nil _).symm⟩

theorem State.Reports.trans (h : s.Reports t) (h' : t.Reports u) : s.Reports u where
  frame := by
    have he := h'.frame
    rw [h.frame] at he
    exact he
  kept := State.regsKept_trans h.kept h'.kept
  grows := by
    obtain ⟨l, hl⟩ := h.grows
    obtain ⟨l', hl'⟩ := h'.grows
    exact ⟨l ++ l', by rw [hl', hl, List.append_assoc]⟩

/-- Memories replaced. -/
theorem State.Reports.setMem (m : Memory) : s.Reports (s.setMem m) :=
  ⟨rfl, State.regsKept_of_regs rfl rfl, [], (List.append_nil _).symm⟩

/-- A field of `faultWords` written. -/
theorem State.Reports.setFld {f : Field} (v : Nat) (hf : f.lo ≤ f.hi ∧ f.hi < 16)
    (hm : ∃ y ∈ faultWords, y.1.addr = f.addr ∧ y.2 = 0 ∧ y.1.lo ≤ f.lo ∧ f.hi ≤ y.1.hi) : s.Reports (s.setFld f v) where
  frame := rfl
  kept := (State.setFld_kept ⟨by decide, hf⟩ v).widen (by rwa [List.forall_mem_singleton])
  grows := ⟨[], (List.append_nil _).symm⟩

/-- A flag of `faultWords` written. -/
theorem State.Reports.setFlag {f : Field} (b : Bool) (hf : f.lo ≤ f.hi ∧ f.hi < 16)
    (hm : ∃ y ∈ faultWords, y.1.addr = f.addr ∧ y.2 = 0 ∧ y.1.lo ≤ f.lo ∧ f.hi ≤ y.1.hi) : s.Reports (s.setFlag f b) where
  frame := by
    rw [s.setFlag_frame f b 0]
  kept := (State.setFlag_kept ⟨by decide, hf⟩ b).widen (by rwa [List.forall_mem_singleton])
  grows := ⟨[], by rw [s.setFlag_frame f b 0, List.append_nil]⟩

/-- An event raised. -/
theorem State.Reports.raise (code unit data : Nat) : s.Reports (s.raise code unit data) where
  frame := by
    unfold State.raise
    split <;> rfl
  kept := State.regsKept_raise (by decide)
  grows := by
    unfold State.raise
    split
    · exact ⟨_, rfl⟩
    · exact ⟨[], (List.append_nil _).symm⟩

/-- A word written. -/
theorem State.Reports.writeWord (w : WordAddr) (d : List Byte) : s.Reports (s.writeWord w d) := by
  unfold State.writeWord
  dsimp only
  split <;> exact .setMem _

/-- An entry appended to the LOG store. -/
theorem State.Reports.appendLog (e : FaultEntry) : s.Reports (s.appendLog e) := by
  have hwords : s.Reports ((List.range 4).foldl (fun t k => t.writeWord ⟨Store.log, false, 4 * s.fld F.FLT_LOG_WR_WR + k⟩
      ((e.bytes.drop (4 * k)).take 4)) s) :=
    List.foldlRecOn _ _ (motive := fun t => s.Reports t) .refl fun t ht k _ => ht.trans (.writeWord _ _)
  have hwr : ∀ t : State, t.Reports (t.setFld F.FLT_LOG_WR_WR ((s.fld F.FLT_LOG_WR_WR + 1) % 512)) := fun t =>
    .setFld _ (by decide) (by decide)
  unfold State.appendLog
  dsimp only
  split
  · exact (hwords.trans (hwr _)).trans (.setFlag _ (by decide) (by decide))
  · exact hwords.trans (hwr _)

/-- A fault-log entry written (R622). -/
theorem State.Reports.logFault (kind store reader : Nat) (bank : Bool) (offset syn : Nat) :
    s.Reports (s.logFault kind store reader bank offset syn) := by
  have hhead : ∀ h, s.Reports { s with flt := { s.flt with head := h } } := fun h =>
    ⟨rfl, State.regsKept_of_regs rfl rfl, [], (List.append_nil _).symm⟩
  have hseq : ∀ (t : State) v, t.Reports (t.setFld F.FLT_STATUS_SEQ v) := fun t v => .setFld v (by decide) (by decide)
  have hcount : ∀ (t : State) v, t.Reports (t.setFld F.FLT_STATUS_COUNT v) := fun t v => .setFld v (by decide) (by decide)
  have hnew : ∀ t : State, t.Reports (t.setFlag F.FLT_STATUS_NEW true) := fun t => .setFlag _ (by decide) (by decide)
  unfold State.logFault
  dsimp only
  refine State.Reports.trans ?_ (.raise _ _ _)
  have hstatus := fun (v w : Nat) (h : Cells (Option FaultEntry)) =>
    (((hhead h).trans (hseq _ v)).trans (hcount _ w)).trans (hnew _)
  have hovw : ∀ (c : Prop) [Decidable c] (t : State), t.Reports (if c then t.setFlag F.FLT_STATUS_OVW true else t) := by
    intro c _ t
    split
    · exact .setFlag _ (by decide) (by decide)
    · exact .refl
  have hlog : ∀ (c : Prop) [Decidable c] (t : State) (e : FaultEntry), t.Reports (if c then t.appendLog e else t) := by
    intro c _ t e
    split
    · exact .appendLog e
    · exact .refl
  exact ((hstatus _ _ _).trans (hovw _ _)).trans (hlog _ _ _)

/-- A word read, checked (R572 to R574). -/
theorem State.Reports.readWord (rd : Reader) (inspect : Bool) (w : WordAddr) : s.Reports (s.readWord rd inspect w).2 := by
  unfold State.readWord
  split
  · split
    · exact .refl
    · dsimp only
      split
      · exact .refl
      · exact (State.Reports.setMem _).trans (.setFlag (f := F.MEM_STATUS_CORR) true (by decide) (by decide))
    · exact (State.Reports.logFault _ _ _ _ _ _).trans (.setMem _)
  · exact .refl

/-- Words read, checked. -/
theorem State.Reports.readWords (rd : Reader) (inspect : Bool) (id : Nat) (bank : Bool) (k n : Nat) :
    s.Reports (s.readWords rd inspect id bank k n).2 := by
  induction n generalizing s k with
  | zero => exact .refl
  | succ n ih =>
    have hword : s.Reports (s.readWord rd inspect ⟨id, bank, k⟩).2 := .readWord _ _ _
    unfold State.readWords
    split
    · next t he => rwa [he] at hword
    · next r t he =>
      rw [he] at hword
      have hrest : t.Reports (t.readWords rd inspect id bank (k + 1) n).2 := ih _
      split
      · next u hu =>
        rw [hu] at hrest
        exact hword.trans hrest
      · next d c u hu =>
        rw [hu] at hrest
        exact hword.trans hrest

/-- Bytes read, checked. -/
theorem State.Reports.readBytes (rd : Reader) (inspect : Bool) (id : Nat) (bank : Bool) (off len : Nat) :
    s.Reports (s.readBytes rd inspect id bank off len).2 := by
  have hwords := State.Reports.readWords (s := s) rd inspect id bank (off / wordSize id)
    (if len = 0 then 0 else (off + len - 1) / wordSize id + 1 - off / wordSize id)
  unfold State.readBytes
  dsimp only
  split
  · next t he => rwa [he] at hwords
  · next d c t he => rwa [he] at hwords

/-- A waveform set checked (R328). -/
theorem State.Reports.checkWave (k : Nat) : s.Reports (s.checkWave k).2 := by
  have hheader : s.Reports (s.readBytes .internal false Store.wave s.waveBank (2048 * k) 16).2 := .readBytes ..
  unfold State.checkWave
  split
  · next t he => rwa [he] at hheader
  · next h c t he =>
    rw [he] at hheader
    have hbody : t.Reports (t.readBytes .internal false Store.wave t.waveBank (2048 * k + 16)
      (natBE ((h.drop 6).take 2))).2 := .readBytes ..
    split
    · exact hheader
    · split
      · exact hheader
      · split
        · next u hu =>
          rw [hu] at hbody
          exact hheader.trans hbody
        · next d c' u hu =>
          rw [hu] at hbody
          exact hheader.trans hbody

/-- The waveform sets checked (R328): reports, the sets that are valid, and WAVE_BAD. -/
theorem State.checkWaves_frame : ∃ u v, s.Reports u ∧ s.checkWaves = { u with
    regs := s.checkWaves.regs, fresh := s.checkWaves.fresh, cnv := { s.cnv with waveValid := v } } ∧
    u.regsKept s.checkWaves [(F.CNV_STATUS_WAVE_BAD, 0)] := by
  have hsets : s.Reports ((List.range 8).foldl
      (fun (acc : BitVec 8 × Bool × State) k =>
        let c := acc.2.2.checkWave k
        (if c.1.1 then acc.1 ||| (1#8 <<< k) else acc.1, acc.2.1 || c.1.2, c.2)) (0, false, s)).2.2 :=
    List.foldlRecOn _ _ (motive := fun t : BitVec 8 × Bool × State => s.Reports t.2.2) .refl
      fun t ht k _ => ht.trans (.checkWave k)
  unfold State.checkWaves
  dsimp only
  generalize List.foldl _ _ (List.range 8) = r at hsets ⊢
  have hcnv : r.2.2.cnv = s.cnv := by rw [hsets.frame]
  refine ⟨r.2.2, r.1, hsets, ?_⟩
  rw [hcnv]
  split
  · refine ⟨?_, State.regsKept_trans (State.regsKept_of_regs rfl rfl) (State.setFlag_kept (by decide) true)⟩
    exact State.setFlag_frame (s := r.2.2.setCnv { s.cnv with waveValid := r.1 }) F.CNV_STATUS_WAVE_BAD true 0
  · exact ⟨rfl, State.regsKept_of_regs rfl rfl⟩

end Sys2Proof.Machine
end

section
/-! PROOF.
Transactional values going live that act through the frame context at most, and what they leave of the port.
-/
namespace Sys2Proof.Machine

variable {s t u : State}

/-! ### Values without a hook -/

/-- Transactional registers whose new value does nothing at once, but for TDI, beside being the value in use. -/
def storesOnly (a : Nat) : Bool :=
  isTrans a && !List.contains [R.SPN_C_CFG, R.SPN_C_DIV_LO, R.SPN_M_CFG, R.POS_CFG, R.AUX_CTRL, R.TMP_CFG, R.TMP_GAIN,
    R.TMP_OFS, R.AGT_PINPERM_A, R.AGT_PINPERM_B] a

/-- Such a register has no hook. -/
theorem State.liveHook_storesOnly {a : Nat} (h : storesOnly a = true) (i : Nat) (old : Word) : s.liveHook a i old = s := by
  simp only [storesOnly, Bool.and_eq_true, Bool.not_eq_true', List.contains_eq_mem, decide_eq_false_iff_not,
    List.mem_cons, List.not_mem_nil, or_false, not_or] at h
  obtain ⟨-, hcfg, -, hm, hpos, haux, ht1, ht2, ht3, hp1, hp2⟩ := h
  simp [State.liveHook, hcfg, hm, hpos, haux, ht1, ht2, ht3, hp1, hp2]

/-- A register that is not transactional is another one. -/
theorem ne_of_storesOnly {a b : Nat} (h : storesOnly a = true) (hb : isTrans b = false) : a ≠ b := by
  rintro rfl
  simp [storesOnly, hb] at h

/-- The instances of listed values have numbers below 256, and their registers only store. -/
def Staged.stores (w : Staged) : Prop := storesOnly w.addr = true ∧ w.inst < 256

/-- A value of the frame context changes. -/
def State.contextChanges (s : State) (ws : List Staged) : Bool :=
  ws.any fun w => inContext w.addr && s.reg w.addr w.inst != w.value

/-- Values without hooks are stored; TDI restarts where the frame context changes (R295). -/
theorem State.makeLive_stores {ws : List Staged} (h : ∀ w ∈ ws, w.stores) : s.makeLive ws [] =
    if s.contextChanges ws then (s.cancelDisabled (s.storeAll ws)).restartTdi else s.cancelDisabled (s.storeAll ws) := by
  have hhook : ∀ (l : List Staged) (u : State), (∀ w ∈ l, w.stores) →
      l.foldl (fun t w => t.liveHook w.addr w.inst (s.reg w.addr w.inst)) u = u := by
    intro l
    induction l with
    | nil => exact fun _ _ => rfl
    | cons w l ih =>
      intro u hl
      rw [List.foldl_cons, State.liveHook_storesOnly (hl w List.mem_cons_self).1]
      exact ih u fun x hx => hl x (List.mem_cons_of_mem _ hx)
  unfold State.makeLive
  dsimp only
  rw [hhook ws _ h]
  rfl

/-- A pending injection is cancelled, or nothing happens (R640). -/
theorem State.cancelDisabled_eq_or (s t : State) : s.cancelDisabled t = t.injDone ∨ s.cancelDisabled t = t := by
  unfold State.cancelDisabled
  exact ite_eq_or_eq _ _ _

/-- Nothing is cancelled where nothing is pending. -/
theorem State.cancelDisabled_of_none (h : t.flt.pending = none) : s.cancelDisabled t = t := by
  simp [State.cancelDisabled, h]

/-- Outside TDI there is nothing to restart. -/
theorem State.restartTdi_of_none (h : s.exp.tdiCtx = none) : s.restartTdi = s := by
  simp [State.restartTdi, h]

/-! ### What the port keeps -/

/-- From `s` to `t` the port, its SPI mode and the powered states have stayed. -/
structure State.PortKept (s t : State) : Prop where
  port : t.port = s.port
  mode : t.flag F.CP_MODE_SPI = s.flag F.CP_MODE_SPI
  up : s.up = true → t.up = true

theorem State.PortKept.refl : s.PortKept s := ⟨rfl, rfl, id⟩

theorem State.PortKept.trans (h : s.PortKept t) (h' : t.PortKept u) : s.PortKept u :=
  ⟨h'.port.trans h.port, h'.mode.trans h.mode, fun hs => h'.up (h.up hs)⟩

/-- A change of registers other than CP_MODE. -/
theorem State.PortKept.of_kept {l : List (Field × Nat)} (hp : t.port = s.port) (hpwr : t.pwr = s.pwr)
    (hk : s.regsKept t l) (hl : ∀ x ∈ l, x.1.addr ≠ R.CP_MODE) : s.PortKept t :=
  ⟨hp, hk.flag_eq (by decide) fun x hx ha => absurd ha (hl x hx), by unfold State.up; rw [hpwr]; exact id⟩

/-- A change that is none of the registers. -/
theorem State.PortKept.of_eq (hp : t.port = s.port) (hpwr : t.pwr = s.pwr) (hr : t.regs = s.regs) : s.PortKept t :=
  ⟨hp, by rw [State.flag, State.fld, State.reg, hr, State.flag, State.fld, State.reg], by
    unfold State.up; rw [hpwr]; exact id⟩

/-- A register other than CP_MODE written. -/
theorem State.PortKept.setReg {a i : Nat} (w : Word) (ha : a ≠ R.CP_MODE) (hi : i < 256) : s.PortKept (s.setReg a w i) :=
  .of_kept rfl rfl (State.regsKept_setReg hi List.mem_cons_self) (List.forall_mem_singleton.2 ha)

/-- A field of another register than CP_MODE written. -/
theorem State.PortKept.setFld {f : Field} (v : Nat) (hf : f.addr ≠ R.CP_MODE ∧ f.lo ≤ f.hi ∧ f.hi < 16) :
    s.PortKept (s.setFld f v) :=
  .of_kept rfl rfl (State.setFld_kept ⟨by decide, hf.2⟩ v) (List.forall_mem_singleton.2 hf.1)

/-- A flag of another register than CP_MODE written. -/
theorem State.PortKept.setFlag {f : Field} (b : Bool) (hf : f.addr ≠ R.CP_MODE ∧ f.lo ≤ f.hi ∧ f.hi < 16) :
    s.PortKept (s.setFlag f b) :=
  .of_kept (s.setFlag_port f b 0) (s.setFlag_pwr f b 0) (State.setFlag_kept ⟨by decide, hf.2⟩ b)
    (List.forall_mem_singleton.2 hf.1)

/-- Several counts of another register than CP_MODE. -/
theorem State.PortKept.countBy {f : Field} (hf : f.addr ≠ R.CP_MODE ∧ f.lo ≤ f.hi ∧ f.hi < 16) (n : Nat) :
    s.PortKept (s.countBy f n) := by
  induction n generalizing s with
  | zero => exact .refl
  | succ n ih => exact (State.PortKept.setFld _ hf).trans ih

/-- Reports of the checkers and the fault log. -/
theorem State.Reports.portKept (h : s.Reports t) : s.PortKept t :=
  .of_kept (by rw [h.frame]) (by rw [h.frame]) h.kept (by decide)

/-- Pages given or released. -/
theorem State.PortKept.usePages (ps : List Nat) (x : PageUse) : s.PortKept (s.usePages ps x) := by
  obtain ⟨m, hm⟩ := s.usePages_frame ps x
  rw [hm]
  exact .of_eq rfl rfl rfl

/-- TDI lines dropped. -/
theorem State.PortKept.dropTdiLines : s.PortKept s.dropTdiLines.2 := by
  have hpages : s.PortKept ((s.exp.tdiLines.filter fun l => !s.exp.completes l).foldl
      (fun t l => t.usePages l.pages .free) s) :=
    List.foldlRecOn _ _ (motive := fun t => s.PortKept t) .refl fun t ht l _ => ht.trans (.usePages _ _)
  exact hpages.trans (.of_eq rfl rfl rfl)

/-- TDI restarted. -/
theorem State.PortKept.restartTdi : s.PortKept s.restartTdi := by
  unfold State.restartTdi
  split
  · exact (State.PortKept.dropTdiLines.trans (.countBy (f := F.EXP_DROPPED_COUNT) (by decide) _)).trans (.of_eq rfl rfl rfl)
  · exact .refl

/-- An injection cancelled. -/
theorem State.PortKept.cancelDisabled : t.PortKept (s.cancelDisabled t) := by
  rcases s.cancelDisabled_eq_or t with h | h <;> rw [h]
  · exact .of_eq rfl rfl rfl
  · exact .refl

/-- Values without hooks going live. -/
theorem State.PortKept.makeLive {ws : List Staged} (h : ∀ w ∈ ws, w.stores) : s.PortKept (s.makeLive ws []) := by
  have hstore : s.PortKept (s.storeAll ws) := by
    refine .of_kept (by rw [s.storeAll_frame ws]) (by rw [s.storeAll_frame ws])
      (State.storeAll_kept fun w hw => (h w hw).2) fun x hx => ?_
    obtain ⟨w, hw, rfl⟩ := List.mem_map.1 hx
    exact ne_of_storesOnly (h w hw).1 (by decide)
  rw [State.makeLive_stores h]
  split
  · exact (hstore.trans .cancelDisabled).trans .restartTdi
  · exact hstore.trans .cancelDisabled

/-- Values without hooks staged, or made live. -/
theorem State.PortKept.putTrans {ws : List Staged} (h : ∀ w ∈ ws, w.stores) : s.PortKept (s.putTrans ws []).2 := by
  unfold State.putTrans
  split
  · split
    · exact .of_eq rfl rfl rfl
    · exact .refl
  · refine List.foldlRecOn _ _ (motive := fun t => s.PortKept t) (.makeLive h) fun t ht _ _ => ht.trans ?_
    exact .setFld _ (by decide)

/-! ### The legacy column window (R260) -/

/-- The values of a column window are for the quires' enables and windows. -/
theorem columnWindow_stores {p : Part} {first last : Nat} : ∀ w ∈ columnWindow p first last, w.stores := by
  intro w hw
  have hq : p.quires < 256 := by cases p <;> decide
  unfold columnWindow at hw
  simp only [List.mem_cons, List.mem_flatMap, List.not_mem_nil, or_false] at hw
  rcases hw with rfl | ⟨q, hqm, rfl | rfl⟩
  · exact ⟨rfl, Nat.zero_lt_succ _⟩
  all_goals
    have hlt : q < p.quires := by
      split at hqm
      · cases hqm
      · exact List.mem_range.1 (List.mem_filter.1 hqm).1
    exact ⟨rfl, Nat.lt_trans hlt hq⟩

/-- A write of a legacy column-window register. -/
theorem State.PortKept.writeColumns {a : Nat} (ha : a = R.LEG_COL_FIRST ∨ a = R.LEG_COL_LAST) (w : Word) :
    s.PortKept (s.writeColumns a w).2 := by
  have hown : a ≠ R.CP_MODE ∧ storesOnly a = true := by rcases ha with rfl | rfl <;> decide
  unfold State.writeColumns
  dsimp only
  split
  · split
    · next b _ =>
      have hbnd : s.PortKept (s.setBnd b) := .of_eq rfl rfl rfl
      exact hbnd.trans (.setReg w hown.1 (by decide))
    · exact .refl
  · exact .putTrans fun x hx => (List.mem_cons.1 hx).elim (fun h => h ▸ ⟨hown.2, Nat.zero_lt_succ _⟩) (columnWindow_stores x)

/-- A write of a transactional register without a hook. -/
theorem State.PortKept.writeTrans {a : Nat} (ha : storesOnly a = true) (r : Route) {i : Nat} (hi : i < 256) (v m : Word) :
    s.PortKept (s.writeTrans r a i v m).2 := by
  have hdiv : a ≠ R.SPN_C_DIV_LO := by rintro rfl; exact absurd ha (by decide)
  have hput : ∀ w, s.PortKept (s.putTrans [⟨a, i, w⟩] []).2 := fun w =>
    .putTrans (List.forall_mem_singleton.2 ⟨ha, hi⟩)
  unfold State.writeTrans
  split
  · exact .refl
  · dsimp only
    rw [if_neg hdiv]
    split
    · next h => exact .writeColumns h _
    · split
      · split
        · exact hput _
        · exact .refl
      · split
        · exact .refl
        · exact hput _

end Sys2Proof.Machine
end

section
/-! PROOF.
Legacy short frames: reads and writes below 0x60, and what they leave of the port.
-/
namespace Sys2Proof.Machine

variable {s t : State}

/-! ### Legacy reads -/

/-- A read below 0x60 reaches no register whose read acts but by clearing counts. -/
theorem readEffect_legacy : ∀ a < 0x60, ∀ b ∈ [a] ++ (aliasAt a).toList.map Alias.addr,
    b ≠ R.AUX_Q_HI ∧ b ≠ R.AGT_FIFO ∧ b ≠ R.PB_DATA ∧ b ≠ R.MEM_INFO := by
  decide +kernel

/-- A read of a register whose read clears counts at most leaves the port. -/
theorem State.readDirect_port {a : Nat} (ha : a ≠ R.AUX_Q_HI ∧ a ≠ R.AGT_FIFO ∧ a ≠ R.PB_DATA ∧ a ≠ R.MEM_INFO)
    (r : Route) (inspect : Bool) : (s.readDirect r inspect a).2.port = s.port := by
  obtain ⟨h1, h2, h3, h4⟩ := ha
  have heffect : ∀ i, (s.readEffect a i).port = s.port := fun i => by
    unfold State.readEffect
    rw [if_neg h1, if_neg h2, if_neg h3, if_neg h4]
    split <;> rfl
  unfold State.readDirect
  dsimp only
  split
  · rfl
  · exact heffect _

/-- A legacy read leaves the port. -/
theorem State.hostRead_legacy_port {a : Nat} (ha : a < 0x60) (r : Route) (inspect : Bool) :
    (s.hostRead r inspect a).2.port = s.port := by
  have hact := readEffect_legacy a ha
  unfold State.hostRead State.readReg
  split
  · rfl
  · split
    · next x hx => exact State.readDirect_port (hact x.addr (by simp [hx])) r inspect
    · exact State.readDirect_port (hact a (by simp)) r inspect

/-! ### Legacy writes -/

/-- RUN stopped. -/
theorem State.PortKept.stopRun : s.PortKept s.stopRun := by
  unfold State.stopRun
  refine State.PortKept.trans ?_ (.setFlag false (by decide))
  exact State.PortKept.dropTdiLines.trans (.of_eq rfl rfl rfl)

/-- The power state changed to a powered one. -/
theorem State.PortKept.changesTo {st : PState} (h : st = .armed ∨ st = .streaming) : s.PortKept (s.changesTo st) := by
  refine ⟨?_, ?_, fun _ => by rcases h with rfl | rfl <;> rfl⟩ <;> unfold State.changesTo <;> split <;> rfl

/-- The waveform sets checked. -/
theorem State.PortKept.checkWaves : s.PortKept s.checkWaves := by
  obtain ⟨u, v, hu, hframe, hkept⟩ := s.checkWaves_frame
  exact hu.portKept.trans (.of_kept (by rw [hframe]) (by rw [hframe]) hkept (by decide))

/-- The stream drained. -/
theorem State.PortKept.drained : s.PortKept s.drained := by
  unfold State.drained
  split
  · have hexp : s.PortKept (s.setExp { s.exp with stopping := false }) := .of_eq rfl rfl rfl
    have htmp : ∀ (t : State) x, t.PortKept (t.setTmp x) := fun _ _ => .of_eq rfl rfl rfl
    exact ((hexp.trans (.changesTo (.inl rfl))).trans (htmp _ _)).trans .checkWaves
  · exact .refl

/-- RUN started. -/
theorem State.PortKept.startRun : s.PortKept s.startRun := by
  unfold State.startRun
  refine State.PortKept.trans (State.PortKept.trans ?_ (.changesTo (.inr rfl))) (.setFlag true (by decide))
  exact .of_eq rfl rfl rfl

/-- RUN written. -/
theorem State.PortKept.writeRun (b : Bool) : s.PortKept (s.writeRun b).2 := by
  unfold State.writeRun
  dsimp only
  split_ifs
  · exact .drained
  · exact .drained
  · exact State.PortKept.drained.trans .startRun
  · exact .stopRun
  · exact .refl

/-- CLK_REFDIV written. -/
theorem State.PortKept.writeRefdiv (v : Word) : s.PortKept (s.writeRefdiv v) := by
  have hfreq : s.PortKept (s.setFld F.CLK_REFDIV_FREQ (F.CLK_REFDIV_FREQ.of v)) := .setFld _ (by decide)
  unfold State.writeRefdiv
  dsimp only
  split
  · exact hfreq.trans (.of_eq rfl rfl rfl)
  · refine State.PortKept.trans ?_ (.setFlag (f := F.CLK_STATUS_TIME_GAP) true (by decide))
    exact hfreq.trans (.of_eq rfl rfl rfl)

/-- A plain write of another register than CP_MODE. -/
theorem State.PortKept.storeReg {a : Nat} (ha : a ≠ R.CP_MODE) (v m : Word) : s.PortKept (s.storeReg a 0 v m) :=
  .setReg _ ha (by decide)

/-- What a legacy address reaches: registers that only store, EXP_CTRL, EXP_DROPPED and CLK_REFDIV. -/
theorem legacy_targets : ∀ a < 0x60, ∀ b ∈ [a] ++ (aliasAt a).toList.map Alias.addr,
    if isTrans b then storesOnly b = true else b < 0x60 ∨ b ∈ [R.EXP_CTRL, R.EXP_DROPPED, R.CLK_REFDIV] := by
  decide +kernel

/-- A write of what a legacy address reaches leaves the port. -/
theorem State.PortKept.writeDirect {b : Nat} (hb : if isTrans b then storesOnly b = true
    else b < 0x60 ∨ b ∈ [R.EXP_CTRL, R.EXP_DROPPED, R.CLK_REFDIV]) (r : Route) (v m : Word) (lost : Bool) :
    s.PortKept (s.writeDirect r b v m lost).2 := by
  unfold State.writeDirect
  dsimp only
  split at hb
  · next h =>
    rw [if_pos h]
    exact .writeTrans hb r (s.selected_lt b) v m
  · next h =>
    rw [if_neg h]
    rcases hb with hb | hb
    · have hlow : ∀ c ∈ [R.SYS_RESET_CAUSE, R.SYS_SOFT_RESET, R.PWR_CTRL, R.CLK_REFDIV, R.CLK_STATUS, R.BND_WDOG, R.CP_MODE],
          b ≠ c := by
        intro c hc
        have : 0x60 ≤ c := by revert c; decide
        omega
      have hwrite : s.writeSystem b v m = (Status.ok, s.storeReg b 0 v m) := by
        unfold State.writeSystem
        rw [if_neg (hlow R.SYS_RESET_CAUSE (by decide)), if_neg (hlow R.SYS_SOFT_RESET (by decide)),
          if_neg (hlow R.PWR_CTRL (by decide)), if_neg (hlow R.CLK_REFDIV (by decide)),
          if_neg (hlow R.CLK_STATUS (by decide)), if_neg (hlow R.BND_WDOG (by decide))]
      unfold State.writeThrough
      split
      · exact .refl
      · rw [if_pos (by omega), hwrite]
        exact .storeReg (hlow R.CP_MODE (by decide)) v m
    · simp only [List.mem_cons, List.not_mem_nil, or_false] at hb
      rcases hb with rfl | rfl | rfl
      · show s.PortKept (s.writeImaging R.EXP_CTRL (s.selected R.EXP_CTRL) v m).2
        have hrun : s.PortKept (if F.EXP_CTRL_RUN.of m = 1 then s.writeRun (F.EXP_CTRL_RUN.of v == 1)
            else (Status.ok, s)).2 := by
          split
          · exact .writeRun _
          · exact .refl
        have hstore : ∀ x : Nat × State, s.PortKept x.2 →
            s.PortKept (if x.1 = Status.ok then x.2.storeReg R.EXP_CTRL 0 v (F.EXP_CTRL_RUN.into m 0) else s) := by
          intro x hx
          split
          · exact hx.trans (.storeReg (by decide) v _)
          · exact .refl
        exact hstore _ hrun
      · exact .storeReg (by decide) v m
      · show s.PortKept (s.writeSystem R.CLK_REFDIV v m).2
        have hifOk : ∀ e w, s.PortKept (ifOk s e (s.writeRefdiv w)).2 := by
          intro e w
          unfold ifOk
          dsimp only
          split
          · exact .writeRefdiv w
          · exact .refl
        have hwrite : s.writeSystem R.CLK_REFDIV v m = if F.CLK_REFDIV_FREQ.of m = 0 then (Status.ok, s)
          else ifOk s (s.refdivCheck (merge (s.reg R.CLK_REFDIV) v m)) (s.writeRefdiv (merge (s.reg R.CLK_REFDIV) v m)) := rfl
        rw [hwrite]
        split
        · exact .refl
        · exact hifOk _ _

/-- A legacy write leaves the port. -/
theorem State.PortKept.writeReg {a : Nat} (ha : a < 0x60) (r : Route) (v : Word) (lost : Bool) :
    s.PortKept (s.writeReg r a v lost).2 := by
  have htarget := legacy_targets a ha
  unfold State.writeReg State.writeMasked
  split
  · next x hx => exact .writeDirect (htarget x.addr (by simp [hx])) r _ _ lost
  · exact .writeDirect (htarget a (by simp)) r _ _ lost

/-! ### The slot of a short frame -/

/-- In a powered state the port runs on SCLK. -/
theorem State.onSclk_of_up (h : s.up = true) : s.pwr.state.onSclk = true := by
  simp only [State.up, Bool.or_eq_true, beq_iff_eq] at h
  rcases h with (h | h) | h <;> rw [h] <;> rfl

/-- What remains of the port of `s` after a short-frame write. -/
def State.portAfterShort (s : State) : Port :=
  { s.port with
    inSlot := false, readyBefore := false, prepAtBegin := false, pendAtBegin := false, sdo := [], sdoFill := 0xFF
    ready := false, undo := if s.port.resp = .empty then [] else s.port.undo
    mode3 := s.flag F.CP_MODE_SPI, onSclk := true }

/-- The slot begins: the response stays, and the end of the slot leaves the port as it should. -/
theorem State.slotBegin_short (ha : s.portAnswers = true) (hi : s.port.inSlot = false) : ∃ x : Port,
    s.slotBegin = s.setPort x ∧ x.inSlot = true ∧ x.resp = s.port.resp ∧
      { x with
        inSlot := false, readyBefore := false, prepAtBegin := false, pendAtBegin := false, sdo := [], sdoFill := 0xFF
        mode3 := s.flag F.CP_MODE_SPI, onSclk := true } = s.portAfterShort := by
  cases hr : s.port.resp with
  | empty => exact ⟨_, State.slotBegin_of_empty ha hi hr, rfl, hr, by simp [State.portAfterShort, Port.opened, hr]⟩
  | prep r b => exact ⟨_, State.slotBegin_of_prep ha hi hr, rfl, hr, by simp [State.portAfterShort, Port.opened, hr]⟩
  | pend r => exact ⟨_, State.slotBegin_of_pend ha hi hr, rfl, hr, by simp [State.portAfterShort, Port.opened, hr]⟩

/-- A short frame is not refused where no bulk response is in preparation. -/
theorem State.shortRefused_of_live (h : s.live = true) (hr : ∀ r, s.port.resp ≠ .prep r true) (op : Nat) (a : BitVec 7)
    (hop : op = 0x81 ∨ op = 0x82) : s.shortRefused (shortPacket op a) = false := by
  obtain ⟨hup, -, -⟩ := State.live_iff.1 h
  simp only [State.up, Bool.or_eq_true, beq_iff_eq] at hup
  have hcheck : s.powerCheck (shortPacket op a) = Status.ok := by
    unfold State.powerCheck
    rcases hup with (hs | hs) | hs <;> rw [hs] <;> rcases hop with rfl | rfl <;> rfl
  unfold State.shortRefused
  rw [hcheck]
  cases hresp : s.port.resp with
  | empty => rfl
  | pend r => rfl
  | prep r b =>
    cases b with
    | false => rfl
    | true => exact absurd hresp (hr r)

/-- A short-frame write below 0x60 is a register write, or sets SF_REFUSED (R186). -/
theorem State.shortWrite_low (hlive : s.live = true) (hleg : s.flag F.CP_MODE_LEGACY_EN = true) (hr : ∀ r, s.port.resp ≠ .prep r true) {a : BitVec 7} (ha : a.toNat < 0x60) (v : Word)
    (lost : Bool) : s.shortWrite a v lost =
      if (s.writeReg .port a.toNat v lost).1 = Status.ok then (s.writeReg .port a.toNat v lost).2
      else (s.writeReg .port a.toNat v lost).2.setFlag F.CP_STATUS_SF_REFUSED true := by
  obtain ⟨-, hdue, -⟩ := State.live_iff.1 hlive
  unfold State.shortWrite
  rw [if_neg (by simp [hleg]), if_neg (by omega)]
  simp only [State.dueApply_of hdue, State.shortRefused_of_live hlive hr 0x82 a (.inr rfl), Bool.false_eq_true, if_false]

/-- A short-frame write from 0x60 on does nothing (R188). -/
theorem State.shortWrite_high (hleg : s.flag F.CP_MODE_LEGACY_EN = true) {a : BitVec 7} (ha : 0x60 ≤ a.toNat) (v : Word) (lost : Bool) :
    s.shortWrite a v lost = s := by
  unfold State.shortWrite
  rw [if_neg (by simp [hleg]), if_pos ha]

/-- A short frame's slot ends with the port as it should be, where the write has left it. -/
theorem State.closeSlot_short {x : Port} {u : State} (hx : { x with
        inSlot := false, readyBefore := false, prepAtBegin := false, pendAtBegin := false, sdo := [], sdoFill := 0xFF
        mode3 := s.flag F.CP_MODE_SPI, onSclk := true } = s.portAfterShort) (hup : s.up = true)
    (hk : (s.setPort x).PortKept u) : u.closeSlot = u.setPort s.portAfterShort := by
  have hmode : u.flag F.CP_MODE_SPI = s.flag F.CP_MODE_SPI := hk.mode
  rw [← hx]
  unfold State.closeSlot
  rw [hmode, State.onSclk_of_up (hk.up hup), hk.port]
  rfl

/-! ### The period of legacy address 0x06 -/

/-- A value that changes neither the enables of the quires nor those of the aux unit cancels no injection (R640). -/
theorem State.cancelDisabled_of_kept (hpart : t.part = s.part) (haux : t.reg R.AUX_CTRL = s.reg R.AUX_CTRL)
    (hqr : t.reg R.QR_ENABLE = s.reg R.QR_ENABLE) : s.cancelDisabled t = t := by
  have hfld : ∀ f : Field, f.addr = R.AUX_CTRL → t.fld f = s.fld f := fun f hf => by
    rw [State.fld, hf, haux, State.fld, hf]
  have hen : t.fld F.QR_ENABLE_EN = s.fld F.QR_ENABLE_EN := congrArg F.QR_ENABLE_EN.of hqr
  have hconv : ∀ k, t.convOn k = s.convOn k := by
    intro k
    unfold State.convOn State.flag
    rw [hpart, hfld _ (by split <;> rfl)]
  unfold State.cancelDisabled
  refine if_neg ?_
  dsimp only
  split <;> simp only [hconv, hfld F.AUX_CTRL_INJ_EN rfl, hen, Bool.and_not_self, Bool.false_eq_true, not_false_eq_true]

/-- EXP_PERIOD written whole. -/
theorem storedAfter_period (old v : Word) : limitWord R.EXP_PERIOD (storedAfter R.EXP_PERIOD old v 0xFFFF) = v := by
  have hlimit : limitWord R.EXP_PERIOD (storedAfter R.EXP_PERIOD old v 0xFFFF) = storedAfter R.EXP_PERIOD old v 0xFFFF := rfl
  have hones (w : Word) : w &&& 65535#16 = w := BitVec.and_allOnes
  rw [hlimit, storedAfter, show accessMask R.EXP_PERIOD .rw = 0xFFFF from rfl,
    show accessMask R.EXP_PERIOD .w1c = 0 from rfl]
  have hnone : ~~~(v &&& 0xFFFF &&& 0 : Word) = 65535#16 := by simp
  rw [hnone, hones]
  exact merge_full old v

/-- EXP_PERIOD asks for no unit. -/
theorem needsUnit_period (p : Part) (v m : Word) : needsUnit p R.EXP_PERIOD v m = false := by
  simp [needsUnit, R.EXP_PERIOD, R.QR_ENABLE, R.EXP_MODE, R.EXP_SCHED, R.CNV_CORR, R.LN_BUF, R.LN_ANNEX, R.AUX_CTRL,
    R.AGT_PINPERM_A, R.AGT_PINPERM_B]

/-- In IDLE and outside TDI the period goes live. -/
theorem State.writeReg_period (hs : s.bnd.txn = .idle) (ht : s.exp.tdiCtx = none) (v : Word) (lost : Bool) :
    ∃ u, s.writeReg .port 0x06 v lost = (Status.ok, u) ∧ u = { s with regs := u.regs } ∧
      u.fld F.EXP_PERIOD_PERIOD = v.toNat ∧ s.regsKept u [(F.EXP_PERIOD_PERIOD, 0), (F.BND_GEN_GEN, 0)] := by
  let w : Staged := ⟨R.EXP_PERIOD, 0, v⟩
  let t := s.setReg R.EXP_PERIOD v
  have hkept : s.regsKept t [(F.EXP_PERIOD_PERIOD, 0)] :=
    (State.regsKept_setReg (l := [(Field.word R.EXP_PERIOD, 0)]) (by decide) List.mem_cons_self).widen (by decide)
  have hread : t.reg R.EXP_PERIOD = v := State.reg_setReg ..
  have hcancel : s.cancelDisabled t = t := State.cancelDisabled_of_kept rfl
    (hkept.reg_eq (a := R.AUX_CTRL) (i := 0) (by decide) (by decide))
    (hkept.reg_eq (a := R.QR_ENABLE) (i := 0) (by decide) (by decide))
  have hlive : s.makeLive [w] [] = t := by
    rw [State.makeLive_stores (List.forall_mem_singleton.2 ⟨by rfl, Nat.zero_lt_succ _⟩),
      show s.storeAll [w] = t from rfl, hcancel, State.restartTdi_of_none (s := t) ht, ite_self]
  have hput : s.putTrans [w] [] = (Status.ok, if s.reg R.EXP_PERIOD = v then t else t.nextGen) := by
    unfold State.putTrans
    rw [if_neg (by rw [hs]; decide), hlive]
    by_cases hv : s.reg R.EXP_PERIOD = v <;> simp [w, hv]
  have hwrite : s.writeReg .port 0x06 v lost = (Status.ok, if s.reg R.EXP_PERIOD = v then t else t.nextGen) := by
    have hplace (x : Word) : Alias.place ⟨R.EXP_PERIOD, 0xFFFF, 0⟩ x = x := by
      have hones : x &&& 65535#16 = x := BitVec.and_allOnes
      simp [Alias.place, hones]
    have htrans : s.writeReg .port 0x06 v lost = s.writeTrans .port R.EXP_PERIOD 0 (Alias.place ⟨R.EXP_PERIOD, 0xFFFF, 0⟩ v)
      (Alias.place ⟨R.EXP_PERIOD, 0xFFFF, 0⟩ 0xFFFF) := rfl
    have hpresent : ¬ (!instPresent s.part R.EXP_PERIOD 0) = true := by
      rw [show instPresent s.part R.EXP_PERIOD 0 = true from rfl]
      exact Bool.false_ne_true
    have hcheck : s.transCheck R.EXP_PERIOD (s.transValue R.EXP_PERIOD 0) v 0xFFFF = Status.ok := by
      unfold State.transCheck
      have haddr : ¬ (R.EXP_PERIOD = R.PB_TGT) ∧ ¬ (R.EXP_PERIOD = R.PB_EE) ∧ ¬ (R.EXP_PERIOD = R.LN_RATE) := by decide
      obtain ⟨htgt, hee, hrate⟩ := haddr
      rw [if_neg (by simp [htgt, hee]), if_neg (by simp [needsUnit_period]), if_neg (by simp [hrate])]
    rw [htrans, hplace, hplace, State.writeTrans, show s.transRefusal .port = none by simp [State.transRefusal, hs]]
    dsimp only
    rw [storedAfter_period, hcheck, if_neg (by decide), if_neg hpresent, if_neg (by decide), if_neg (by decide)]
    exact hput
  refine ⟨_, hwrite, ?_, ?_, ?_⟩
  · split <;> rfl
  · have hperiod : t.fld F.EXP_PERIOD_PERIOD = v.toNat := by
      rw [State.fld, show F.EXP_PERIOD_PERIOD.addr = R.EXP_PERIOD from rfl, hread]
      show v.toNat / 2 ^ 0 % 2 ^ 16 = v.toNat
      rw [Nat.pow_zero, Nat.div_one]
      exact Nat.mod_eq_of_lt v.isLt
    split
    · exact hperiod
    · exact (State.nextGen_kept.fld_apart (by decide)).trans hperiod
  · split
    · exact State.regsKept_mono hkept (by simp)
    · exact hkept.append State.nextGen_kept

/-- Settles O38. The slot begins and leaves the port as it is; a legacy write leaves it too (`State.PortKept.writeReg`). -/
theorem shortFramesAct : Obligations.ShortFramesAct := by
  unfold Obligations.ShortFramesAct
  intro a v lost s hlive hans hi hleg hprep
  obtain ⟨hup, hdue, -⟩ := State.live_iff.1 hlive
  obtain ⟨x, hbegin, hin, hresp, hclosed⟩ := State.slotBegin_short hans hi
  have hprep' : ∀ r, (s.setPort x).port.resp ≠ .prep r true := fun r => by
    rw [State.setPort_port, hresp]
    exact hprep r
  have hwrite : exec (.shortFrameWrite a v lost) s = .next ((s.setPort x).shortWrite a v lost).closeSlot := by
    show Host.Outcome.next (s.shortWriteSlot a v lost) = _
    rw [State.shortWriteSlot, hbegin, if_neg (by simp [hin])]
  have hread : exec (.shortFrameRead a) s = .next (if 0x60 ≤ a.toNat then (s.setPort x).sendShort 0 else
      ((s.setPort x).hostRead .port false a.toNat).2.sendShort
        ((s.setPort x).hostRead .port false a.toNat).1.toNat) := by
    show Host.Outcome.next (s.shortRead a) = _
    unfold State.shortRead
    dsimp only
    rw [hbegin, if_neg (by simp [hin, hleg])]
    rw [State.dueApply_of (s := s.setPort x) hdue,
      State.shortRefused_of_live (s := s.setPort x) hlive hprep' 0x81 a (.inl rfl), if_neg Bool.false_ne_true]
  rw [hbegin]
  refine ⟨fun ha => ⟨?read, ?port, ?write⟩, fun ha hidle htdi => ?period, fun ha => ⟨?readHigh, ?writeHigh⟩⟩
  case read =>
    rw [hread, if_neg (by omega)]
    rfl
  case port => exact State.hostRead_legacy_port ha .port false
  case write =>
    have hkept := State.PortKept.writeReg (s := s.setPort x) ha .port v lost
    rw [State.shortWrite_low (s := s.setPort x) hlive hleg hprep' ha] at hwrite
    generalize (s.setPort x).writeReg .port a.toNat v lost = w at *
    by_cases hok : w.1 = Status.ok
    · rw [if_pos hok, State.closeSlot_short hclosed hup hkept] at hwrite
      exact ⟨_, hwrite, rfl, fun _ => ⟨rfl, rfl⟩, fun hne => absurd hok hne⟩
    · have hflag : w.2.PortKept (w.2.setFlag F.CP_STATUS_SF_REFUSED true) := .setFlag true (by decide)
      rw [if_neg hok, State.closeSlot_short hclosed hup (hkept.trans hflag)] at hwrite
      refine ⟨_, hwrite, ?_, fun h => absurd h hok, fun _ => ⟨?_, ?_⟩⟩
      · exact congrArg (fun u : State => u.setPort s.portAfterShort) (w.2.setFlag_frame F.CP_STATUS_SF_REFUSED true 0)
      · exact State.flag_setFlag _ (by decide) (by decide) _ _
      · exact State.regsKept_trans (State.setFlag_kept (by decide) true) (State.regsKept_of_regs rfl rfl)
  case period =>
    subst ha
    have hkept := State.PortKept.writeReg (s := s.setPort x) (a := 0x06) (by decide) .port v lost
    obtain ⟨u, hu, hframe, hfld, hregs⟩ := State.writeReg_period (s := s.setPort x) hidle htdi v lost
    rw [State.shortWrite_low (s := s.setPort x) hlive hleg hprep' (by decide),
      show (0x06 : BitVec 7).toNat = 0x06 from rfl, hu, if_pos rfl] at hwrite
    rw [hu] at hkept
    rw [State.closeSlot_short hclosed hup hkept] at hwrite
    refine ⟨_, hwrite, ?_, hfld, State.regsKept_trans (State.regsKept_of_regs rfl rfl)
      (State.regsKept_trans hregs (State.regsKept_of_regs rfl rfl))⟩
    exact congrArg (fun t : State => t.setPort s.portAfterShort) hframe
  case readHigh =>
    rw [hread, if_pos ha]
    rfl
  case writeHigh =>
    rw [hwrite, State.shortWrite_high (s := s.setPort x) hleg ha, State.closeSlot_short hclosed hup .refl]
    rfl

end Sys2Proof.Machine
end

section
/-! PROOF.
The legacy column window: its translation into the quires, live and staged.
-/
namespace Sys2Proof.Machine

variable {s t : State}

/-! ### The translation (R260) -/

/-- A quire that the window from `first` to `last` reaches. -/
def columnReached (p : Part) (first last q : Nat) : Bool :=
  decide (q < p.quires) && decide (first ≤ last) && decide (max first (512 * q) ≤ min last (512 * q + 511))

/-- The quires below `n` that have a property, as a bit field. -/
def bitsOf (f : Nat → Bool) (n : Nat) : Nat := ((List.range n).filter f).foldl (fun k q => k + 2 ^ q) 0

/-- One quire more in the bit field. -/
theorem bitsOf_succ (f : Nat → Bool) (n : Nat) : bitsOf f (n + 1) = if f n then 2 ^ n + bitsOf f n else bitsOf f n := by
  unfold bitsOf
  rw [List.range_succ, List.filter_append, List.foldl_append]
  cases h : f n <;> simp [h, Nat.add_comm]

/-- The bit field of the quires below `n` has `n` bits. -/
theorem bitsOf_lt (f : Nat → Bool) (n : Nat) : bitsOf f n < 2 ^ n := by
  induction n with
  | zero => exact Nat.one_pos
  | succ n ih =>
    rw [bitsOf_succ, Nat.pow_succ]
    split <;> omega

/-- A bit of the bit field. -/
theorem testBit_bitsOf (f : Nat → Bool) (n k : Nat) : (bitsOf f n).testBit k = (decide (k < n) && f k) := by
  induction n with
  | zero => simp [bitsOf]
  | succ n ih =>
    have hlow : (bitsOf f n).testBit n = false := Nat.testBit_lt_two_pow (bitsOf_lt f n)
    rw [bitsOf_succ]
    rcases Nat.lt_trichotomy k n with hk | rfl | hk
    · have hbit : (2 ^ n + bitsOf f n).testBit k = (bitsOf f n).testBit k := Nat.testBit_two_pow_add_gt hk _
      rw [show (if f n then 2 ^ n + bitsOf f n else bitsOf f n).testBit k = (bitsOf f n).testBit k by
        split
        · exact hbit
        · rfl, ih]
      simp [hk, Nat.lt_succ_of_lt hk]
    · cases h : f k
      · simpa using hlow
      · simp [Nat.testBit_two_pow_add_eq, hlow]
    · have hsmall := bitsOf_lt f (n + 1)
      rw [bitsOf_succ] at hsmall
      rw [Nat.testBit_lt_two_pow (Nat.lt_of_lt_of_le hsmall (Nat.pow_le_pow_right (by decide) hk))]
      simp [Nat.not_lt.2 hk]

/-- The values of the window of one quire. -/
def quireWindow (first last q : Nat) : List Staged :=
  [⟨R.QR_COL_START, q, BitVec.ofNat 16 (max first (512 * q) - 512 * q)⟩,
    ⟨R.QR_COL_COUNT, q, BitVec.ofNat 16 (min last (512 * q + 511) - max first (512 * q) + 1)⟩]

/-- The translation: the enables of the quires reached, and their windows. -/
theorem columnWindow_eq (p : Part) (first last : Nat) : columnWindow p first last =
    ⟨R.QR_ENABLE, 0, BitVec.ofNat 16 (bitsOf (columnReached p first last) p.quires)⟩ ::
      ((List.range p.quires).filter (columnReached p first last)).flatMap (quireWindow first last) := by
  have hreach : (if last < first then [] else
      (List.range p.quires).filter fun q => decide (max first (512 * q) ≤ min last (512 * q + 511))) =
      (List.range p.quires).filter (columnReached p first last) := by
    split
    · next h =>
      refine (List.filter_eq_nil_iff.2 fun q _ => ?_).symm
      simp [columnReached, Nat.not_le.2 h]
    · next h =>
      refine List.filter_congr fun q hq => ?_
      simp [columnReached, List.mem_range.1 hq, Nat.not_lt.1 h]
  unfold columnWindow
  dsimp only
  rw [hreach]
  rfl

/-- No register instance appears twice in a translation. -/
theorem columnWindow_nodup (p : Part) (first last : Nat) :
    ((columnWindow p first last).map fun w => (w.addr, w.inst)).Nodup := by
  rw [columnWindow_eq, List.map_cons, List.map_flatMap, List.nodup_cons]
  refine ⟨?_, List.nodup_flatMap.2 ⟨fun q _ => ?_, ?_⟩⟩
  · simp [quireWindow, R.QR_ENABLE, R.QR_COL_START, R.QR_COL_COUNT]
  · simp [quireWindow, R.QR_COL_START, R.QR_COL_COUNT]
  · refine (List.nodup_range.filter _).imp fun {a b} hab => ?_
    simp [Function.onFun, quireWindow, List.Disjoint, hab]

/-- The registers of a translation. -/
theorem columnWindow_words {p : Part} {first last : Nat} : ∀ x ∈ stagedWords (columnWindow p first last),
    x = (Field.word R.QR_ENABLE, 0) ∨ ∃ q < p.quires, columnReached p first last q = true ∧
      (x = (Field.word R.QR_COL_START, q) ∨ x = (Field.word R.QR_COL_COUNT, q)) := by
  intro x hx
  rw [columnWindow_eq] at hx
  simp only [stagedWords, List.map_cons, List.mem_cons, List.map_flatMap, List.mem_flatMap, List.mem_filter,
    List.mem_range, quireWindow, List.map_nil, List.not_mem_nil, or_false] at hx
  rcases hx with rfl | ⟨q, ⟨hq, hr⟩, hx⟩
  · exact .inl rfl
  · exact .inr ⟨q, hq, hr, hx⟩

/-- What a translation stores: the enables, and the windows of the quires reached. -/
theorem State.storeColumns_reg (first last : Nat) : let t := s.storeAll (columnWindow s.part first last)
    (∀ q < 12, (t.reg R.QR_ENABLE).getLsbD q = columnReached s.part first last q) ∧
    ∀ q < s.part.quires, columnReached s.part first last q = true →
      t.reg R.QR_COL_START q = BitVec.ofNat 16 (max first (512 * q) - 512 * q) ∧
      t.reg R.QR_COL_COUNT q = BitVec.ofNat 16 (min last (512 * q + 511) - max first (512 * q) + 1) := by
  intro t
  have hreg := State.storeAll_reg (s := s) (fun w hw => (columnWindow_stores w hw).2) (columnWindow_nodup s.part first last)
  rw [columnWindow_eq] at hreg
  refine ⟨fun q hq => ?_, fun q hq hr => ?_⟩
  · have hen : t.reg R.QR_ENABLE = BitVec.ofNat 16 (bitsOf (columnReached s.part first last) s.part.quires) := by
      have := hreg _ List.mem_cons_self
      rwa [← columnWindow_eq] at this
    rw [hen, BitVec.getLsbD_ofNat, testBit_bitsOf]
    simp only [columnReached, show q < 16 by omega]
    cases h : decide (q < s.part.quires) <;> rfl
  · have hwin : ∀ w ∈ quireWindow first last q, t.reg w.addr w.inst = w.value := fun w hw => by
      have := hreg w (List.mem_cons_of_mem _ (List.mem_flatMap.2
        ⟨q, List.mem_filter.2 ⟨List.mem_range.2 hq, hr⟩, hw⟩))
      rwa [← columnWindow_eq] at this
    have hstart := hwin _ List.mem_cons_self
    have hcount := hwin _ (List.mem_cons_of_mem _ List.mem_cons_self)
    exact ⟨hstart, hcount⟩

/-! ### The registers' own values -/

/-- A register of which only a field changes. -/
theorem State.setReg_kept_field {f : Field} {i : Nat} {w : Word} (hi : i < 256)
    (h : ∀ b < 16, ¬(f.lo ≤ b ∧ b ≤ f.hi) → w.getLsbD b = (s.reg f.addr i).getLsbD b) :
    s.regsKept (s.setReg f.addr w i) [(f, i)] := by
  intro c j b hj hb
  refine ⟨?_, rfl⟩
  by_cases hk : regKey c j = regKey f.addr i
  · obtain ⟨rfl, rfl⟩ := regKey_inj hj hi hk
    rw [State.reg_setReg]
    by_cases hlt : b < 16
    · exact h b hlt fun hx => hb ⟨_, List.mem_cons_self, rfl, rfl, hx⟩
    · rw [BitVec.getLsbD_of_ge _ _ (by omega), BitVec.getLsbD_of_ge _ _ (by omega)]
  · rw [State.reg_setReg_ne s _ hk]

/-- The field of a column-window register: the first column, or the last. -/
def columnField (last : Bool) : Field := if last then F.LEG_COL_LAST_E else F.LEG_COL_FIRST_S

/-- The value that a column-window register stores. -/
def columnStored (last : Bool) (old v : Word) : Word :=
  limitWord (columnField last).addr (storedAfter (columnField last).addr old v 0xFFFF)

/-- The bits of a column-window register's field take the value, the others stay. -/
theorem getLsbD_columnStored (last : Bool) (old v : Word) {b : Nat} (hb : b < 16) :
    (columnStored last old v).getLsbD b = if b ≤ 12 then v.getLsbD b else old.getLsbD b := by
  have hmask : ∀ c < 16, (accessMask (columnField last).addr .rw).getLsbD c = decide (c ≤ 12) ∧
      (accessMask (columnField last).addr .w1c).getLsbD c = false ∧ (0xFFFF : Word).getLsbD c = true := by
    cases last <;> decide
  obtain ⟨hrw, hw1c, hall⟩ := hmask b hb
  have hlimit : columnStored last old v = storedAfter (columnField last).addr old v 0xFFFF := by cases last <;> rfl
  rw [hlimit, getLsbD_storedAfter _ _ _ _ hb, hrw, hw1c, hall]
  by_cases h : b ≤ 12 <;> simp [h]

/-- The first and the last column after a write of one of them. -/
def State.columnsAfter (s : State) (last : Bool) (v : Word) : Nat × Nat :=
  (if last then s.fld F.LEG_COL_FIRST_S else F.LEG_COL_FIRST_S.of v,
    if last then F.LEG_COL_LAST_E.of v else s.fld F.LEG_COL_LAST_E)

/-- A column-window register stored: both columns, and nothing else changed. -/
theorem State.setColumn_spec (last : Bool) (v : Word) :
    let t := s.setReg (columnField last).addr (columnStored last (s.reg (columnField last).addr) v)
    (t.fld F.LEG_COL_FIRST_S, t.fld F.LEG_COL_LAST_E) = s.columnsAfter last v ∧ s.regsKept t [(columnField last, 0)] := by
  intro t
  have hof : ∀ old (f : Field), f.hi = 12 → f.of (columnStored last old v) = f.of v := fun old f hf =>
    Field.of_congr fun b _ hb => by rw [getLsbD_columnStored last old v (by omega), if_pos (by omega)]
  have hkept : s.regsKept t [(columnField last, 0)] := State.setReg_kept_field (by decide) fun b hb hn => by
    rw [getLsbD_columnStored last _ v hb, if_neg fun h => hn ⟨by cases last <;> exact Nat.zero_le b, by cases last <;> exact h⟩]
  refine ⟨?_, hkept⟩
  have hown : t.fld (columnField last) = (columnField last).of v :=
    (congrArg _ (State.reg_setReg ..)).trans (hof _ _ (by cases last <;> rfl))
  cases last
  · exact Prod.ext hown (hkept.fld_eq (by decide) (by decide))
  · exact Prod.ext (hkept.fld_eq (by decide) (by decide)) hown

/-- The columns that a write of a column-window register translates. -/
theorem State.writeColumns_window (last : Bool) (v : Word) :
    let a := (columnField last).addr
    let w := columnStored last (s.reg a) v
    ((if R.LEG_COL_FIRST = a then w else s.reg R.LEG_COL_FIRST).toNat % 2 ^ 13,
      (if R.LEG_COL_LAST = a then w else s.reg R.LEG_COL_LAST).toNat % 2 ^ 13) = s.columnsAfter last v := by
  intro a w
  rw [← (s.setColumn_spec last v).1]
  have hfld : ∀ (t : State) (f : Field), f.lo = 0 → f.hi = 12 → t.fld f = (t.reg f.addr).toNat % 2 ^ 13 := by
    intro t f hlo hhi
    rw [State.fld, Field.of, bits, hlo, hhi, Nat.pow_zero, Nat.div_one]
  rw [hfld _ _ rfl rfl, hfld _ _ rfl rfl]
  cases last
  · exact Prod.ext (congrArg (fun w : Word => w.toNat % 2 ^ 13) (State.reg_setReg ..).symm)
      (congrArg (fun w : Word => w.toNat % 2 ^ 13) (State.reg_setReg_ne s _ (by decide)).symm)
  · exact Prod.ext (congrArg (fun w : Word => w.toNat % 2 ^ 13) (State.reg_setReg_ne s _ (by decide)).symm)
      (congrArg (fun w : Word => w.toNat % 2 ^ 13) (State.reg_setReg ..).symm)

/-! ### The write -/

/-- Values without hooks put live outside TDI, with no injection pending, are stored and counted. -/
theorem State.putTrans_stores {ws : List Staged} (h : ∀ w ∈ ws, w.stores) (hs : s.bnd.txn = .idle)
    (htdi : s.exp.tdiCtx = none) (hp : s.flt.pending = none) : ∃ u, s.putTrans ws [] = (Status.ok, u) ∧
      u = { s with regs := u.regs } ∧ (s.storeAll ws).regsKept u [(F.BND_GEN_GEN, 0)] := by
  have hframe := s.storeAll_frame ws
  have hlive : s.makeLive ws [] = s.storeAll ws := by
    rw [State.makeLive_stores h, State.cancelDisabled_of_none (by rw [hframe]; exact hp),
      State.restartTdi_of_none (by rw [hframe]; exact htdi), ite_self]
  unfold State.putTrans
  rw [if_neg (by rw [hs]; decide)]
  dsimp only
  rw [hlive]
  refine ⟨_, rfl, ?_⟩
  refine List.foldlRecOn (motive := fun u => u = { s with regs := u.regs } ∧
    (s.storeAll ws).regsKept u [(F.BND_GEN_GEN, 0)]) _ _ ⟨hframe, State.regsKept_refl⟩ fun u ⟨hu, hk⟩ _ _ => ⟨?_, ?_⟩
  · rw [hu]; rfl
  · exact State.regsKept_trans hk State.nextGen_kept

/-- Values of registers none of which is staged take slots, where there are enough. -/
theorem Bindery.stageAll_fresh {ws : List Staged} {b : Bindery}
    (hnd : ((b.staged ++ ws).map fun w => (w.addr, w.inst)).Nodup) (hlen : (b.staged ++ ws).length ≤ stagingSlots) :
    b.stageAll ws = some { b with staged := b.staged ++ ws } := by
  induction ws generalizing b with
  | nil => simp [Bindery.stageAll]
  | cons w ws ih =>
    have hnew : b.stagedValue w.addr w.inst = none := by
      rw [List.map_append, List.map_cons, List.nodup_append] at hnd
      unfold Bindery.stagedValue
      rw [Option.map_eq_none_iff, List.find?_eq_none]
      intro x hx hxw
      simp only [Bool.and_eq_true, beq_iff_eq] at hxw
      exact hnd.2.2 _ (List.mem_map_of_mem hx) _ List.mem_cons_self (Prod.ext hxw.1 hxw.2)
    have hroom : b.staged.length < stagingSlots := by
      rw [List.length_append, List.length_cons] at hlen
      omega
    have hone : b.stage w = some { b with staged := b.staged ++ [w] } := by
      unfold Bindery.stage
      rw [hnew, if_neg (by simp), if_pos hroom]
    rw [Bindery.stageAll, hone]
    dsimp only
    rw [ih (by simpa using hnd) (by simpa using hlen)]
    simp

/-- A translation has at most 25 values. -/
theorem columnWindow_length (p : Part) (first last : Nat) : (columnWindow p first last).length ≤ 25 := by
  have hquires : p.quires ≤ 12 := by cases p <;> decide
  have hfilter := List.length_filter_le (columnReached p first last) (List.range p.quires)
  rw [List.length_range] at hfilter
  have hsum (l : List Nat) : (l.flatMap (quireWindow first last)).length = 2 * l.length := by
    induction l with
    | nil => rfl
    | cons q l ih =>
      rw [List.flatMap_cons, List.length_append, ih, List.length_cons]
      show 2 + 2 * l.length = _
      omega
  rw [columnWindow_eq, List.length_cons, hsum]
  omega

/-- A write of a column-window register by the port. -/
theorem State.exec_legColWindowWrite (hlive : s.live = true) (last : Bool) (v : Word)
    (hs : s.bnd.txn = .idle ∨ s.bnd.txn = .open_ ∧ s.bnd.staged = []) :
    exec (.legColWindowWrite last v) s =
      .next (s.writeColumns (columnField last).addr (columnStored last (s.reg (columnField last).addr) v)).2 := by
  have hport : exec (.legColWindowWrite last v) s = .next (s.portWrite (columnField last).addr v false) := by
    cases last <;> rfl
  have hwrite : (s.writeMasked .port (columnField last).addr v 0xFFFF false) =
      s.writeTrans .port (columnField last).addr 0 v 0xFFFF := by cases last <;> rfl
  have hvalue : s.transValue (columnField last).addr 0 = s.reg (columnField last).addr := by
    unfold State.transValue
    rcases hs with hs | ⟨hs, hn⟩
    · rw [if_neg (by rw [hs]; decide)]
    · rw [if_pos hs, Bindery.stagedValue, hn]
      rfl
  have hallowed : s.transRefusal .port = none := by
    rcases hs with hs | ⟨hs, -⟩ <;> simp [State.transRefusal, hs]
  rw [hport, State.portWrite_of_live hlive, hwrite, State.writeTrans, hallowed]
  dsimp only
  rw [hvalue, if_pos (by cases last <;> simp [columnField, F.LEG_COL_FIRST_S, F.LEG_COL_LAST_E, R.LEG_COL_FIRST, R.LEG_COL_LAST])]
  rfl

/-- What a live translation leaves of the quires: enabled are those reached, with their windows; the windows of the
others stay. -/
theorem State.columns_live {u : State} {S E : Nat}
    (hgen : (t.storeAll (columnWindow t.part S E)).regsKept u [(F.BND_GEN_GEN, 0)]) : ∀ q < 12,
      (u.reg R.QR_ENABLE).getLsbD q = columnReached t.part S E q ∧
      (columnReached t.part S E q = true → (u.reg R.QR_COL_START q).toNat = max S (512 * q) - 512 * q ∧
        (u.reg R.QR_COL_COUNT q).toNat = min E (512 * q + 511) - max S (512 * q) + 1) ∧
      (columnReached t.part S E q = false → u.reg R.QR_COL_START q = t.reg R.QR_COL_START q ∧
        u.reg R.QR_COL_COUNT q = t.reg R.QR_COL_COUNT q) := by
  intro q hq
  obtain ⟨hen, hwin⟩ := State.storeColumns_reg (s := t) S E
  have hstored : t.regsKept (t.storeAll (columnWindow t.part S E)) (stagedWords (columnWindow t.part S E)) :=
    State.storeAll_kept fun x hx => (columnWindow_stores x hx).2
  have hquire : ∀ b, b ≠ R.BND_GEN → u.reg b q = (t.storeAll (columnWindow t.part S E)).reg b q := fun b hb =>
    hgen.reg_eq (by omega) (List.forall_mem_singleton.2 fun e => absurd e.symm hb)
  refine ⟨(congrArg (·.getLsbD q) (hgen.reg_eq (by decide) (by decide))).trans (hen q hq), fun hr => ?_, fun hr => ?_⟩
  · obtain ⟨⟨hlt, -⟩, hle⟩ : (q < t.part.quires ∧ S ≤ E) ∧ max S (512 * q) ≤ min E (512 * q + 511) := by
      simpa [columnReached] using hr
    obtain ⟨hstart, hcount⟩ := hwin q hlt hr
    rw [hquire _ (by decide), hquire _ (by decide), hstart, hcount, BitVec.toNat_ofNat, BitVec.toNat_ofNat]
    exact ⟨Nat.mod_eq_of_lt (by omega), Nat.mod_eq_of_lt (by omega)⟩
  · have hunchanged : ∀ b, b ≠ R.BND_GEN → b ≠ R.QR_ENABLE → u.reg b q = t.reg b q := by
      intro b hb hen
      rw [hquire b hb]
      refine hstored.reg_eq (by omega) fun x hx ha hi => ?_
      rcases columnWindow_words x hx with rfl | ⟨k, -, hreach, rfl | rfl⟩
      · exact hen ha.symm
      all_goals
        obtain rfl : k = q := hi
        exact Bool.false_ne_true (hr.symm.trans hreach)
    exact ⟨hunchanged _ (by decide) (by decide), hunchanged _ (by decide) (by decide)⟩

/-- A live translation leaves the column-window registers. -/
theorem State.columns_live_apart {u : State} {S E : Nat} {f : Field}
    (hall : t.regsKept u (stagedWords (columnWindow t.part S E) ++ [(F.BND_GEN_GEN, 0)]))
    (hf : f.addr ≠ R.QR_ENABLE ∧ f.addr ≠ R.QR_COL_START ∧ f.addr ≠ R.QR_COL_COUNT ∧ f.addr ≠ R.BND_GEN) :
    u.fld f = t.fld f := by
  obtain ⟨hen, hstart, hcount, hgen⟩ := hf
  refine hall.fld_eq (by decide) fun x hx ha => ?_
  rcases List.mem_append.1 hx with hx | hx
  · rcases columnWindow_words x hx with rfl | ⟨q, -, -, rfl | rfl⟩
    · exact absurd ha.symm hen
    · exact absurd ha.symm hstart
    · exact absurd ha.symm hcount
  · rw [List.mem_singleton.1 hx] at ha
    exact absurd ha.symm hgen

/-- The registers that a live write of a column-window register may change. -/
theorem columnWindow_listed {p : Part} {S E : Nat} {own : Field × Nat} :
    ∀ x ∈ [own] ++ (stagedWords (columnWindow p S E) ++ [(F.BND_GEN_GEN, 0)]),
      x ∈ [(Field.word R.QR_ENABLE, 0), (F.BND_GEN_GEN, 0), own] ++
        (List.range 12).flatMap fun q => [(Field.word R.QR_COL_START, q), (Field.word R.QR_COL_COUNT, q)] := by
  intro x hx
  have hquires : p.quires ≤ 12 := by cases p <;> decide
  simp only [List.mem_append, List.mem_singleton] at hx
  rcases hx with rfl | hx | rfl
  · simp
  · rcases columnWindow_words x hx with rfl | ⟨q, hq, -, hx⟩
    · simp
    · exact List.mem_append_right _ (List.mem_flatMap.2 ⟨q, List.mem_range.2 (by omega), by simpa using hx⟩)
  · simp

/-- Settles O23. The register's own value is stored first, the translation after it. -/
theorem legacyColumns : Obligations.LegacyColumns := by
  unfold Obligations.LegacyColumns
  intro last v s hlive S E own
  let a := (columnField last).addr
  let w := columnStored last (s.reg a) v
  let t := s.setReg a w
  obtain ⟨hcols, hkept⟩ := s.setColumn_spec last v
  obtain ⟨hfirst, hlast⟩ : t.fld F.LEG_COL_FIRST_S = S ∧ t.fld F.LEG_COL_LAST_E = E := Prod.ext_iff.1 hcols
  obtain ⟨hS, hE⟩ : (if R.LEG_COL_FIRST = a then w else s.reg R.LEG_COL_FIRST).toNat % 2 ^ 13 = S ∧
      (if R.LEG_COL_LAST = a then w else s.reg R.LEG_COL_LAST).toNat % 2 ^ 13 = E :=
    Prod.ext_iff.1 (s.writeColumns_window last v)
  replace hkept : s.regsKept t [own] := hkept
  refine ⟨fun hs htdi hp => ?_, fun hs hnone => ?_⟩
  · have hown : storesOnly a = true := by cases last <;> rfl
    obtain ⟨u, hput, hframe, hgen⟩ := State.putTrans_stores (s := s) (ws := ⟨a, 0, w⟩ :: columnWindow s.part S E)
      (fun x hx => (List.mem_cons.1 hx).elim (fun h => h ▸ ⟨hown, Nat.zero_lt_succ _⟩) (columnWindow_stores x)) hs htdi hp
    replace hgen : (t.storeAll (columnWindow t.part S E)).regsKept u [(F.BND_GEN_GEN, 0)] := hgen
    have hwrite : exec (.legColWindowWrite last v) s = .next u := by
      rw [State.exec_legColWindowWrite hlive last v (.inl hs), State.writeColumns]
      dsimp only
      rw [hS, hE, if_neg (by rw [hs]; decide), hput]
    have hall : t.regsKept u (stagedWords (columnWindow t.part S E) ++ [(F.BND_GEN_GEN, 0)]) :=
      (State.storeAll_kept fun x hx => (columnWindow_stores x hx).2).append hgen
    refine ⟨u, hwrite, hframe, (State.columns_live_apart hall (by decide)).trans hfirst,
      (State.columns_live_apart hall (by decide)).trans hlast,
      State.regsKept_mono (hkept.append hall) columnWindow_listed, fun q hq => ?_⟩
    obtain ⟨hen, hwin, hother⟩ := State.columns_live hgen q hq
    have hbefore : ∀ b, b = R.QR_COL_START ∨ b = R.QR_COL_COUNT → t.reg b q = s.reg b q := by
      intro b hb
      refine hkept.reg_eq (by omega) (List.forall_mem_singleton.2 fun ha => ?_)
      rcases hb with rfl | rfl <;> cases last <;> exact absurd ha (by decide)
    exact ⟨hen, hwin, fun hr => ⟨(hother hr).1.trans (hbefore _ (.inl rfl)), (hother hr).2.trans (hbefore _ (.inr rfl))⟩⟩
  · have hstage : s.bnd.stageAll (columnWindow s.part S E) = some { s.bnd with staged := columnWindow s.part S E } := by
      have hlen := columnWindow_length s.part S E
      rw [Bindery.stageAll_fresh (by rw [hnone]; exact columnWindow_nodup ..)
        (by rw [hnone]; exact hlen.trans (by decide)), hnone]
      rfl
    have hwrite : exec (.legColWindowWrite last v) s =
        .next ((s.setBnd { s.bnd with staged := columnWindow s.part S E }).setReg a w) := by
      rw [State.exec_legColWindowWrite hlive last v (.inr ⟨hs, hnone⟩), State.writeColumns]
      dsimp only
      rw [hS, hE, if_pos hs, hstage]
    exact ⟨_, hwrite, rfl, hfirst, hlast, hkept⟩

end Sys2Proof.Machine
end

section
/-! PROOF.
Streaming: its start, its stop, its drain, and the free-run timer.
-/
namespace Sys2Proof.Machine

variable {s t : State}

/-- A write of 1 to EXP_CTRL.RUN by the port, or of 0. -/
theorem State.hostWrite_run (hlive : s.live = true) (b : Bool) :
    s.hostWrite .port R.EXP_CTRL (if b then 1 else 0) 1 false =
      if (s.writeRun b).1 = Status.ok then (s.writeRun b).2.storeReg R.EXP_CTRL 0 (if b then 1 else 0) 0 else s := by
  rw [State.hostWrite_of_live hlive]
  cases b <;> rfl

/-- RUN reads as before once EXP_CTRL is stored as it is. -/
theorem State.run_setReg_self : (s.setReg R.EXP_CTRL (s.reg R.EXP_CTRL)).flag F.EXP_CTRL_RUN = s.flag F.EXP_CTRL_RUN :=
  congrArg (F.EXP_CTRL_RUN.of · == 1) (State.reg_setReg ..)

/-- A frame or folio that is left keeps the stream from draining (R273). -/
theorem State.drained_of_left (h : s.pwr.state = .streaming → s.exp.stopping = true → s.busy = true) : s.drained = s := by
  unfold State.drained
  refine if_neg fun hc => ?_
  simp only [Bool.and_eq_true, beq_iff_eq, Bool.not_eq_true'] at hc
  obtain ⟨⟨hst, hstop⟩, hidle⟩ := hc
  exact Bool.false_ne_true (hidle.symm.trans (h hst hstop))

/-- Streaming and the free-run timer's first expiry, as RUN = 1 leaves them. -/
def State.streams (s : State) : State :=
  { s with
    pwr := { s.pwr with state := .streaming }
    flt := { s.flt with pending := if s.pwr.state = .streaming then s.flt.pending else none }
    exp := { s.exp with
      timer := some 1, fired := false, stopping := false, tdiFirst := s.exp.tdiCount, tdiCtx := none
      lastNumber := if s.pwr.state = .streaming then s.exp.lastNumber else none } }

/-- A change of state cancels what is pending (R631). -/
theorem State.changesTo_eq (st : PState) : s.changesTo st = { s with
    pwr := { s.pwr with state := st }
    flt := { s.flt with pending := if s.pwr.state = st then s.flt.pending else none } } := by
  unfold State.changesTo State.injDone
  split <;> rfl

/-- RUN = 1 accepted. -/
theorem State.startRun_eq : s.startRun = s.streams.setFlag F.EXP_CTRL_RUN true := by
  unfold State.startRun
  dsimp only
  rw [State.changesTo_eq]
  rfl

/-- The drain from Streaming: a change of state, the stale timer from 0, the waveform sets checked. -/
theorem State.drained_spec (hst : s.pwr.state = .streaming) (hstop : s.exp.stopping = true) (hidle : s.busy = false) :
    s.drained = { s with
      regs := s.drained.regs, fresh := s.drained.fresh, mem := s.drained.mem, flt := s.drained.flt
      cnv := { s.cnv with waveValid := s.drained.cnv.waveValid }
      exp := { s.exp with stopping := false }, tmp := { s.tmp with timer := 0 }
      pwr := { s.pwr with state := .armed } } ∧ s.drained.flt.pending = none := by
  let v : State := { s with
    exp := { s.exp with stopping := false }, tmp := { s.tmp with timer := 0 }, pwr := { s.pwr with state := .armed }
    flt := { s.flt with pending := none } }
  have hdrained : s.drained = v.checkWaves := by
    unfold State.drained
    rw [if_pos (by simp [hst, hstop, hidle])]
    dsimp only
    rw [State.changesTo_eq, if_neg (by rw [State.setExp_pwr, hst]; decide)]
    rfl
  obtain ⟨u, w, hu, hframe, -⟩ := v.checkWaves_frame
  rw [hdrained]
  generalize v.checkWaves = x at *
  rw [hu.frame] at hframe
  rw [hframe]
  exact ⟨rfl, rfl⟩

/-- TDI lines of which nothing is in progress are dropped without a trace. -/
theorem State.dropTdiLines_of_none (h : s.exp.tdiLines = []) :
    s.dropTdiLines.2 = { s with exp := { s.exp with tdiFirst := s.exp.tdiCount, tdiCtx := none } } := by
  unfold State.dropTdiLines
  dsimp only
  rw [h]
  rfl

/-- Settles O39. -/
theorem runStartsAndStops : Obligations.RunStartsAndStops := by
  unfold Obligations.RunStartsAndStops
  intro s
  have hstart : s.live = true → exec .runStart s = .next (s.hostWrite .port R.EXP_CTRL (if true then 1 else 0) 1 false) :=
    fun _ => rfl
  have hstop : s.live = true → exec .runStop s = .next (s.hostWrite .port R.EXP_CTRL (if false then 1 else 0) 1 false) :=
    fun _ => rfl
  have hself : ∀ (u : State) v, u.storeReg R.EXP_CTRL 0 v 0 = u.setReg R.EXP_CTRL (u.reg R.EXP_CTRL) :=
    fun u v => State.storeReg_none (s := u) (by decide) 0 v
  refine ⟨fun hlive => ⟨fun hleft => ⟨fun hrun hok => ?starts, fun hno => ?refused, fun hrun hok => ?again⟩,
    fun hrun hlines => ?stops⟩, fun hst hstopping hidle => ?drains, fun hbusy => ?waits, fun hrun htimer => ?expires⟩
  case starts =>
    have hwrite : s.writeRun true = (Status.ok, s.startRun) := by
      simp [State.writeRun, State.drained_of_left hleft, hok, hrun]
    rw [hstart hlive, State.hostWrite_run hlive, hwrite, if_pos rfl, hself, State.startRun_eq]
    have hkept : s.streams.regsKept _ [(F.EXP_CTRL_RUN, 0)] := State.setFlag_kept (by decide) true
    refine ⟨_, rfl, ?_, ?_, State.regsKept_trans (State.regsKept_of_regs rfl rfl)
      (State.regsKept_trans hkept (State.setReg_self_kept _ _ _))⟩
    · rfl
    · exact State.run_setReg_self.trans (State.flag_setFlag s.streams (by decide) (by decide) true 0)
  case refused =>
    have hwrite : (s.writeRun true).1 ≠ Status.ok := by
      simp [State.writeRun, State.drained_of_left hleft, hno]
    rw [hstart hlive, State.hostWrite_run hlive, if_neg hwrite]
  case again =>
    have hwrite : s.writeRun true = (Status.ok, s) := by
      simp [State.writeRun, State.drained_of_left hleft, hok, hrun]
    rw [hstart hlive, State.hostWrite_run hlive, hwrite, if_pos rfl, hself]
    exact ⟨_, rfl, rfl, State.setReg_self_kept _ _ _⟩
  case stops =>
    have hwrite : s.writeRun false = (Status.ok, s.stopRun) := by
      simp [State.writeRun, hrun]
    rw [hstop hlive, State.hostWrite_run hlive, hwrite, if_pos rfl, hself, State.stopRun, State.dropTdiLines_of_none hlines]
    dsimp only
    generalize hu : ({ s with exp := { s.exp with
      timer := none, fired := false, stopping := true, tdiFirst := s.exp.tdiCount, tdiCtx := none, tdiGap := false } } : State) = u
    have hkept : u.regsKept _ [(F.EXP_CTRL_RUN, 0)] := State.setFlag_kept (by decide) false
    refine ⟨_, rfl, ?_, ?_, State.regsKept_trans (State.regsKept_of_regs (by rw [← hu]) (by rw [← hu]))
      (State.regsKept_trans hkept (State.setReg_self_kept _ _ _))⟩
    · rw [← hu]
      rfl
    · exact State.run_setReg_self.trans (State.flag_setFlag u (by decide) (by decide) false 0)
  case drains =>
    obtain ⟨hframe, hnone⟩ := State.drained_spec hst hstopping hidle
    exact ⟨_, rfl, hframe, hnone⟩
  case waits => exact congrArg Host.Outcome.next (State.drained_of_left fun _ _ => hbusy)
  case expires =>
    intro n
    have hfree : s.freeRun = s.loadTimer true := by
      simp [State.freeRun, hrun, htimer]
    exact congrArg Host.Outcome.next hfree

end Sys2Proof.Machine
end

section
/-! PROOF.
The compile of the DEFECT store: its start with entry 0, and its end.
-/
namespace Sys2Proof.Machine

variable {s : State}

/-! ### Reads of a word without an error -/

/-- A word never written reads as zeros (R564). -/
theorem State.readWord_invalid {w : WordAddr} (h : s.mem.isValid w = false) (rd : Reader) (inspect : Bool) :
    s.readWord rd inspect w = (some ⟨List.replicate (wordSize w.store) 0, false, 0, 0⟩, s) := by
  unfold State.readWord
  rw [h, if_neg Bool.false_ne_true]

/-- A word whose code is right reads as its bytes. -/
theorem State.readWord_clean {w : WordAddr} (hv : s.mem.isValid w = true) (hc : s.wordClean w) (rd : Reader) (inspect : Bool) :
    s.readWord rd inspect w = (some ⟨(s.mem.raw w).take (wordSize w.store), false, 0, 0⟩, s) := by
  unfold State.readWord
  rw [if_pos hv, hc hv]

/-! ### The compile -/

/-- The entry at which a compile has arrived. -/
def Compile.entry (c : Compile) : WordAddr := ⟨Store.defect, false, c.next⟩

/-- The compile `c` as the unit's present one. -/
def State.compiling (s : State) (c : Compile) : State := s.setCnv { s.cnv with compile := some c }

/-- A word never written ends the reading. -/
theorem State.compileStep_invalid {c : Compile} (h : s.cnv.compile = some c) (he : c.ended = false)
    (hv : s.mem.isValid c.entry = false) : s.compileStep = s.compiling { c with ended := true } := by
  unfold State.compileStep
  rw [h]
  dsimp only
  rw [he, if_neg Bool.false_ne_true, show (⟨Store.defect, false, c.next⟩ : WordAddr) = c.entry from rfl,
    State.readWord_invalid hv]
  exact if_pos (show bits (natBE (List.replicate 4 0)) 31 28 = 0 by decide)

/-- An END word ends the reading; an accepted entry is kept. -/
theorem State.compileStep_clean {c : Compile} (h : s.cnv.compile = some c) (he : c.ended = false)
    (hv : s.mem.isValid c.entry = true) (hc : s.wordClean c.entry) :
    let w := natBE ((s.mem.raw c.entry).take 4)
    (bits w 31 28 = 0 → s.compileStep = s.compiling { c with ended := true }) ∧
    ∀ d, bits w 31 28 ≠ 0 → judge s.part c.accepted w false = (.accepted, d) →
      s.compileStep = s.compiling { c with next := c.next + 1, ended := c.next == 8191, accepted := d :: c.accepted } := by
  intro w
  have hread : s.readWord .internal false c.entry = (some ⟨(s.mem.raw c.entry).take 4, false, 0, 0⟩, s) :=
    State.readWord_clean hv hc _ _
  have hstep : s.compileStep =
      if bits w 31 28 = 0 then s.compiling { c with ended := true }
      else match judge s.part c.accepted w false with
        | (.ignored, _) => (s.count F.CNV_DEF_STATUS_IGNORED).compiling { c with next := c.next + 1, ended := c.next == 8191 }
        | (.dup, _) => (s.count F.CNV_DEF_STATUS_DEFECT_DUP).compiling { c with next := c.next + 1, ended := c.next == 8191 }
        | (.accepted, d) =>
          s.compiling { c with next := c.next + 1, ended := c.next == 8191, accepted := d :: c.accepted } := by
    unfold State.compileStep
    rw [h]
    dsimp only
    rw [he, if_neg Bool.false_ne_true, show (⟨Store.defect, false, c.next⟩ : WordAddr) = c.entry from rfl, hread]
    rfl
  refine ⟨fun hend => ?_, fun d hne hj => ?_⟩
  · rw [hstep, if_pos hend]
  · rw [hstep, if_neg hne, hj]

/-- The state that a compile starts from: no table in force, no entry read, the counts at 0. -/
def State.compileBegun (s : State) : State :=
  ((s.setCnv { s.cnv with compile := some { next := 0, ended := false, accepted := [] }, defects := [] }).setFld
    F.CNV_DEF_STATUS_DEFECT_DUP 0).setFld F.CNV_DEF_STATUS_IGNORED 0

/-- The counts of a compile that starts. -/
theorem State.compileBegun_spec : s.compileBegun.fld F.CNV_DEF_STATUS_DEFECT_DUP = 0 ∧
    s.compileBegun.fld F.CNV_DEF_STATUS_IGNORED = 0 ∧
    s.regsKept s.compileBegun [(F.CNV_DEF_STATUS_DEFECT_DUP, 0), (F.CNV_DEF_STATUS_IGNORED, 0)] := by
  let t := s.setCnv { s.cnv with compile := some { next := 0, ended := false, accepted := [] }, defects := [] }
  have hdup : s.regsKept (t.setFld F.CNV_DEF_STATUS_DEFECT_DUP 0) [(F.CNV_DEF_STATUS_DEFECT_DUP, 0)] :=
    State.regsKept_trans (State.regsKept_of_regs rfl rfl) (State.setFld_kept (by decide) 0)
  have hign : (t.setFld F.CNV_DEF_STATUS_DEFECT_DUP 0).regsKept s.compileBegun [(F.CNV_DEF_STATUS_IGNORED, 0)] :=
    State.setFld_kept (by decide) 0
  refine ⟨(hign.fld_apart (by decide)).trans (State.fld_setFld_of_lt (by decide) (by decide)),
    State.fld_setFld_of_lt (by decide) (by decide), hdup.append hign⟩

/-- A write of 1 to DEF_LOAD by the port. -/
theorem State.exec_defLoad (hlive : s.live = true) :
    exec .defLoad s = .next (if s.pwr.state = .streaming then s else s.startCompile) := by
  have hwrite : s.writeMasked .port R.CNV_DEF_STATUS 0x8000 0x8000 false =
      ifOk s (if s.pwr.state = .streaming then Status.state else Status.ok) s.startCompile := rfl
  show Host.Outcome.next (s.hostWrite .port R.CNV_DEF_STATUS 0x8000 0x8000 false) = _
  rw [State.hostWrite_of_live hlive, hwrite]
  by_cases h : s.pwr.state = .streaming <;> simp [ifOk, h, Status.state, Status.ok]

/-- After the end no entry is read. -/
theorem State.compileRest_of_ended {c : Compile} (h : s.cnv.compile = some c) (he : c.ended = true) (n : Nat) :
    s.compileRest n = s := by
  cases n with
  | zero => rfl
  | succ n => rw [State.compileRest, h]; simp [he]

/-- Where the entries are read to their end, the table goes into force. -/
theorem State.compileDone_of_ended {c : Compile} (h : s.cnv.compile = some c) (he : c.ended = true) :
    s.compileDone = s.setCnv { s.cnv with compile := none, defects := c.accepted.reverse } := by
  unfold State.compileDone
  rw [State.compileRest_of_ended h he]
  dsimp only
  rw [h]
  exact if_pos he

/-- Where the next entry was never written, it ends the reading. -/
theorem State.compileDone_of_invalid {c : Compile} (h : s.cnv.compile = some c) (he : c.ended = false)
    (hf : s.mem.failing = []) (hv : s.mem.isValid c.entry = false) :
    s.compileDone = s.setCnv { s.cnv with compile := none, defects := c.accepted.reverse } := by
  have hrest : ∀ n, s.compileRest (n + 1) = s.compiling { c with ended := true } := fun n => by
    rw [State.compileRest, h]
    dsimp only
    rw [if_neg (by simp [he, hf]), State.compileStep_invalid h he hv]
    exact State.compileRest_of_ended rfl rfl n
  unfold State.compileDone
  rw [hrest 8191]
  exact if_pos rfl

/-- Settles O45. -/
theorem defectsCompile : Obligations.DefectsCompile := by
  unfold Obligations.DefectsCompile
  refine fun s => ⟨fun hlive => ⟨fun hst => ?_, fun hst => ?_⟩, fun c h hend => ?_⟩
  · intro a w c hc
    have hcompile : s.compileBegun.cnv.compile = some { next := 0, ended := false, accepted := [] } := rfl
    have hstep : s.compileBegun.compileStep = s.compileBegun.compiling c := by
      rcases hc with ⟨hv, rfl⟩ | ⟨hv, hclean, ⟨hend, rfl⟩ | ⟨hne, d, hj, rfl⟩⟩
      · exact State.compileStep_invalid hcompile rfl hv
      · exact (State.compileStep_clean (s := s.compileBegun) hcompile rfl hv hclean).1 hend
      · exact (State.compileStep_clean (s := s.compileBegun) hcompile rfl hv hclean).2 d hne hj
    have hload : exec .defLoad s = .next (s.compileBegun.compiling c) := by
      rw [State.exec_defLoad hlive, if_neg hst, ← hstep]
      rfl
    obtain ⟨hdup, hign, hkept⟩ := s.compileBegun_spec
    exact ⟨_, hload, rfl, hdup, hign, State.regsKept_trans hkept (State.regsKept_of_regs rfl rfl)⟩
  · rw [State.exec_defLoad hlive, if_pos hst]
  · show Host.Outcome.next s.compileDone = _
    cases he : c.ended with
    | true => rw [State.compileDone_of_ended h he]; rfl
    | false =>
      obtain ⟨hf, hv⟩ := hend.resolve_left (by simp [he])
      rw [State.compileDone_of_invalid h he hf hv]
      rfl

end Sys2Proof.Machine
end

section
/-! PROOF.
The Spine's counters: release and halt, arm, load, and the pulses of REFCLK.
-/
namespace Sys2Proof.Machine

variable {s t u : State}

/-! ### Changes of counters alone -/

/-- From `s` to `t` only the counters have changed. -/
def State.OnlyCounters (s t : State) : Prop := t = { s with spn := { s.spn with counters := t.spn.counters } }

theorem State.OnlyCounters.trans (h : s.OnlyCounters t) (h' : t.OnlyCounters u) : s.OnlyCounters u := by
  unfold State.OnlyCounters at h h' ⊢
  rw [h] at h'
  exact h'

/-- The settings of the counters and the position are the same. -/
theorem State.OnlyCounters.settings (h : s.OnlyCounters t) (n : Nat) :
    t.locked n = s.locked n ∧ t.source n = s.source n ∧ t.pos = s.pos := by
  rw [h]
  exact ⟨rfl, rfl, rfl⟩

/-! ### GO and HALT (R386, R387) -/

/-- Counter `n` after GO and HALT. -/
def State.afterGo (s : State) (go halt n : Nat) : Counter :=
  if halt.testBit n then { s.counter n with run := .idle }
  else if go.testBit n = true ∧ (s.counter n).run = .idle then
    (if s.locked n then { s.counter n with run := .running }.lockTo (s.source n).weight s.pos.p
     else { s.counter n with run := .running })
  else s.counter n

/-- GO and HALT of one counter. -/
theorem State.goOne_spec (go halt n : Nat) : s.OnlyCounters (s.goOne go halt n) ∧
    ∀ k, (s.goOne go halt n).counter k = if k = n then s.afterGo go halt n else s.counter k := by
  have hself : ∀ k, s.counter k = if k = n then s.counter n else s.counter k := fun k => by
    split
    · next h => rw [h]
    · rfl
  unfold State.goOne State.afterGo
  dsimp only
  by_cases hh : halt.testBit n = true
  · rw [if_pos hh, if_pos hh]
    split
    · next hi =>
      refine ⟨rfl, fun k => ?_⟩
      rw [← hi]
      exact hself k
    · exact ⟨rfl, State.counter_setCounter _⟩
  · rw [if_neg hh, if_neg hh]
    by_cases hg : go.testBit n = true ∧ (s.counter n).run = .idle
    · rw [if_pos hg, if_pos (by simpa using hg)]
      exact ⟨rfl, State.counter_setCounter _⟩
    · rw [if_neg hg, if_neg (by simpa using hg)]
      exact ⟨rfl, hself⟩

/-- GO and HALT of all counters. -/
theorem State.spnGo_spec (go halt : Nat) : s.OnlyCounters (s.spnGo go halt) ∧
    ∀ k, (s.spnGo go halt).counter k = if k < 8 then s.afterGo go halt k else s.counter k := by
  have hsome : ∀ n, s.OnlyCounters ((List.range n).foldl (fun t n => t.goOne go halt n) s) ∧
      ∀ k, ((List.range n).foldl (fun t n => t.goOne go halt n) s).counter k =
        if k < n then s.afterGo go halt k else s.counter k := by
    intro n
    induction n with
    | zero => exact ⟨rfl, fun k => rfl⟩
    | succ n ih =>
      rw [List.range_succ, List.foldl_append]
      generalize (List.range n).foldl (fun t n => t.goOne go halt n) s = t at ih
      obtain ⟨honly, hcount⟩ := ih
      obtain ⟨hone, hk⟩ := t.goOne_spec go halt n
      obtain ⟨hlocked, hsource, hpos⟩ := honly.settings n
      refine ⟨honly.trans hone, fun k => (hk k).trans ?_⟩
      have hsame : t.afterGo go halt n = s.afterGo go halt n := by
        unfold State.afterGo
        rw [hlocked, hsource, hpos, hcount n, if_neg (Nat.lt_irrefl n)]
      rw [hsame, hcount k]
      rcases Nat.lt_trichotomy k n with h | rfl | h
      · rw [if_neg (by omega), if_pos h, if_pos (by omega)]
      · rw [if_pos rfl, if_pos (by omega)]
      · rw [if_neg (by omega), if_neg (by omega), if_neg (by omega)]
  exact hsome 8

/-- A write of SPN_GO by the port. -/
theorem State.hostWrite_go (hlive : s.live = true) (v m : Word) :
    s.hostWrite .port R.SPN_GO v m false =
      if s.goNeedsRef (F.SPN_GO_GO.of (v &&& m)) (F.SPN_GO_HALT.of (v &&& m)) then s
      else s.spnGo (F.SPN_GO_GO.of (v &&& m)) (F.SPN_GO_HALT.of (v &&& m)) := by
  have hwrite : s.writeMasked .port R.SPN_GO v m false =
      ifOk s (if s.goNeedsRef (F.SPN_GO_GO.of (v &&& m)) (F.SPN_GO_HALT.of (v &&& m)) then Status.needsRef else Status.ok)
        (s.spnGo (F.SPN_GO_GO.of (v &&& m)) (F.SPN_GO_HALT.of (v &&& m))) := rfl
  rw [State.hostWrite_of_live hlive, hwrite]
  unfold ifOk
  split
  · rfl
  · exact (if_pos rfl : (if Status.ok = Status.ok then _ else s) = _)

/-- A mask in the GO bits. -/
theorem go_of_mask (mask : Byte) : F.SPN_GO_GO.of (mask.setWidth 16 &&& 0x00FF) = mask.toNat ∧
    F.SPN_GO_HALT.of (mask.setWidth 16 &&& 0x00FF) = 0 := by
  revert mask
  decide +kernel

/-- A mask in the HALT bits. -/
theorem halt_of_mask (mask : Byte) : F.SPN_GO_GO.of (mask.setWidth 16 <<< 8 &&& 0xFF00) = 0 ∧
    F.SPN_GO_HALT.of (mask.setWidth 16 <<< 8 &&& 0xFF00) = mask.toNat := by
  revert mask
  decide +kernel

/-- Bits of a mask from 8 on are clear. -/
theorem getLsbD_mask (mask : Byte) {k : Nat} (h : 8 ≤ k) : mask.getLsbD k = false := BitVec.getLsbD_of_ge _ _ h

/-- A mask as a number. -/
theorem testBit_mask (mask : Byte) (k : Nat) : mask.toNat.testBit k = mask.getLsbD k := rfl

/-! ### Arm, load and count (R380, R388, R389) -/

/-- A write of 1 to ARM by the port. -/
theorem State.exec_counterArm (hlive : s.live = true) : exec .counterArm s = .next
    (if s.spn.spentNow.getLsbD (s.fld F.SPN_SEL_CNT) then s else s.arm (s.fld F.SPN_SEL_CNT)) := by
  have hwrite : s.writeMasked .port R.SPN_C_STAT 4 4 false =
      unlessLost s (s.spn.spentNow.getLsbD (s.fld F.SPN_SEL_CNT)) (s.arm (s.fld F.SPN_SEL_CNT)) := rfl
  show Host.Outcome.next (s.hostWrite .port R.SPN_C_STAT 4 4 false) = _
  rw [State.hostWrite_of_live hlive, hwrite]
  unfold unlessLost
  split <;> rfl

/-- A load of a counter by the port. -/
theorem State.exec_counterLoad (hlive : s.live = true) (v : Word) (lost : Bool) : exec (.counterLoad v lost) s = .next
    (if s.locked (s.fld F.SPN_SEL_CNT) = true ∨ lost = true ∨ s.spn.stepped.getLsbD (s.fld F.SPN_SEL_CNT) = true then s
     else s.loadCounter (s.fld F.SPN_SEL_CNT) v) := by
  let n := s.fld F.SPN_SEL_CNT
  have hmerge := merge_full (s.view .port R.SPN_C_LO n) v
  have hwrite : s.writeMasked .port R.SPN_C_LO v 0xFFFF lost =
      if s.locked n then (Status.state, s)
      else unlessLost s (lost || s.spn.stepped.getLsbD n)
        (s.loadCounter n (merge (s.view .port R.SPN_C_LO n) v 0xFFFF)) := rfl
  show Host.Outcome.next (s.portWrite R.SPN_C_LO v lost) = _
  rw [State.portWrite_of_live hlive, hwrite, hmerge]
  show Host.Outcome.next _ = Host.Outcome.next (if s.locked n = true ∨ lost = true ∨ s.spn.stepped.getLsbD n = true then s
    else s.loadCounter n v)
  cases s.locked n <;> cases lost <;> cases s.spn.stepped.getLsbD n <;> rfl

/-- What a pulse makes of a counter. -/
def Counter.pulsed (c : Counter) : Counter :=
  { c with value := c.value + BitVec.ofNat 48 ((c.rem + 65536) / c.div), rem := (c.rem + 65536) % c.div }

/-- A pulse fed to a counter. -/
theorem Counter.feed_pulse (c : Counter) : (c.feed 65536).1 = c.pulsed := by
  have hsum : (c.rem : Int) + 65536 = ((c.rem + 65536 : Nat) : Int) := by push_cast; rfl
  unfold Counter.feed Counter.pulsed
  dsimp only
  rw [hsum, ← Int.natCast_div, ← Int.natCast_mod, Int.toNat_natCast, BitVec.ofInt_natCast]

/-- A distance is 0 between equal values only. -/
theorem delta48_eq_zero_iff (a b : BitVec 48) : delta48 a b = 0 ↔ b = a := by
  unfold delta48
  constructor
  · intro h
    have hz : b - a = 0#48 := BitVec.eq_of_toInt_eq (by rw [h]; rfl)
    calc b = b - a + a := (BitVec.sub_add_cancel b a).symm
      _ = a := by rw [hz, BitVec.zero_add]
  · rintro rfl
    simp

/-- A pulse of REFCLK to a running counter that takes it (R380). -/
theorem State.countInput_spec {n : Nat} (hrun : (s.counter n).run = .running) (hsrc : s.source n = .refclk)
    (hheld : s.clk.held = false) : s.countInput n =
      if (s.counter n).pulsed.value = (s.counter n).value then s.setCounter n (s.counter n).pulsed
      else (s.setCounter n (s.counter n).pulsed).markStep n false := by
  have hout : s.outside n = true := by simp [State.outside, hsrc, hheld]
  unfold State.countInput State.feedOne
  rw [if_pos hout, if_pos hrun, Counter.feed_pulse]
  unfold State.stepTo
  simp only [hsrc, Source.weight, bne_self_eq_false, Bool.and_false, Bool.false_eq_true, if_false, delta48_eq_zero_iff]

/-- Settles O46. -/
theorem countersRun : Obligations.CountersRun := by
  unfold Obligations.CountersRun
  intro s n only
  refine ⟨fun mask hlive => ?_, fun hlive hn => ?_, fun c pulses hn hp => ?_, fun c => rfl⟩
  · obtain ⟨hgo, hgoHalt⟩ := go_of_mask mask
    obtain ⟨hhaltGo, hhalt⟩ := halt_of_mask mask
    have hrelease : exec (.spnGoRelease mask) s = .next (if s.goNeedsRef mask.toNat 0 then s else s.spnGo mask.toNat 0) := by
      show Host.Outcome.next (s.hostWrite .port R.SPN_GO (mask.setWidth 16) 0x00FF false) = _
      rw [State.hostWrite_go hlive, hgo, hgoHalt]
    have hstop : exec (.spnGoHalt mask) s = .next (s.spnGo 0 mask.toNat) := by
      show Host.Outcome.next (s.hostWrite .port R.SPN_GO (mask.setWidth 16 <<< 8) 0xFF00 false) = _
      rw [State.hostWrite_go hlive, hhaltGo, hhalt, if_neg (by simp [State.goNeedsRef])]
    refine ⟨fun href => ?_, fun href => by rw [hrelease, if_pos href], ?_⟩
    · obtain ⟨honly, hk⟩ := s.spnGo_spec mask.toNat 0
      rw [hrelease, if_neg (by simp [href])]
      refine ⟨_, rfl, honly, fun k => (hk k).trans ?_⟩
      unfold State.afterGo
      rw [Nat.zero_testBit, if_neg Bool.false_ne_true, testBit_mask]
      by_cases h : k < 8
      · rw [if_pos h]
      · rw [if_neg h, if_neg (by simp [getLsbD_mask mask (Nat.not_lt.1 h)])]
    · obtain ⟨honly, hk⟩ := s.spnGo_spec 0 mask.toNat
      refine ⟨_, hstop, honly, fun k => (hk k).trans ?_⟩
      unfold State.afterGo
      rw [Nat.zero_testBit, testBit_mask]
      by_cases h : k < 8
      · simp [h]
      · simp [h, getLsbD_mask mask (Nat.not_lt.1 h)]
  · have harm := State.exec_counterArm hlive
    have hload := State.exec_counterLoad hlive
    rw [← hn] at harm
    refine ⟨fun hrun hnow => ?_, fun h => ?_, fun v hlocked hstep => ?_, fun v lost h => ?_⟩
    · rw [harm, hnow, if_neg Bool.false_ne_true, State.arm, if_pos hrun]
      exact ⟨_, rfl, rfl, State.counter_setCounter _⟩
    · rw [harm]
      by_cases hnow : s.spn.spentNow.getLsbD n = true
      · rw [if_pos hnow]
      · rw [if_neg hnow, State.arm, if_neg (h.resolve_right hnow)]
    · rw [hload, ← hn, if_neg (by simp only [hlocked, hstep]; decide), State.loadCounter, join48_eq_append]
      exact ⟨_, rfl, rfl, State.counter_setCounter _⟩
    · rw [hload, ← hn, if_pos h]
  · have hstep : exec (.counterStep c pulses) s = .next (s.countInput n) := by
      show Host.Outcome.next (if pulses = 0 then s else s.countInput c.val) = _
      rw [if_neg hp, hn]
    refine ⟨fun hrun hsrc hheld => ?_, fun h => ?_⟩
    · intro x y
      rw [hstep, State.countInput_spec hrun hsrc hheld]
      show ∃ t, Host.Outcome.next (if y.value = x.value then s.setCounter n y else (s.setCounter n y).markStep n false) = .next t ∧
        _ ∧ _
      split
      · exact ⟨_, rfl, rfl, State.counter_setCounter y⟩
      · exact ⟨_, rfl, rfl, State.counter_setCounter y⟩
    · rw [hstep]
      unfold State.countInput State.outside State.feedOne
      by_cases hout : s.source n = .refclk ∧ s.clk.held = false
      · have hstop : (s.counter n).run ≠ .running := by
          rcases h with h | h | h
          · exact h
          · exact absurd hout.1 h
          · simp [hout.2] at h
        simp [hout, hstop]
      · rw [if_neg (by simpa using hout)]

end Sys2Proof.Machine
end

section
/-! PROOF.
Injections: the checks of a fire, its log entry, and those that wait for their occasion.
-/
namespace Sys2Proof.Machine

variable {s t : State}

/-- A row of an injection fires its detector. -/
theorem exec_injection (arg : Word) (s : State) : ∀ x ∈ waitingInjections arg ++ actingInjections arg,
    exec x.1 s = .next (s.injectRow x.2 arg) :=
  List.map_inj_left.1 (show (waitingInjections arg ++ actingInjections arg).map (fun x => exec x.1 s) =
    (waitingInjections arg ++ actingInjections arg).map (fun x => .next (s.injectRow x.2 arg)) from rfl)

/-- The numbers of the detectors. -/
theorem injection_lt (arg : Word) : ∀ x ∈ waitingInjections arg ++ actingInjections arg, x.2 < 64 := by
  have hnums : ∀ d ∈ (waitingInjections arg ++ actingInjections arg).map Prod.snd, d < 64 :=
    show ∀ d ∈ ([0x04, 0x07, 0x08, 0x09, 0x0D, 0x0E, 0x0F, 0x10, 0x11, 0x13, 0x14, 0x15, 0x17, 0x18, 0x19, 0x1A, 0x00, 0x01,
      0x02, 0x03, 0x05, 0x06, 0x0A, 0x0B, 0x0C, 0x12, 0x16] : List Nat), d < 64 by decide
  exact fun x hx => hnums _ (List.mem_map_of_mem hx)

/-- An injection that waits is pending. -/
theorem injectNow_waits (arg : Word) (u : State) : ∀ x ∈ waitingInjections arg,
    u.injectNow x.2 arg.toNat = u.setFlt { u.flt with pending := some (x.2, arg.toNat) } :=
  List.map_inj_left.1 (show (waitingInjections arg).map (fun x => u.injectNow x.2 arg.toNat) =
    (waitingInjections arg).map (fun x => u.setFlt { u.flt with pending := some (x.2, arg.toNat) }) from rfl)

/-- In a live state a row of an injection is its fire. -/
theorem State.injectRow_of_live (h : s.live = true) (det : Nat) (arg : Word) :
    s.injectRow det arg = (s.fire det arg.toNat).2 := by
  obtain ⟨hup, hdue, -⟩ := State.live_iff.1 h
  rw [State.injectRow, if_pos hup, State.dueApply_of hdue]

/-! ### The checks (R628, R630) -/

/-- A fire that fails a check sets REFUSED. -/
theorem State.fire_refused {det arg : Nat} (h : injRange det arg = false ∨
    injAbsent s.part det arg = false ∧ (s.injState det = false ∨ s.flt.pending ≠ none)) :
    (s.fire det arg).2 = s.setFlag F.INJ_STATUS_REFUSED true := by
  have hcheck : s.fireCheck det arg ≠ Status.ok := by
    unfold State.fireCheck
    cases hr : injRange det arg with
    | false => exact show Status.range ≠ Status.ok by decide
    | true =>
      obtain ⟨ha, hs⟩ := h.resolve_left (by simp [hr])
      have hblocked : (!s.injState det || s.flt.pending.isSome) = true := by
        rcases hs with hs | hs
        · simp [hs]
        · simp [Option.isSome_iff_ne_none.2 hs]
      simp only [ha, hblocked, Bool.not_true, Bool.false_eq_true, if_false, if_true]
      decide
  unfold State.fire
  dsimp only
  rw [if_pos hcheck]

/-- A fire of an absent unit is accepted and does nothing (R38). -/
theorem State.fire_absent {det arg : Nat} (hr : injRange det arg = true) (ha : injAbsent s.part det arg = true) :
    (s.fire det arg).2 = s := by
  unfold State.fire State.fireCheck
  simp [hr, ha]

/-- A fire that passes the checks. -/
theorem State.fireCheck_ok {det arg : Nat} (hr : injRange det arg = true) (ha : injAbsent s.part det arg = false)
    (hs : s.injState det = true) (hp : s.flt.pending = none) : s.fireCheck det arg = Status.ok := by
  unfold State.fireCheck
  simp [hr, ha, hs, hp]

/-- A fire in the tick of a real occurrence is discarded (R632). -/
theorem State.fire_real {det arg : Nat} (hc : s.fireCheck det arg = Status.ok) (hreal : s.realNow det arg = true) :
    (s.fire det arg).2 = s := by
  unfold State.fire
  simp [hc, hreal]

/-! ### The log entry (R629) -/

/-- The state with an injection accepted: INJ_STATUS.LAST and its entry. -/
def State.acceptsInj (s : State) (det arg : Nat) : State :=
  (s.setFld F.INJ_STATUS_LAST det).injected fun u => u.raise 0x70 det arg

/-- An accepted injection is logged. -/
theorem State.acceptsInj_logged (hlen : s.flt.events.length < 64) {det : Nat} (hdet : det < 64) (arg : Word) :
    s.injectionLogged (s.acceptsInj det arg.toNat) det arg := by
  have hentry : s.acceptsInj det arg.toNat = { s with
      regs := (s.setFld F.INJ_STATUS_LAST det).regs
      flt := { s.flt with events := s.flt.events ++ [⟨0x70, true, det, arg.toNat % 2 ^ 16, s.timeBits 32, false⟩] } } := by
    unfold State.acceptsInj State.injected
    dsimp only
    rw [State.raise_room (by exact hlen)]
    rfl
  have hkept : s.regsKept (s.setFld F.INJ_STATUS_LAST det) [(F.INJ_STATUS_LAST, 0)] := State.setFld_kept (by decide) det
  have hlast : (s.setFld F.INJ_STATUS_LAST det).fld F.INJ_STATUS_LAST = det := State.fld_setFld_of_lt (by decide) hdet
  rw [Nat.mod_eq_of_lt arg.isLt] at hentry
  rw [State.injectionLogged, hentry]
  exact ⟨rfl, hlast, State.regsKept_trans hkept (State.regsKept_of_regs rfl rfl)⟩

/-- An accepted fire is logged and acts. -/
theorem State.fire_accepted {det arg : Nat} (hc : s.fireCheck det arg = Status.ok) (ha : injAbsent s.part det arg = false)
    (hreal : s.realNow det arg = false) : (s.fire det arg).2 = (s.acceptsInj det arg).injectNow det arg := by
  unfold State.fire
  simp only [hc, ha, hreal, ne_eq, not_true_eq_false, if_false, Bool.or_self, Bool.false_eq_true]
  rfl

/-- CANCEL ends a pending injection (R631). -/
theorem State.exec_injCancel (h : s.live = true) :
    exec .injCancel s = .next (s.storeReg R.INJ_STATUS 0 0x2000 0x2000).injDone := by
  show Host.Outcome.next (s.hostWrite .port R.INJ_STATUS 0x2000 0x2000 false) = _
  rw [State.hostWrite_of_live h]
  rfl

/-- A write of CANCEL stores no bit of INJ_STATUS. -/
theorem State.storeReg_cancel :
    s.storeReg R.INJ_STATUS 0 0x2000 0x2000 = s.setReg R.INJ_STATUS (s.reg R.INJ_STATUS) := by
  have hlimit : ∀ w, limitWord R.INJ_STATUS w = w := fun _ => rfl
  have hones (w : Word) : w &&& 65535#16 = w := BitVec.and_allOnes
  have hrw : accessMask R.INJ_STATUS .rw = 0 := by decide
  have hw1c : accessMask R.INJ_STATUS .w1c = 0x8000 := by decide
  have hnone : (0x2000 : Word) &&& s.reaches R.INJ_STATUS 0 0x2000 &&& 0x8000 = 0 := by
    have hzero (x : Word) : (0x2000 : Word) &&& (0x2000 &&& x) &&& 0x8000 = 0 := by
      rw [BitVec.and_comm _ x, ← BitVec.and_assoc, BitVec.and_assoc _ 0x2000 0x8000, show (0x2000 : Word) &&& 0x8000 = 0 from rfl]
      exact BitVec.and_zero
    exact hzero _
  rw [State.storeReg, hlimit, storedAfter, hrw, hw1c, hnone]
  simp [merge, hones]

/-- Settles O59. -/
theorem injectionsWait : Obligations.InjectionsWait := by
  unfold Obligations.InjectionsWait
  intro arg s hlive hlen
  have hrow : ∀ c det, (c, det) ∈ waitingInjections arg ++ actingInjections arg →
      exec c s = .next (s.fire det arg.toNat).2 := fun c det hc =>
    (exec_injection arg s (c, det) hc).trans (congrArg Host.Outcome.next (State.injectRow_of_live hlive det arg))
  refine ⟨fun c det hc => ⟨fun h => ?_, fun hr ha => ?_, fun hr ha hs hp hreal => ?_⟩,
    fun c det hc hr ha hs hp hreal => ?_, ?_⟩
  · rw [hrow c det hc, State.fire_refused h]
    exact ⟨_, rfl, s.setFlag_frame F.INJ_STATUS_REFUSED true 0, State.flag_setFlag s (by decide) (by decide) true 0,
      State.setFlag_kept (by decide) true⟩
  · rw [hrow c det hc, State.fire_absent hr ha]
  · rw [hrow c det hc, State.fire_real (State.fireCheck_ok hr ha hs hp) hreal]
  · have hmem := List.mem_append_left (actingInjections arg) hc
    refine ⟨s.acceptsInj det arg.toNat, _, State.acceptsInj_logged hlen (injection_lt arg _ hmem) arg, hrow c det hmem, ?_⟩
    rw [State.fire_accepted (State.fireCheck_ok hr ha hs hp) ha hreal]
    exact injectNow_waits arg _ (c, det) hc
  · rw [State.exec_injCancel hlive, State.storeReg_cancel]
    exact ⟨_, rfl, rfl, State.regsKept_trans (State.setReg_self_kept _ _ _) (State.regsKept_of_regs rfl rfl)⟩

end Sys2Proof.Machine
end

section
/-! PROOF.
The peripheral-bus target: pointer, writes and reads through it.
-/
namespace Sys2Proof.Machine

variable {s : State}

/-- A pop of the aux queue leaves the bus. -/
theorem State.popQueue_pb : s.popQueue.2.pb = s.pb := by
  unfold State.popQueue
  split <;> rfl

/-- Sticky flags of an engine change registers, their marks and the event log. -/
theorem State.sticky_frame (e mask : Nat) : s.sticky e mask = { s with
    regs := (s.sticky e mask).regs, fresh := (s.sticky e mask).fresh, flt := (s.sticky e mask).flt } := by
  have hmark : ∀ w, (if mask = 0 then s else s.markFresh R.AGT_STATUS w e) =
      { s with fresh := (if mask = 0 then s else s.markFresh R.AGT_STATUS w e).fresh } := fun w => by
    split <;> rfl
  have hraise : ∀ (t : State) code unit data, t.raise code unit data =
      { t with regs := (t.raise code unit data).regs, flt := (t.raise code unit data).flt } := fun t code unit data => by
    unfold State.raise
    split <;> rfl
  unfold State.sticky
  dsimp only
  rw [hmark]
  split
  · rfl
  · rw [hraise]
    rfl

/-- A pop of an engine's FIFO leaves the bus. -/
theorem State.fifoPop_pb (e : Nat) : (s.fifoPop e).2.pb = s.pb := by
  unfold State.fifoPop
  dsimp only
  split
  · rw [State.sticky_frame]
  · rfl

/-- What a read does leaves the target's pointer. -/
theorem State.readEffect_pointer (a i : Nat) : (s.readEffect a i).pb.pointer = s.pb.pointer := by
  unfold State.readEffect
  dsimp only
  split_ifs
  · rfl
  · rw [State.popQueue_pb]
  · rw [State.fifoPop_pb]
  all_goals rfl

/-- A register read leaves the target's pointer. -/
theorem State.readDirect_pointer (r : Route) (inspect : Bool) (a : Nat) :
    (s.readDirect r inspect a).2.pb.pointer = s.pb.pointer := by
  unfold State.readDirect
  dsimp only
  split
  · rfl
  · exact State.readEffect_pointer _ _

/-- A register read, of an alias too, leaves the target's pointer. -/
theorem State.readReg_pointer (r : Route) (inspect : Bool) (a : Nat) :
    (s.readReg r inspect a).2.pb.pointer = s.pb.pointer := by
  unfold State.readReg
  split
  · exact State.readDirect_pointer r inspect _
  · exact State.readDirect_pointer r inspect a

/-- Settles O57. -/
theorem targetTransfers : Obligations.TargetTransfers := by
  unfold Obligations.TargetTransfers
  intro s b hi lo lost
  refine ⟨rfl, fun hoff => ⟨?_, ?_, ?_⟩, fun hon => ⟨?_, fun hdue hplain hack => ?_, fun hend hack => ?_, fun hdue hlt => ?_,
    fun hend => ?_⟩⟩
  · show Host.Outcome.next (s.targetPointer b) = _
    rw [State.targetPointer, if_neg (by simp [hoff])]
  · show Host.Outcome.next (s.targetWrite (hi ++ lo) lost) = _
    rw [State.targetWrite, if_pos (by simp [hoff])]
  · show Host.Outcome.next s.targetRead = _
    rw [State.targetRead, if_pos (by simp [hoff])]
  · show Host.Outcome.next (s.targetPointer b) = _
    rw [State.targetPointer, if_pos hon]
    rfl
  · obtain ⟨-, -, -, -, hlt⟩ := plainRegs_facts _ hplain
    have hbus : s.busOn = true := by
      unfold State.targetOn at hon
      simp only [Bool.and_eq_true] at hon
      exact hon.1.1
    have hstored : s.writeReg .target s.pb.pointer (hi ++ lo) lost = (Status.ok, s.storeReg s.pb.pointer 0 (hi ++ lo) 0xFFFF) :=
      State.writeMasked_plain hplain .target (hi ++ lo) 0xFFFF lost
    have hwrite : exec (.pbTargetWrite hi lo lost) s = .next ((s.storeReg s.pb.pointer 0 (hi ++ lo) 0xFFFF).setPB
        { s.pb with pointer := s.pb.pointer + 1, target := .written false }) := by
      show Host.Outcome.next (s.targetWrite (hi ++ lo) lost) = _
      unfold State.targetWrite
      rw [if_neg (by simp [hon, hack]), if_neg (by omega), State.dueApply_of hdue, hstored]
      have hadvance : s.pb.advance = { s.pb with pointer := s.pb.pointer + 1 } := by
        rw [PBus.advance, if_pos hlt]
      have hstill : (s.storeReg s.pb.pointer 0 (hi ++ lo) 0xFFFF).busOn = true := hbus
      dsimp only
      rw [hstill, if_neg (by decide), if_pos rfl]
      show Host.Outcome.next (State.setPB _ { s.pb.advance with target := .written false }) = _
      rw [hadvance]
    rw [hwrite]
    exact ⟨_, rfl, rfl, fun n hn => State.getLsbD_storeReg hplain (hi ++ lo) 0xFFFF hn,
      s.storeReg_kept s.pb.pointer (by decide) (hi ++ lo) 0xFFFF⟩
  · show Host.Outcome.next (s.targetWrite (hi ++ lo) lost) = _
    rw [State.targetWrite, if_neg (by simp [hon, hack]), if_pos hend]
    rfl
  · intro u
    have hpointer : u.pb.pointer = s.pb.pointer := State.readReg_pointer .target false s.pb.pointer
    have hread : s.targetRead = u.setPB { u.pb.advance with target := .readOut } := by
      unfold State.targetRead
      rw [if_neg (by simp [hon]), if_pos hlt, State.dueApply_of hdue]
    have hadvance : u.pb.advance = { u.pb with pointer := u.pb.pointer + 1 } := by
      rw [PBus.advance, if_pos (by omega)]
    refine ⟨?_, hpointer⟩
    show Host.Outcome.next s.targetRead = _
    rw [hread, hadvance]
    rfl
  · have hread : s.targetRead = s.setPB { s.pb.advance with target := .readOut } := by
      unfold State.targetRead
      rw [if_neg (by simp [hon]), if_neg (by omega)]
    show Host.Outcome.next s.targetRead = _
    rw [hread, PBus.advance, if_neg (by omega)]
    rfl

end Sys2Proof.Machine
end

section
/-! PROOF.
Triggers: those that start an exposure, and those that are counted.
-/
namespace Sys2Proof.Machine

variable {s t : State}

/-! ### The trigger that is served -/

/-- The state in which a trigger of this tick is decided. -/
def State.seenTrigger (s : State) : State := s.setExp { s.exp with trigTick := some s.clk.now }

/-- A trigger that is served is decided. -/
theorem State.trigger_of_serves (h : s.serves = true) : s.trigger = s.seenTrigger.decideTrigger := by
  simp only [State.serves, Bool.and_eq_true, bne_iff_ne, ne_eq, Bool.or_eq_true] at h
  obtain ⟨⟨⟨⟨hrun, htrig⟩, hline⟩, hnow⟩, hheld⟩ := h
  have hevent : (if s.eventPast.lines.getLsbD (s.fld F.EXP_SCHED_EVENT) then s.seenTrigger else s.seenTrigger.holdEvent) =
      s.seenTrigger := by
    split
    · rfl
    · next hn => exact if_neg (hheld.resolve_right hn)
  have hopen : (s.seenTrigger.running && s.seenTrigger.fld F.EXP_MODE_TRIG != 0 &&
      s.seenTrigger.lineExists (s.fld F.EXP_SCHED_EVENT)) = true := by
    simp only [Bool.and_eq_true, bne_iff_ne, ne_eq]
    exact ⟨⟨hrun, htrig⟩, hline⟩
  have hdef : s.trigger = if s.exp.trigTick = some s.clk.now then s else
      (fun u : State => if (u.running && u.fld F.EXP_MODE_TRIG != 0 && u.lineExists (s.fld F.EXP_SCHED_EVENT)) = true
        then u.decideTrigger else u)
      (if s.eventPast.lines.getLsbD (s.fld F.EXP_SCHED_EVENT) then s.seenTrigger else s.seenTrigger.holdEvent) := rfl
  rw [hdef, if_neg hnow, hevent]
  exact if_pos hopen

/-- An exposure that is not due is not ended by a trigger. -/
theorem State.dueTransfer_of_not (h : ∀ e u, s.exp.exposing = some e → e.until_ = some u → s.clk.now < u) :
    s.dueTransfer = s := by
  unfold State.dueTransfer
  split
  · next e he =>
    refine if_neg fun hdue => ?_
    cases hu : e.until_ with
    | none => simp [hu] at hdue
    | some u =>
      have := h e u he hu
      simp only [hu, Option.any_some, decide_eq_true_eq] at hdue
      omega
  · rfl

/-! ### Lost triggers (Table 08-4) -/

/-- The count and the flag of a lost trigger. -/
def State.countLost (s : State) : LostKind → State
  | .gate => s.count F.CLK_TRIG_LOST_COUNT
  | .held => s.count F.EXP_TRIG_HELD_COUNT
  | .overrun => (s.count F.EXP_DROPPED_COUNT).streamLoss F.EXP_CTRL_OVERRUN noUnit 1
  | .noRef => (s.count F.EXP_DROPPED_COUNT).streamLoss F.EXP_CTRL_NEEDS_REF noUnit 4
  | .noSlate => (s.count F.EXP_DROPPED_COUNT).streamLoss F.EXP_CTRL_NO_SLATE noUnit 3

/-- A trigger lost outside TDI: its count and flag, and GAP. -/
theorem State.loseTrigger_of_no_tdi {k : LostKind} (h : (s.countLost k).fld F.EXP_MODE_SCAN ≠ 2) :
    s.loseTrigger k = (s.countLost k).markGap := by
  cases k <;> exact if_neg h

/-- The exposure control of a trigger missed, from the state that decided it. -/
theorem State.markGap_seen (hexp : t.exp = s.seenTrigger.exp) (hen : t.fld F.QR_ENABLE_EN = s.fld F.QR_ENABLE_EN) :
    t.markGap = { t with exp := s.missed } := by
  unfold State.markGap
  rw [hexp, hen]
  rfl

/-- A trigger lost outside TDI, with what its count and flag leave of the registers. -/
theorem State.loseTrigger_seen {k : LostKind} {l : List (Field × Nat)} (h : s.fld F.EXP_MODE_SCAN ≠ 2)
    (hkept : s.seenTrigger.regsKept (s.seenTrigger.countLost k) l) (hexp : (s.seenTrigger.countLost k).exp = s.seenTrigger.exp)
    (hl : ∀ x ∈ l, x.1.addr ≠ R.EXP_MODE ∧ x.1.addr ≠ R.QR_ENABLE) :
    s.seenTrigger.loseTrigger k = { s.seenTrigger.countLost k with exp := s.missed } ∧
      s.regsKept (s.seenTrigger.loseTrigger k) l := by
  have hscan : (s.seenTrigger.countLost k).fld F.EXP_MODE_SCAN = s.fld F.EXP_MODE_SCAN :=
    hkept.fld_eq (f := F.EXP_MODE_SCAN) (i := 0) (by decide) fun x hx e => absurd e (hl x hx).1
  have hen : (s.seenTrigger.countLost k).fld F.QR_ENABLE_EN = s.fld F.QR_ENABLE_EN :=
    hkept.fld_eq (f := F.QR_ENABLE_EN) (i := 0) (by decide) fun x hx e => absurd e (hl x hx).2
  have hlost := State.loseTrigger_of_no_tdi (s := s.seenTrigger) (k := k) (by rw [hscan]; exact h)
  rw [State.markGap_seen hexp hen] at hlost
  refine ⟨hlost, ?_⟩
  rw [hlost]
  exact State.regsKept_trans (State.regsKept_of_regs rfl rfl) (State.regsKept_trans hkept (State.regsKept_of_regs rfl rfl))

/-- A trigger lost to a count alone. -/
theorem State.loseTrigger_counted {k : LostKind} {f : Field} (h : s.fld F.EXP_MODE_SCAN ≠ 2)
    (hk : s.seenTrigger.countLost k = s.seenTrigger.count f) (hf : f.lo ≤ f.hi ∧ f.hi < 16)
    (ha : f.addr ≠ R.EXP_MODE ∧ f.addr ≠ R.QR_ENABLE) :
    s.seenTrigger.loseTrigger k = { s with regs := (s.seenTrigger.loseTrigger k).regs, exp := s.missed } ∧
      s.counts (s.seenTrigger.loseTrigger k) f ∧ s.regsKept (s.seenTrigger.loseTrigger k) [(f, 0)] := by
  obtain ⟨hlost, hkept⟩ := State.loseTrigger_seen (k := k) (l := [(f, 0)]) h (by rw [hk]; exact State.setFld_kept ⟨by decide, hf⟩ _)
    (by rw [hk]; rfl) (List.forall_mem_singleton.2 ha)
  rw [hk] at hlost
  refine ⟨?_, ?_, hkept⟩
  · rw [hlost]
    rfl
  · rw [hlost]
    exact State.count_counts (s := s.seenTrigger) hf

/-- A trigger lost to an overrun: EXP_DROPPED, OVERRUN, and the event where OVERRUN was 0. -/
theorem State.loseTrigger_overrun (h : s.fld F.EXP_MODE_SCAN ≠ 2) (hlen : s.flt.events.length < 64) :
    let t := s.seenTrigger.loseTrigger .overrun
    t = { s with regs := t.regs, fresh := t.fresh, exp := s.missed, flt := t.flt } ∧
      s.counts t F.EXP_DROPPED_COUNT ∧ t.flag F.EXP_CTRL_OVERRUN = true ∧
      s.regsKept t [(F.EXP_DROPPED_COUNT, 0), (F.EXP_CTRL_OVERRUN, 0)] ∧
      t.flt = { s.flt with
        events := s.flt.events ++ if s.flag F.EXP_CTRL_OVERRUN then []
          else [⟨0x60, s.flt.mark, noUnit, 1, s.timeBits 32, false⟩] } := by
  intro t
  let c := s.seenTrigger.count F.EXP_DROPPED_COUNT
  let u := s.seenTrigger.countLost .overrun
  have hcount : s.seenTrigger.regsKept c [(F.EXP_DROPPED_COUNT, 0)] := State.setFld_kept (by decide) _
  obtain ⟨hframe, hset, hkept⟩ := State.setAndRaise_flagged (s := c) (f := F.EXP_CTRL_OVERRUN) hlen rfl (by decide) 0x60 noUnit 1
  have hwas : c.flag F.EXP_CTRL_OVERRUN = s.flag F.EXP_CTRL_OVERRUN :=
    hcount.flag_apart (f := F.EXP_CTRL_OVERRUN) (i := 0) (by decide)
  obtain ⟨hlost, hregs⟩ := State.loseTrigger_seen (k := .overrun) h (hcount.append hkept) (congrArg State.exp hframe :) (by decide)
  have hflt : u.flt = { s.flt with events := s.flt.events ++ if s.flag F.EXP_CTRL_OVERRUN then []
      else [⟨0x60, s.flt.mark, noUnit, 1, s.timeBits 32, false⟩] } := by
    rw [← hwas]
    exact congrArg State.flt hframe
  have hflag : t.flag F.EXP_CTRL_OVERRUN = u.flag F.EXP_CTRL_OVERRUN := by
    show State.flag (s.seenTrigger.loseTrigger .overrun) _ = _
    rw [hlost]
    rfl
  have hdropped : t.fld F.EXP_DROPPED_COUNT = c.fld F.EXP_DROPPED_COUNT := by
    show State.fld (s.seenTrigger.loseTrigger .overrun) _ = _
    rw [hlost]
    exact hkept.fld_apart (f := F.EXP_DROPPED_COUNT) (i := 0) (by decide)
  refine ⟨?_, hdropped.trans (State.count_counts (s := s.seenTrigger) (f := F.EXP_DROPPED_COUNT) (by decide)),
    hflag.trans hset, hregs, (congrArg State.flt hlost).trans hflt⟩
  have hu : u = { s.seenTrigger with regs := u.regs, fresh := u.fresh, flt := u.flt } := by
    rw [hflt, ← hwas]
    exact hframe
  replace hlost : t = { u with exp := s.missed } := hlost
  clear_value t u
  rw [congrArg State.regs hlost, congrArg State.fresh hlost, congrArg State.flt hlost, hlost]
  exact congrArg (fun v : State => { v with exp := s.missed }) hu

/-! ### The decision (Table 08-3) -/

/-- Behind a closed stream gate a trigger is lost. -/
theorem State.decideTrigger_gated (hdue : s.dueTransfer = s) (hg : s.gated = true) :
    s.decideTrigger = s.loseTrigger .gate := by
  unfold State.decideTrigger
  rw [hdue]
  exact if_pos hg

/-- During the dip hold a trigger is lost. -/
theorem State.decideTrigger_held (hdue : s.dueTransfer = s) (hg : s.gated = false)
    (href : s.fld F.EXP_MODE_TRIG = 2 → s.flag F.EXP_MODE_ABS = true → s.pos.ref = true) (hh : s.pwr.hold = true) :
    s.decideTrigger = s.loseTrigger .held := by
  unfold State.decideTrigger
  rw [hdue]
  dsimp only
  rw [if_neg (by simp [hg]), if_neg fun hc => absurd (href hc.1 hc.2.1) (by simp [hc.2.2]), if_pos hh]

/-- Elsewhere, where no commit waits, a context that cannot start loses the trigger. -/
theorem State.decideTrigger_dropped (hdue : s.dueTransfer = s) (hg : s.gated = false)
    (href : s.fld F.EXP_MODE_TRIG = 2 → s.flag F.EXP_MODE_ABS = true → s.pos.ref = true) (hh : s.pwr.hold = false)
    (htxn : s.bnd.txn ≠ .pending) (hd : s.decideStart s.context = none) : s.decideTrigger = s.loseTrigger .overrun := by
  have hcommit : s.withCommit = s := if_neg fun h => htxn h.1
  unfold State.decideTrigger
  rw [hdue]
  dsimp only
  rw [if_neg (by simp [hg]), if_neg fun hc => absurd (href hc.1 hc.2.1) (by simp [hc.2.2]), if_neg (by simp [hh]), hcommit, hd]

/-- A context that can start, with no injection and no page lacking, starts its exposure. -/
theorem State.decideTrigger_starts (hdue : s.dueTransfer = s) (hg : s.gated = false)
    (href : s.fld F.EXP_MODE_TRIG = 2 → s.flag F.EXP_MODE_ABS = true → s.pos.ref = true) (hh : s.pwr.hold = false)
    (htxn : s.bnd.txn ≠ .pending) {stop : Nat} {str : Bool} (hd : s.decideStart s.context = some (stop, str))
    (hinj : s.injArg 0x14 = none) (hpages : s.lacksPages s.context = false) :
    s.decideTrigger = s.startExposure s.context stop str := by
  have hcommit : s.withCommit = s := if_neg fun h => htxn h.1
  unfold State.decideTrigger
  rw [hdue]
  dsimp only
  rw [if_neg (by simp [hg]), if_neg fun hc => absurd (href hc.1 hc.2.1) (by simp [hc.2.2]), if_neg (by simp [hh]), hcommit, hd]
  dsimp only
  rw [if_neg (by simp [hinj]), if_neg (by simp [hpages])]

/-- Settles O41. -/
theorem triggersLost : Obligations.TriggersLost := by
  unfold Obligations.TriggersLost
  refine fun s => ⟨fun hsame => congrArg Host.Outcome.next (if_pos hsame), fun hserves hdue hscan href => ?_⟩
  have hdecide : exec .trigger s = .next s.seenTrigger.decideTrigger :=
    congrArg Host.Outcome.next (State.trigger_of_serves hserves)
  have htransfer : s.seenTrigger.dueTransfer = s.seenTrigger := State.dueTransfer_of_not (s := s.seenTrigger) hdue
  rw [hdecide]
  refine ⟨fun hgated => ?_, fun hopen hhold => ?_, fun hopen hhold htxn hexp hlen => ?_⟩
  · rw [State.decideTrigger_gated htransfer hgated]
    exact ⟨_, rfl, State.loseTrigger_counted hscan rfl (by decide) (by decide)⟩
  · rw [State.decideTrigger_held htransfer hopen href hhold]
    exact ⟨_, rfl, State.loseTrigger_counted hscan rfl (by decide) (by decide)⟩
  · have hnone : s.seenTrigger.decideStart s.seenTrigger.context = none := by
      have hin : s.seenTrigger.exp.inExposure = true := Bool.or_eq_true_iff.2 (.inl hexp)
      unfold State.decideStart
      rw [if_pos hin]
    rw [State.decideTrigger_dropped htransfer hopen href hhold htxn hnone]
    exact ⟨_, rfl, State.loseTrigger_overrun hscan hlen⟩

/-! ### Changes of registers alone -/

/-- From `s` to `t` only the registers and their marks have changed. -/
def State.OnlyRegs (s t : State) : Prop := t = { s with regs := t.regs, fresh := t.fresh }

theorem State.OnlyRegs.refl : s.OnlyRegs s := rfl

theorem State.OnlyRegs.trans {u : State} (h : s.OnlyRegs t) (h' : t.OnlyRegs u) : s.OnlyRegs u := by
  unfold State.OnlyRegs at h h' ⊢
  rw [h] at h'
  exact h'

theorem State.OnlyRegs.setFlag (f : Field) (b : Bool) (i : Nat) : s.OnlyRegs (s.setFlag f b i) := s.setFlag_frame f b i

theorem State.OnlyRegs.setFld (f : Field) (v i : Nat) : s.OnlyRegs (s.setFld f v i) := rfl

/-! ### The start of an exposure (R222, R281, R283) -/

/-- The registers that take the geometry of a context. -/
def geometryFields : List (Field × Nat) :=
  (List.range 12).flatMap fun q => [(F.QR_STATUS_OUT_PIX, q), (F.QR_STATUS_CLAMPED, q)]

/-- The geometry of a context is shown in QR_STATUS of each quire. -/
theorem State.noteGeometry_spec (c : Context) :
    s.OnlyRegs (s.noteGeometry c) ∧ s.regsKept (s.noteGeometry c) geometryFields := by
  unfold State.noteGeometry
  refine List.foldlRecOn (motive := fun t : State => s.OnlyRegs t ∧ s.regsKept t geometryFields) _ _
    ⟨.refl, State.regsKept_refl⟩ fun t ⟨hframe, hkept⟩ q hq => ?_
  have hlt : q < 12 := by
    have hquires : s.part.quires ≤ 12 := by cases s.part <;> decide
    exact Nat.lt_of_lt_of_le (List.mem_range.1 hq) hquires
  have hlisted : ∀ f, f = F.QR_STATUS_OUT_PIX ∨ f = F.QR_STATUS_CLAMPED → (f, q) ∈ geometryFields := fun f hf =>
    List.mem_flatMap.2 ⟨q, List.mem_range.2 hlt, by rcases hf with rfl | rfl <;> simp⟩
  have hpix : t.regsKept (t.setFld F.QR_STATUS_OUT_PIX (c.outPix s.part q) q) geometryFields :=
    State.regsKept_setFld (by omega) (by decide) (by decide) (hlisted _ (.inl rfl))
  have hclamp : ∀ u : State, u.regsKept (u.setFlag F.QR_STATUS_CLAMPED true q) geometryFields := fun u =>
    State.regsKept_setFlag (by omega) (by decide) (by decide) (hlisted _ (.inr rfl))
  dsimp only
  split
  · exact ⟨(hframe.trans (.setFld ..)).trans (.setFlag ..), State.regsKept_trans (State.regsKept_trans hkept hpix) (hclamp _)⟩
  · exact ⟨hframe.trans (.setFld ..), State.regsKept_trans hkept hpix⟩

/-- What taking a context reports in the registers. -/
def contextFields : List (Field × Nat) := [(F.EXP_CTRL_MODE_CLAMP, 0), (F.CNV_STATUS_PAIR_CLAMP, 0)] ++ geometryFields

/-- A flag set where a condition holds. -/
theorem State.setFlag_if_spec {f : Field} (hf : f.lo ≤ f.hi ∧ f.hi < 16) (b : Bool) :
    s.OnlyRegs (if b then s.setFlag f true else s) ∧ s.regsKept (if b then s.setFlag f true else s) [(f, 0)] := by
  cases b
  · exact ⟨.refl, State.regsKept_refl⟩
  · exact ⟨.setFlag .., State.setFlag_kept ⟨by decide, hf⟩ true⟩

/-- The state with the modes and the ROM set of a context. -/
def State.withModes (s : State) (c : Context) : State :=
  let m := (c.fld F.CNV_MODE_BITS, c.fld F.CNV_MODE_GAIN)
  s.setCnv { s.cnv with lastModes := some m, rom := c.rom, stale := s.cnv.stale || s.cnv.lastModes.any fun o => o != m }

/-- A context taken: the conversion's modes and ROM set, and its reports. -/
theorem State.takeContext_spec (c : Context) :
    (s.withModes c).OnlyRegs (s.takeContext c) ∧ s.regsKept (s.takeContext c) contextFields := by
  obtain ⟨hgeo, hgeoKept⟩ := (s.withModes c).noteGeometry_spec c
  obtain ⟨hmode, hmodeKept⟩ := State.setFlag_if_spec (s := (s.withModes c).noteGeometry c) (f := F.EXP_CTRL_MODE_CLAMP)
    (by decide) c.modeClamped
  obtain ⟨hpair, hpairKept⟩ := State.setFlag_if_spec (f := F.CNV_STATUS_PAIR_CLAMP)
    (s := if c.modeClamped then ((s.withModes c).noteGeometry c).setFlag F.EXP_CTRL_MODE_CLAMP true
      else (s.withModes c).noteGeometry c) (by decide) c.pairClamped
  have h1 : s.regsKept (s.withModes c) contextFields := State.regsKept_of_regs rfl rfl
  have h2 : (s.withModes c).regsKept ((s.withModes c).noteGeometry c) contextFields :=
    State.regsKept_mono hgeoKept fun x hx => List.mem_append_right _ hx
  exact ⟨(hgeo.trans hmode).trans hpair, State.regsKept_trans (State.regsKept_trans (State.regsKept_trans h1 h2)
    (State.regsKept_mono hmodeKept (by simp [contextFields]))) (State.regsKept_mono hpairKept (by simp [contextFields]))⟩

/-- The exposure that starts now with a context, from `s`, which has taken it. -/
def State.exposes (s : State) (c : Context) (stop : Nat) : State :=
  { s with
    lines := s.lines ||| (1#64 <<< 32)
    pos := { s.pos with dupPend := s.pos.dupPend - 1 }
    exp := { s.exp with
      nextNumber := (s.exp.nextNumber + 1) % 2 ^ 24, lastNumber := some s.exp.nextNumber, latest := some s.exp.nextNumber
      exposing := some {
        frame := {
          number := s.exp.nextNumber, ctx := c, pos := s.eventPast.p.toNat % 2 ^ 40, est := s.eventPast.est
          dup := s.pos.dupPend != 0, posRef := s.eventPast.ref, str := false, sw := s.pwr.warn, flash := none, pages := [] }
        k := 0, start := s.clk.now, until_ := some stop } } }

/-- Outside TDI, an exposure that is not stretched takes its context and starts. -/
theorem State.startExposure_eq {c : Context} (hscan : c.scan ≠ .tdi) (stop : Nat) :
    s.startExposure c stop false = (s.takeContext c).exposes c stop := by
  unfold State.startExposure
  simp only [Bool.false_eq_true, if_false, if_neg hscan]
  generalize s.takeContext c = t
  rfl

/-- Settles O40. -/
theorem triggersStart : Obligations.TriggersStart := by
  unfold Obligations.TriggersStart
  intro s hserves hopen hhold htxn href hexp hbetween hreading hinj hscan hpages
  let v := s.seenTrigger
  let c := s.context
  have hstart : v.decideStart v.context = some (s.clk.now + c.duration 0, false) := by
    have hin : v.exp.inExposure = false := by
      show (s.exp.exposing.isSome || s.exp.between.isSome) = false
      rw [hexp, hbetween]
      rfl
    have hread : v.exp.reading = none := hreading
    unfold State.decideStart
    rw [if_neg (by simp [hin]), hread]
    rfl
  have hdue : v.dueTransfer = v := State.dueTransfer_of_not (s := v) fun e u he => by
    rw [show v.exp.exposing = none from hexp] at he
    cases he
  have htrigger : exec .trigger s = .next (v.startExposure c (s.clk.now + c.duration 0) false) := by
    show Host.Outcome.next s.trigger = _
    rw [State.trigger_of_serves hserves,
      State.decideTrigger_starts (s := v) hdue hopen href hhold htxn hstart hinj hpages]
    rfl
  obtain ⟨hframe, hkept⟩ := v.takeContext_spec c
  have hexposure := State.startExposure_eq (s := v) hscan (s.clk.now + c.duration 0)
  rw [htrigger, hexposure]
  generalize v.takeContext c = t at *
  unfold State.OnlyRegs at hframe
  refine ⟨_, rfl, ?_, ?_, State.regsKept_trans (State.regsKept_of_regs rfl rfl)
    (State.regsKept_trans hkept (State.regsKept_of_regs rfl rfl))⟩
  · rw [hframe]
    rfl
  · rw [hframe]
    rfl

end Sys2Proof.Machine
end

section
/-! PROOF.
Exposures: their end and the readout that follows, the legacy end, and sub-exposures.
-/
namespace Sys2Proof.Machine

variable {s t : State}

/-! ### Readout begins (R281, R284) -/

/-- Without CAL words nothing is read for a pair. -/
theorem State.readCal_of_none (h : s.mem.calWords = []) (gains : List Nat) : s.readCal gains = ([], 0, s) := by
  have hkeys : (s.mem.valid.filter fun e => bankBase Store.cal false ≤ e.1 && e.1 < bankBase Store.cal false + 2 ^ 23) = [] := h
  unfold State.readCal
  dsimp only
  rw [hkeys]
  rfl

/-- Without CAL words the next pair converts with no correction. -/
theorem State.convertNext_of_none (h : s.mem.calWords = []) (r : Reading) :
    s.convertNext r = s.setExp { s.exp with reading := some { r with cal := [], calCorr := 0 } } := by
  unfold State.convertNext
  rw [State.readCal_of_none h]

/-- The readout that begins now. -/
def State.readoutOf (s : State) (f : Frame) : Reading :=
  { frame := f, k := 0, pair := 0, free := s.clk.now + s.readoutTime f.ctx, cal := [], calCorr := 0 }

/-- The end of the only exposure of a frame begins its readout, where the storage nodes are free. -/
theorem State.exposureEnd_spec {e : Exposing} (he : s.exp.exposing = some e) (hr : s.exp.reading = none)
    (hsubs : e.frame.ctx.subs ≤ 1) (hcal : s.mem.calWords = []) (hk : e.k = 0) :
    s.exposureEnd = { s with
      lines := s.lines ||| (1#64 <<< 33), cnv := s.cnv.begin_
      exp := { s.exp with exposing := none, between := none, reading := some (s.readoutOf e.frame) } } := by
  let t := (s.setExp { s.exp with exposing := none, between := none }).raiseLine 33
  have hstart : t.startReadout e.frame 0 = (t.setCnv t.cnv.begin_).setExp { t.exp with reading := some (s.readoutOf e.frame) } := by
    unfold State.startReadout
    dsimp only
    rw [if_neg fun h => absurd h.1 (by omega),
      State.convertNext_of_none (s := t.setCnv t.cnv.begin_) (show s.mem.calWords = [] from hcal)]
    rfl
  have hmore : decide (e.k + 1 < e.frame.ctx.subs) = false := decide_eq_false (by omega)
  unfold State.exposureEnd
  rw [he]
  dsimp only
  rw [if_neg (by simp [hr]), hmore, hk, if_neg Bool.false_ne_true]
  generalize hu : State.startReadout _ e.frame 0 = u
  rw [show u = (t.setCnv t.cnv.begin_).setExp { t.exp with reading := some (s.readoutOf e.frame) } from hu.symm.trans hstart]
  rfl

/-! ### The legacy end (R278) -/

/-- The event that ends a legacy exposure: at once from 250 tk on, else at 250 tk or at the exposure's maximum. -/
theorem State.legacyEnd_spec {e : Exposing} (he : s.exp.exposing = some e) (hr : s.exp.reading = none) (hk : e.k = 0)
    (hstr : e.frame.str = false) (htrig : s.fld F.EXP_MODE_TRIG = 3)
    (hline : s.lineExists ((s.fld F.EXP_SCHED_EVENT + 1) % 64) = true) :
    s.legacyEnd = if e.start + 250 ≤ s.clk.now then s.exposureEnd
      else s.setExp { s.exp with
        exposing := some { e with until_ := some (min (e.start + 250) (e.until_.getD (e.start + 250))) } } := by
  have hfree : max (e.start + 250) (((none : Option Reading).map Reading.free).getD 0) = e.start + 250 := Nat.max_zero _
  unfold State.legacyEnd
  rw [he]
  dsimp only
  rw [if_neg (by simp [hk, hstr, htrig, hline]), hr, hfree]

/-! ### Sub-exposures (R287, R290) -/

/-- A frame without pages whose storage nodes are free is abandoned: counted, GAP, and its flash energies dropped. -/
theorem State.abandon_spec {f : Frame} (hr : s.exp.reading = none) (hp : f.pages = []) :
    let t := s.abandon f
    t = { s with
      regs := t.regs, exp := { s.exp with between := none, gap := s.gapMarked }
      aux := { s.aux with flash := s.aux.flash.filter fun e => e.1 != f.number } } ∧
    s.counts t F.EXP_DROPPED_COUNT ∧ s.regsKept t [(F.EXP_DROPPED_COUNT, 0)] := by
  intro t
  let u : State := (s.dropFlash f.number).setExp { s.exp with between := none, reading := none }
  have hmap : ∀ g : Reading → Reading, ((s.usePages [] .free).dropFlash f.number).exp.reading.map g = none := fun g => by
    show s.exp.reading.map g = none
    rw [hr]
    rfl
  have habandon : t = (u.count F.EXP_DROPPED_COUNT).markGap := by
    show s.abandon f = _
    unfold State.abandon
    dsimp only
    rw [hp, hmap]
    rfl
  have hkept : s.regsKept (u.count F.EXP_DROPPED_COUNT) [(F.EXP_DROPPED_COUNT, 0)] :=
    State.regsKept_trans (State.regsKept_of_regs rfl rfl) (State.setFld_kept (s := u) (by decide) _)
  have hgap : (u.count F.EXP_DROPPED_COUNT).markGap =
      (u.count F.EXP_DROPPED_COUNT).setExp { s.exp with between := none, reading := none, gap := s.gapMarked } := by
    unfold State.markGap
    rw [hkept.fld_apart (f := F.QR_ENABLE_EN) (i := 0) (by decide)]
    rfl
  have hexp : ({ s.exp with between := none, reading := none, gap := s.gapMarked } : Exposure) =
      { s.exp with between := none, gap := s.gapMarked } := by
    rw [← hr]
  rw [hgap, hexp] at habandon
  rw [habandon]
  exact ⟨rfl, State.count_counts (s := u) (f := F.EXP_DROPPED_COUNT) (by decide), hkept⟩

/-- Settles O42. -/
theorem exposuresEnd : Obligations.ExposuresEnd := by
  unfold Obligations.ExposuresEnd
  refine fun s => ⟨fun c e he hr hsubs hcal hk hc => ?_, fun e he hr hk hstr htrig hline hearly => ?_,
    fun f k hb he => ⟨fun hh => ?_, fun hh hr hp => ?_⟩⟩
  · have hend := State.exposureEnd_spec he hr hsubs hcal hk
    rcases hc with rfl | ⟨rfl, htrig, hstr, hline, hlate⟩
    · exact congrArg Host.Outcome.next hend
    · refine congrArg Host.Outcome.next (Eq.trans ?_ hend)
      rw [State.legacyEnd_spec he hr hk hstr htrig hline, if_pos hlate]
  · refine congrArg Host.Outcome.next ?_
    rw [State.legacyEnd_spec he hr hk hstr htrig hline, if_neg (by omega)]
    rfl
  · refine congrArg Host.Outcome.next ?_
    unfold State.subStart
    rw [hb]
    dsimp only
    rw [if_neg (by simp [he]), if_neg (by simp [hh])]
    rfl
  · have hsub : exec .subExposureStart s = .next (s.abandon f) := by
      refine congrArg Host.Outcome.next ?_
      unfold State.subStart
      rw [hb]
      dsimp only
      rw [if_neg (by simp [he]), if_pos hh]
    exact ⟨_, hsub, State.abandon_spec hr hp⟩

end Sys2Proof.Machine
end

section
/-! PROOF.
Row pairs: the conversion of the next one, black pairs that send nothing, and the end of a readout.
-/
namespace Sys2Proof.Machine

variable {s t u : State}

/-! ### Writes of bytes -/

/-- A write of part of a word. -/
theorem State.Reports.writePart (w : WordAddr) (k : Nat) (d : List Byte) : s.Reports (s.writePart w k d) := by
  unfold State.writePart
  dsimp only
  split
  · exact .writeWord ..
  · split
    · split
      · split <;> exact .setMem _
      · exact .writeWord ..
    · have hread := State.Reports.readWord (s := s) .hostNarrow false w
      split
      · next h => rwa [h] at hread
      · next h =>
        rw [h] at hread
        exact hread.trans (.writeWord ..)

/-- A write of bytes. -/
theorem State.Reports.writeBytes (id : Nat) (bank : Bool) (off : Nat) (d : List Byte) :
    s.Reports (s.writeBytes id bank off d) := by
  have hwords : ∀ (n : Nat) (t : State) (k : Nat) (d : List Byte), t.Reports (t.writeWords id bank k d n) := by
    intro n
    induction n with
    | zero => exact fun _ _ _ => .refl
    | succ n ih =>
      intro t k d
      unfold State.writeWords
      dsimp only
      split
      · exact .refl
      · split
        · exact .writePart ..
        · exact (State.Reports.writePart ..).trans (ih ..)
  exact hwords ..

/-! ### What leaves the readout in progress -/

/-- From `s` to `t` the readout in progress and the event lines have stayed. -/
structure State.ReadoutKept (s t : State) : Prop where
  reading : t.exp.reading = s.exp.reading
  lines : t.lines = s.lines

theorem State.ReadoutKept.refl : s.ReadoutKept s := ⟨rfl, rfl⟩

theorem State.ReadoutKept.trans (h : s.ReadoutKept t) (h' : t.ReadoutKept u) : s.ReadoutKept u :=
  ⟨h'.reading.trans h.reading, h'.lines.trans h.lines⟩

/-- A change after another that holds where a condition does. -/
theorem State.ReadoutKept.ite {v : State} (c : Bool) (ht : s.ReadoutKept t) (hv : t.ReadoutKept v) :
    s.ReadoutKept (if c then v else t) := by
  split
  · exact ht.trans hv
  · exact ht

/-- Steps one after the other. -/
theorem State.ReadoutKept.foldl {α : Type} {f : State → α → State} (h : ∀ (t : State) x, t.ReadoutKept (f t x)) (l : List α) :
    s.ReadoutKept (l.foldl f s) :=
  List.foldlRecOn _ _ (motive := fun t => s.ReadoutKept t) .refl fun _ ht x _ => ht.trans (h _ x)

/-- Reports of the checkers. -/
theorem State.Reports.readoutKept (h : s.Reports t) : s.ReadoutKept t := ⟨by rw [h.frame], by rw [h.frame]⟩

/-- Pages given or released. -/
theorem State.ReadoutKept.usePages (ps : List Nat) (x : PageUse) : s.ReadoutKept (s.usePages ps x) := by
  obtain ⟨m, hm⟩ := s.usePages_frame ps x
  rw [hm]
  exact ⟨rfl, rfl⟩

/-- Another part of the exposure unit replaced. -/
theorem State.ReadoutKept.setExp {x : Exposure} (h : x.reading = s.exp.reading) : s.ReadoutKept (s.setExp x) := ⟨h, rfl⟩

/-- The black cycle moves on. -/
theorem State.ReadoutKept.nextBlack :
    s.ReadoutKept (s.setExp { s.exp with blackPair := (s.exp.blackPair + 1) % 8 }) := .setExp rfl

/-- A line counted. -/
theorem State.ReadoutKept.countLine (due : Bool) : s.ReadoutKept (s.countLine due) := .setExp rfl

/-- A stream loss. -/
theorem State.ReadoutKept.streamLoss (f : Field) (unit data : Nat) : s.ReadoutKept (s.streamLoss f unit data) := by
  unfold State.streamLoss State.setAndRaise
  dsimp only
  split <;> exact ⟨by simp, by simp⟩

/-- An annex folio, assembled or skipped. -/
theorem State.ReadoutKept.annex {took : State → State} (h : ∀ t : State, t.ReadoutKept (took t)) (n q kind count : Nat)
    (payload : List Byte) : s.ReadoutKept (s.annex n q kind count payload took) := by
  have hafter : ∀ t : State, t.exp = s.exp → t.lines = s.lines → s.ReadoutKept (took t) := fun t he hl =>
    State.ReadoutKept.trans ⟨congrArg Exposure.reading he, hl⟩ (h t)
  unfold State.annex
  dsimp only
  split
  · exact hafter _ rfl rfl
  · exact .streamLoss ..

/-- An annex point. -/
theorem State.ReadoutKept.annexPoint (frame : Option Nat) (q : Nat) (due : Bool) :
    s.ReadoutKept (s.annexPoint frame q due) := by
  unfold State.annexPoint
  split
  · exact .refl
  · refine .ite _ (.ite _ (.ite _ .refl ?_) ?_) ?_
    · exact .annex (fun _ => .refl) ..
    · refine .annex (fun t => ?_) ..
      exact ⟨rfl, rfl⟩
    · refine .annex (fun t => ?_) ..
      exact ⟨rfl, rfl⟩

/-- The annex points of several lanes. -/
theorem State.ReadoutKept.annexPoints (frame : Option Nat) (lanes : List Nat) (due : Bool) :
    s.ReadoutKept (s.annexPoints frame lanes due) := .foldl (fun _ _ => .annexPoint ..) lanes

/-- A line folio dropped. -/
theorem State.ReadoutKept.dropFolio (q : Nat) : s.ReadoutKept (s.dropFolio q) := by
  refine State.ReadoutKept.trans ?_ (.streamLoss F.LN_STATUS_OVF q 5)
  exact ⟨rfl, rfl⟩

/-- A line folio spilled. -/
theorem State.ReadoutKept.spillFolio (q p : Nat) (f : Folio) : s.ReadoutKept (s.spillFolio q p f) := by
  have hwrite := (State.Reports.writeBytes (s := s.usePage p .spill) Store.slate false (2048 * p) f.payload).readoutKept
  have hpage : s.ReadoutKept (s.usePage p .spill) := ⟨rfl, rfl⟩
  unfold State.spillFolio
  exact (hpage.trans hwrite).trans ⟨by rw [State.setFlag_exp]; rfl, by rw [State.setFlag_lines]; rfl⟩

/-- A line folio assembled. -/
theorem State.ReadoutKept.assemble (f : Folio) : s.ReadoutKept (s.assemble f) := by
  unfold State.assemble
  dsimp only
  generalize (if (s.lane f.lane).ovf then _ else f) = g
  split
  · have hdrop := State.ReadoutKept.dropFolio (s := s.injDone.markedInj true) f.lane
    exact ⟨hdrop.reading, hdrop.lines⟩
  · split
    · exact ⟨rfl, rfl⟩
    · split
      · exact .spillFolio ..
      · exact .dropFolio _

/-- A line folio sent, or a LUT word that fails. -/
theorem State.ReadoutKept.sendValues (h : LineInfo) (q row : Nat) (test : Bool) (rows : List (List Int))
    (left right : List Int) (gap ecc last : Bool) : s.ReadoutKept (s.sendValues h q row test rows left right gap ecc last) := by
  unfold State.sendValues
  split
  · unfold State.sendLine
    split
    · dsimp only
      split
      · exact .assemble _
      · exact (State.ReadoutKept.assemble _).trans ⟨rfl, rfl⟩
    · exact .refl
  · unfold State.lutFault
    exact (State.Reports.logFault ..).readoutKept.trans ⟨rfl, rfl⟩

/-- A page read. -/
theorem State.ReadoutKept.readPage (p : Nat) : s.ReadoutKept (s.readPage p).2.2 := by
  have hread := (State.Reports.readBytes (s := s) .pixelPath false Store.slate false (2048 * p) 2048).readoutKept
  unfold State.readPage
  split <;> next h => rwa [h] at hread

/-- A TDI line sent. -/
theorem State.ReadoutKept.tdiOut (l : TdiLine) : s.ReadoutKept (s.tdiOut l) := by
  unfold State.tdiOut
  dsimp only
  refine State.ReadoutKept.trans (State.ReadoutKept.trans (State.ReadoutKept.trans ?_ (.usePages l.pages .free))
    (.annexPoints ..)) ⟨rfl, rfl⟩
  refine State.ReadoutKept.trans ?_ (.foldl (fun t qi => ?_) _)
  · exact ⟨rfl, rfl⟩
  · split
    · refine State.ReadoutKept.trans ?_ (.sendValues ..)
      split
      · exact .readPage _
      · exact .refl
    · exact .refl

/-- The complete TDI lines sent. -/
theorem State.ReadoutKept.tdiFlush : s.ReadoutKept s.tdiFlush := by
  unfold State.tdiFlush
  refine State.ReadoutKept.trans ?_ (.foldl (fun t l => .tdiOut l) _)
  exact .setExp rfl

/-! ### The end of a readout (R244) -/

/-- A readout that ends leaves the nodes free, and READOUT_END shows. -/
theorem State.endReadout_spec (r : Reading) : (s.endReadout r).exp.reading = none ∧ (s.endReadout r).lineHigh 34 = true := by
  let v := (s.setExp { s.exp with reading := none }).raiseLine 34
  have hstart : v.exp.reading = none ∧ v.lineHigh 34 = true := by
    refine ⟨rfl, ?_⟩
    show (s.lines ||| (1#64 <<< 34)).getLsbD 34 = true
    rw [BitVec.getLsbD_or]
    exact Bool.or_eq_true_iff.2 (.inr (by decide))
  have hkept : ∀ t, v.ReadoutKept t → t.exp.reading = none ∧ t.lineHigh 34 = true := fun t ht =>
    ⟨ht.reading.trans hstart.1, (congrArg (·.getLsbD 34) ht.lines).trans hstart.2⟩
  have hpages := State.ReadoutKept.usePages (s := v) r.frame.pages .free
  unfold State.endReadout
  dsimp only
  split
  · exact hstart
  · split
    · exact hkept _ (hpages.trans (.annexPoints ..))
    · exact hkept _ (hpages.trans (((State.ReadoutKept.annexPoints ..).trans (.countLine _)).trans .nextBlack))
    · refine hkept _ (hpages.trans (State.ReadoutKept.trans ?_ .nextBlack))
      split
      · exact .tdiFlush
      · exact (State.ReadoutKept.annexPoints ..).trans (.countLine _)

/-! ### The end of a pair (R259) -/

/-- A black pair that sends no folio and does not update the estimates enters them. -/
theorem State.processPair_black {r : Reading} {n : Nat} (hn : n ≠ 7) (hscan : r.frame.ctx.scan = .area)
    (hout : r.frame.ctx.flag F.QR_MODE_BLK_ROW_OUT = false) (x : Samples) :
    s.processPair r x (.black n) = s.setCnv (s.cnv.measure r.frame.ctx s.part r.cal x) := by
  have hsends : r.frame.ctx.sendsPair (.black n) = false := hout
  unfold State.processPair
  dsimp only
  rw [hsends, Bool.and_false, if_neg Bool.false_ne_true, hscan]
  unfold State.measureBlack
  dsimp only
  rw [if_neg (by simp [hn])]

/-- Settles O43. -/
theorem pairsConvert : Obligations.PairsConvert := by
  unfold Obligations.PairsConvert
  intro x s r p hr hp
  let ps := r.frame.ctx.pairs s.exp.blackPair
  let t := s.processPair r x p
  let r' : Reading := { (t.exp.reading.getD r) with pair := r.pair + 1 }
  let last := s.lastSent r.frame.ctx == some r.pair
  let final := decide (r.frame.ctx.subs ≤ r.k + 1)
  let v := if last && final && r.frame.ctx.scan != .tdi then
    t.annexPoints (some r'.frame.number) (t.senders r.frame.ctx) (t.statusDue r.frame.ctx) else t
  have hend : exec (.pairConversionEnd x) s = .next (if r.pair + 1 < ps.length then v.convertNext r' else v.endReadout r') := by
    refine congrArg Host.Outcome.next ?_
    unfold State.pairEnd
    rw [hr]
    dsimp only
    rw [hp]
  refine ⟨fun hmore => ?_, fun n hn hblack hscan hout hmore hcal hlast => ?_, fun hdone _ => ?_⟩
  · rw [hend, if_pos hmore]
    exact ⟨_, _, rfl, rfl, rfl⟩
  · have ht : t = s.setCnv (s.cnv.measure r.frame.ctx s.part r.cal x) := by
      rw [← State.processPair_black (n := n) (by omega) hscan hout x, ← hblack]
    have hv : v = t := if_neg (by simp [last, hlast])
    have hr' : r' = { r with pair := r.pair + 1 } := by
      have hread : t.exp.reading = some r := by rw [ht]; exact hr
      show ({ (t.exp.reading.getD r) with pair := r.pair + 1 } : Reading) = _
      rw [hread]
      rfl
    rw [hend, if_pos hmore, hv, hr', State.convertNext_of_none (by rw [ht]; exact hcal), ht]
    rfl
  · rw [hend, if_neg (Nat.not_lt.2 hdone.ge)]
    exact ⟨_, rfl, State.endReadout_spec r'⟩

end Sys2Proof.Machine
end

section
/-! PROOF.
Lanes: folios handed, and markers.
-/
namespace Sys2Proof.Machine

variable {s : State} {q : Nat}

/-- A lane replaced. -/
theorem State.lane_setLane (x : Lane) (k : Nat) : (s.setLane q x).lane k = if k = q then x else s.lane k :=
  Cells.get_set ..

/-- The symbols of a folio, from the end of the last one to its marker. -/
def State.folioSymbols (s : State) (q : Nat) (f : Folio) : List Symbol :=
  idleRun (s.lane q).rd (s.idlesBefore (s.lane q)) ++ [Symbol.sof] ++ f.bytes.map Symbol.data ++ [Symbol.eof] ++
    markerSet s.markerState q

/-- A folio sent in full, with nothing spilled behind it. -/
theorem State.handed_spec (hon : s.laneOn q = true) {f : Folio} {rest : List Folio} (hf : (s.lane q).fifo = f :: rest)
    (hs : (s.lane q).spill = []) : s.handed q = s.spent.setLane q (s.marked
      (Lane.send { s.lane q with fifo := rest, handed := some (f.bytes, FolioEnd.eof) } (s.folioSymbols q f))) := by
  let y := s.marked (Lane.send { s.lane q with fifo := rest, handed := some (f.bytes, FolioEnd.eof) } (s.folioSymbols q f))
  have hspill : ((s.spent.setLane q y).lane q).spill.length = 0 := by
    rw [State.lane_setLane, if_pos rfl]
    show (s.lane q).spill.length = 0
    rw [hs]
    rfl
  have hhanded : s.handed q = (s.spent.setLane q y).unspill q ((s.spent.setLane q y).lane q).spill.length := by
    unfold State.handed
    dsimp only
    rw [hf]
    dsimp only
    rw [if_pos hon]
    rfl
  rw [hhanded, hspill]
  rfl

/-- A lane after symbols that end in a marker. -/
theorem State.marked_send (x : Lane) (v : List Symbol) : s.marked (x.send v) = { x with
    marker := some s.markerState, bias := s.fld F.TMP_BAND_LMARGIN s.band, tight := !x.fifo.isEmpty
    wire := (groups x.rd v).1, rd := (groups x.rd v).2 } := rfl

/-- A marker on a lane without a folio. -/
theorem State.marker_spec (hb : s.biased q = true) (hf : (s.lane q).fifo = []) : s.marker q =
    s.setLane q (s.marked ((s.lane q).send (idleRun (s.lane q).rd 15 ++ markerSet s.markerState q))) := by
  unfold State.marker
  exact if_pos (by simp [hb, hf])

/-- Settles O44. -/
theorem lanesSend : Obligations.LanesSend := by
  unfold Obligations.LanesSend
  intro q s x
  refine ⟨fun hon f rest hf hs => ?_, fun hb => ⟨fun hf => ?_, fun hf => ?_⟩⟩
  · intro idles g
    refine ⟨_, congrArg Host.Outcome.next (State.handed_spec hon hf hs), rfl, ?_, fun k hk => ?_⟩
    · exact (State.lane_setLane _ _).trans (if_pos rfl)
    · exact (State.lane_setLane _ _).trans (if_neg hk)
  · intro g
    refine ⟨_, congrArg Host.Outcome.next (State.marker_spec hb hf), rfl, ?_, fun k hk => ?_⟩
    · refine (State.lane_setLane _ _).trans ((if_pos rfl).trans ?_)
      have htight : (!x.fifo.isEmpty) = false := by
        rw [hf]
        rfl
      rw [State.marked_send, htight]
    · exact (State.lane_setLane _ _).trans (if_neg hk)
  · refine congrArg Host.Outcome.next (if_neg ?_)
    have hfull : (s.lane q.val).fifo ≠ [] := hf
    simp [hfull]

end Sys2Proof.Machine
end

section
/-! PROOF.
Host temperatures: bands, limits, sensor faults, and the stale timer.
-/
namespace Sys2Proof.Machine

variable {s t : State}

/-! ### A used result (R478, R485, R491, R492) -/

/-- A word of 16 bits read as signed is its integer. -/
theorem signed_toNat (v : Word) : signed 16 v.toNat = v.toInt := by
  unfold signed
  rw [BitVec.toInt_eq_toNat_cond]
  have := v.isLt
  split <;> split <;> omega

/-- The word of an integer that it was read as. -/
theorem unsigned_toInt (v : Word) : unsigned 16 v.toInt = v.toNat := by
  unfold unsigned
  rw [BitVec.toInt_eq_toNat_cond]
  have := v.isLt
  split <;> omega

/-- A write of TMP_TEMP by the port. -/
theorem State.exec_tmpTempWrite (hlive : s.live = true) (v : Word) (lost : Bool) : exec (.tmpTempWrite v lost) s = .next
    (if s.flag F.TMP_CFG_HOST = true ∧ lost = false then s.useTemp v.toInt else s) := by
  have hmerge := merge_full (s.view .port R.TMP_TEMP 0) v
  have hwrite : s.writeMasked .port R.TMP_TEMP v 0xFFFF lost = if s.flag F.TMP_CFG_HOST then
      unlessLost s lost (s.useTemp (signed 16 (merge (s.view .port R.TMP_TEMP 0) v 0xFFFF).toNat))
      else (Status.state, s) := rfl
  show Host.Outcome.next (s.portWrite R.TMP_TEMP v lost) = _
  rw [State.portWrite_of_live hlive, hwrite, hmerge, signed_toNat]
  cases s.flag F.TMP_CFG_HOST <;> cases lost <;> rfl

/-- Without an injection a result is used as it is. -/
theorem State.useTemp_of_none (h : s.injArg 0x11 = none) (T : Int) : s.useTemp T =
    if T < -960 ∨ 2400 < T then s.sensorFault (unsigned 16 T)
    else ((((if s.thrClamped then s.setFlag F.TMP_STATUS_THR_CLAMP true else s).changeBand (s.nextBand T)).setTmp
      { ((if s.thrClamped then s.setFlag F.TMP_STATUS_THR_CLAMP true else s).changeBand (s.nextBand T)).tmp with
        temp := some T, valid := true, stale := false, timer := 0 }).limits T) := by
  unfold State.useTemp
  rw [h]
  rfl

/-- A used result within range and with no threshold clamped: the band, the result, the limits. -/
theorem State.useTemp_of_range (h : s.injArg 0x11 = none) {T : Int} (hlo : -960 ≤ T) (hhi : T ≤ 2400)
    (hthr : s.thrClamped = false) : s.useTemp T = ((s.changeBand (s.nextBand T)).setTmp
      { (s.changeBand (s.nextBand T)).tmp with temp := some T, valid := true, stale := false, timer := 0 }).limits T := by
  rw [State.useTemp_of_none h, if_neg (by omega), hthr]
  rfl

/-! ### The band (R485, R487) -/

/-- A band that changes, outside TDI, sets CHANGE, raises its event and line 58. -/
theorem State.changeBand_spec (hlen : s.flt.events.length < 64) (htdi : s.exp.tdiCtx = none) (b : Nat) :
    let t := s.changeBand b
    t = { s with
      regs := t.regs, fresh := t.fresh, tmp := { s.tmp with band := some b }
      lines := if b = s.band then s.lines else s.lines ||| (1#64 <<< 58)
      flt := { s.flt with
        events := s.flt.events ++ if b = s.band then [] else [s.entry 0x38 noUnit (256 * s.band + b)] } } ∧
    (b ≠ s.band → t.flag F.TMP_STATUS_CHANGE = true) ∧
    s.regsKept t (if b = s.band then [] else [(F.TMP_STATUS_CHANGE, 0)]) := by
  intro t
  by_cases hb : b = s.band
  · have ht : t = s.setTmp { s.tmp with band := some b } := by
      show s.changeBand b = _
      unfold State.changeBand
      dsimp only
      rw [if_pos hb]
    rw [if_pos hb, if_pos hb, if_pos hb, List.append_nil, ht]
    exact ⟨rfl, fun h => absurd hb h, State.regsKept_of_regs rfl rfl⟩
  · let v := s.setTmp { s.tmp with band := some b }
    let w := ((v.setFlag F.TMP_STATUS_CHANGE true).raise 0x38 noUnit (256 * s.band + b)).raiseLine 58
    obtain ⟨hframe, hflag, hkept⟩ := State.setFlag_raise (s := v) (f := F.TMP_STATUS_CHANGE) (i := 0) hlen rfl (by decide)
      (by decide) 0x38 noUnit (256 * s.band + b)
    have hexp : w.exp.tdiCtx = none := (congrArg (fun u : State => u.exp.tdiCtx) hframe).trans htdi
    have ht : t = w := by
      show s.changeBand b = _
      unfold State.changeBand
      dsimp only
      rw [if_neg hb, State.restartTdi_of_none hexp, ite_self]
    rw [if_neg hb, if_neg hb, if_neg hb, ht]
    refine ⟨?_, fun _ => hflag, State.regsKept_trans (State.regsKept_of_regs rfl rfl) (State.regsKept_trans hkept
      (State.regsKept_of_regs rfl rfl))⟩
    exact congrArg (fun u : State => u.raiseLine 58) hframe

/-! ### The limits (R492, R493) -/

/-- The limit state after a result that is no limit event. -/
def State.limitAfter (s : State) (T : Int) : Bool :=
  s.tmp.limit && !(decide (16 * (-40 + (s.fld F.TMP_CFG_HYST : Int)) ≤ T) &&
    decide (T < 16 * (105 - (s.fld F.TMP_CFG_HYST : Int))))

/-- A result between the limits ends the limit state inside the hysteresis. -/
theorem State.limits_of_between {T : Int} (hlo : -640 ≤ T) (hhi : T < 1680) :
    s.limits T = s.setTmp { s.tmp with limit := s.limitAfter T } := by
  unfold State.limits State.limitAfter
  dsimp only
  rw [if_neg (by omega), if_neg (by omega)]
  split
  · next h => simp [h]
  · next h =>
    have hkeep : (decide (16 * (-40 + (s.fld F.TMP_CFG_HYST : Int)) ≤ T) &&
        decide (T < 16 * (105 - (s.fld F.TMP_CFG_HYST : Int)))) = false := by simpa using h
    rw [hkeep, Bool.not_false, Bool.and_true]
    rfl

/-- A result over the limit, without LIM_STOP. -/
theorem State.limits_of_over (hlen : s.flt.events.length < 64) {T : Int} (hT : 1680 ≤ T)
    (hstop : s.flag F.TMP_CFG_LIM_STOP = false) :
    (s.setTmp { s.tmp with limit := true }).flagged (s.limits T) F.TMP_STATUS_OVER 0 [s.entry 0x39 noUnit (unsigned 16 T)] := by
  have hspec := State.setFlag_raise (s := s.setTmp { s.tmp with limit := true }) (f := F.TMP_STATUS_OVER) (i := 0) hlen rfl
    (by decide) (by decide) 0x39 noUnit (unsigned 16 T)
  have hkeep : (((s.setTmp { s.tmp with limit := true }).setFlag F.TMP_STATUS_OVER true).raise 0x39 noUnit
      (unsigned 16 T)).flag F.TMP_CFG_LIM_STOP = false :=
    (hspec.2.2.flag_eq (f := F.TMP_CFG_LIM_STOP) (i := 0) (by decide) (by decide)).trans hstop
  have hlimits : s.limits T = ((s.setTmp { s.tmp with limit := true }).setFlag F.TMP_STATUS_OVER true).raise 0x39 noUnit
      (unsigned 16 T) := by
    unfold State.limits
    dsimp only
    rw [if_pos hT]
    unfold State.limitEvent
    dsimp only
    rw [if_neg (by simp [hkeep])]
  rw [hlimits]
  exact hspec

/-! ### The stale timer (R494) -/

/-- A stale timer that is on has a period. -/
theorem State.stalePeriod_ne_zero (h : s.fld F.TMP_CFG_STALE ≠ 0) : s.stalePeriod ≠ 0 := by
  have hlt : s.fld F.TMP_CFG_STALE < 4 := s.fld_lt F.TMP_CFG_STALE 0
  unfold State.stalePeriod
  generalize s.fld F.TMP_CFG_STALE = n at *
  interval_cases n
  · exact absurd rfl h
  all_goals decide

/-- Settles O52. -/
theorem temperaturesUsed : Obligations.TemperaturesUsed := by
  unfold Obligations.TemperaturesUsed
  intro v s hinj hlen
  refine ⟨fun hlive => ⟨fun lost hoff => ?_, fun hhost => ?_⟩, fun hearly => ?_, fun han hper hstale hlate => ?_⟩
  · rw [State.exec_tmpTempWrite hlive, if_neg]
    rcases hoff with h | h <;> simp [h]
  · intro T h b
    have hwrite : exec (.tmpTempWrite v false) s = .next (s.useTemp T) := by
      rw [State.exec_tmpTempWrite hlive, if_pos ⟨hhost, rfl⟩]
    rw [hwrite]
    refine ⟨fun hlo hhi hthr htdi hover hunder => ?_, fun hover hhi hthr hb hstop => ?_, fun hout => ?_⟩
    · obtain ⟨hframe, hflag, hkept⟩ := State.changeBand_spec (s := s) (by omega) htdi b
      rw [State.useTemp_of_range hinj hlo hhi hthr, State.limits_of_between hunder hover]
      have hlimit : State.limitAfter ((s.changeBand b).setTmp { (s.changeBand b).tmp with
          temp := some T, valid := true, stale := false, timer := 0 }) T = s.limitAfter T := by
        have hhyst : (s.changeBand b).fld F.TMP_CFG_HYST = s.fld F.TMP_CFG_HYST :=
          hkept.fld_eq (i := 0) (by decide) fun x hx ha => by
            split at hx
            · cases hx
            · rw [List.mem_singleton.1 hx] at ha
              exact absurd ha (by decide)
        have htmp : (s.changeBand b).tmp.limit = s.tmp.limit := (congrArg (fun u : State => u.tmp.limit) hframe :)
        unfold State.limitAfter
        show ((s.changeBand b).tmp.limit && !(decide (16 * (-40 + ((s.changeBand b).fld F.TMP_CFG_HYST : Int)) ≤ T) &&
          decide (T < 16 * (105 - ((s.changeBand b).fld F.TMP_CFG_HYST : Int))))) = _
        rw [hhyst, htmp]
      rw [hlimit]
      generalize s.changeBand b = t at *
      refine ⟨_, rfl, ?_, hflag, State.regsKept_trans hkept (State.regsKept_of_regs rfl rfl)⟩
      exact (congrArg (fun u : State => (u.setTmp { u.tmp with
        temp := some T, valid := true, stale := false, timer := 0, limit := s.limitAfter T })) hframe :)
    · have hsame : s.changeBand b = s.setTmp { s.tmp with band := some b } := by
        unfold State.changeBand
        dsimp only
        rw [if_pos hb]
      let u := s.setTmp { temp := some T, valid := true, band := some b, limit := s.tmp.limit, stale := false, timer := 0 }
      have hused : s.useTemp T = u.limits T := by
        rw [State.useTemp_of_range hinj (by omega) hhi hthr, show s.changeBand (s.nextBand T) = _ from hsame]
        rfl
      obtain ⟨hframe, hflag, hkept⟩ := State.limits_of_over (s := u) (show s.flt.events.length < 64 by omega) hover hstop
      have hentry : u.entry 0x39 noUnit (unsigned 16 T) = ⟨0x39, s.flt.mark, noUnit, v.toNat, s.timeBits 32, false⟩ := by
        rw [show unsigned 16 T = v.toNat from unsigned_toInt v, State.entry, Nat.mod_eq_of_lt v.isLt]
        rfl
      rw [hentry] at hframe
      rw [hused]
      exact ⟨_, rfl, hframe, hflag, State.regsKept_trans (State.regsKept_of_regs rfl rfl) hkept⟩
    · have hspec := State.setFlag_raise (s := s) (f := F.TMP_STATUS_SENSOR) (i := 0) (by omega) rfl (by decide) (by decide) 0x3B
        noUnit (unsigned 16 T)
      have hentry : s.entry 0x3B noUnit (unsigned 16 T) = ⟨0x3B, s.flt.mark, noUnit, v.toNat, s.timeBits 32, false⟩ := by
        rw [show unsigned 16 T = v.toNat from unsigned_toInt v, State.entry, Nat.mod_eq_of_lt v.isLt]
      rw [State.useTemp_of_none hinj, if_pos hout]
      rw [hentry] at hspec
      exact ⟨_, rfl, hspec⟩
  · exact congrArg Host.Outcome.next (if_neg (by omega))
  · have hspec := State.setFlag_raise (s := s.setTmp { s.tmp with stale := true }) (f := F.TMP_STATUS_STALE_LATCH) (i := 0)
      (show s.flt.events.length < 64 by omega) rfl (by decide) (by decide) 0x3C noUnit 0
    have hstaled : s.tempStale = ((s.setTmp { s.tmp with stale := true }).setFlag F.TMP_STATUS_STALE_LATCH true).raise
        0x3C noUnit 0 := by
      unfold State.tempStale State.staleNow
      rw [if_pos hlate, if_neg (by simp [han, State.stalePeriod_ne_zero hper, hstale])]
    obtain ⟨hframe, hflag, hkept⟩ := hspec
    rw [← hstaled] at hframe hflag hkept
    exact ⟨_, rfl, hframe, hflag, State.regsKept_trans (State.regsKept_of_regs rfl rfl) hkept⟩

end Sys2Proof.Machine
end

section
/-! PROOF.
The peripheral bus as controller: host transfers, how they end, and the buffer.
-/
namespace Sys2Proof.Machine

variable {s t u : State}

/-! ### The end of a host transfer (R537) -/

/-- A host transfer ends with its code, whatever registers, buffer and transfer in progress `u` has changed. -/
theorem State.endTransfer_ends {x : Transfer} (hx : x.job = .host) (hlen : s.flt.events.length < 64) {b : Cells Byte}
    {p : Option Transfer} {more : List (Field × Nat)}
    (hu : u = { s with regs := u.regs, fresh := u.fresh, pb := { s.pb with xfer := p, buffer := b } })
    (hk : s.regsKept u more) (err : BusError) (d : List Byte) :
    s.transferEnds (u.endTransfer x err d) err.code b more ∧
      u.regsKept (u.endTransfer x err d) [(F.PB_STATUS_DONE, 0), (F.PB_STATUS_ERR, 0)] := by
  let v := (u.setPB { u.pb with xfer := u.pb.next, next := none }).setFld F.PB_STATUS_ERR err.code
  have hcode : err.code < 16 := by cases err <;> decide
  have hend : u.endTransfer x err d = (v.setFlag F.PB_STATUS_DONE true).raise 0x40 noUnit err.code := by
    unfold State.endTransfer
    dsimp only
    rw [if_pos hx]
  have herr : u.regsKept v [(F.PB_STATUS_ERR, 0)] :=
    State.regsKept_trans (State.regsKept_of_regs rfl rfl) (State.setFld_kept
      (s := u.setPB { u.pb with xfer := u.pb.next, next := none }) (by decide) err.code)
  have hshown : v.fld F.PB_STATUS_ERR = err.code := State.fld_setFld_of_lt (by decide) hcode
  have hv : v = { s with
      regs := v.regs, fresh := v.fresh, pb := { s.pb with xfer := s.pb.next, next := none, buffer := b } } := by
    show State.setFld (u.setPB { u.pb with xfer := u.pb.next, next := none }) _ _ = _
    rw [hu]
    rfl
  clear_value v
  obtain ⟨hframe, hdone, hkept⟩ := State.setFlag_raise (s := v) (f := F.PB_STATUS_DONE) (i := 0) (by rw [hv]; exact hlen) rfl
    (by decide) (by decide) 0x40 noUnit err.code
  have hentry : v.entry 0x40 noUnit err.code = ⟨0x40, s.flt.mark, noUnit, err.code, s.timeBits 32, false⟩ := by
    rw [hv, State.entry, Nat.mod_eq_of_lt (by omega)]
    rfl
  rw [hentry, ← hend] at hframe
  rw [← hend] at hdone hkept
  have hall : u.regsKept (u.endTransfer x err d) [(F.PB_STATUS_DONE, 0), (F.PB_STATUS_ERR, 0)] :=
    State.regsKept_trans (State.regsKept_mono herr (by simp)) (State.regsKept_mono hkept (by simp))
  refine ⟨⟨?_, hdone, (hkept.fld_apart (by decide)).trans hshown, State.regsKept_trans
    (State.regsKept_mono hk (by simp +contextual)) (State.regsKept_mono hall (by simp))⟩, hall⟩
  rw [hv] at hframe
  exact hframe

/-- A host transfer ends with no more than its flags. -/
theorem State.endTransfer_host {x : Transfer} (hx : x.job = .host) (hlen : s.flt.events.length < 64) (err : BusError)
    (d : List Byte) : s.transferEnds (s.endTransfer x err d) err.code s.pb.buffer [] :=
  (State.endTransfer_ends (p := s.pb.xfer) hx hlen rfl State.regsKept_refl err d).1

/-- A host transfer ends after a count. -/
theorem State.count_endTransfer {x : Transfer} (hx : x.job = .host) (hlen : s.flt.events.length < 64) {f : Field}
    (hf : f.lo ≤ f.hi ∧ f.hi < 16) (ha : f.addr ≠ R.PB_STATUS) (err : BusError) :
    s.transferEnds ((s.count f).endTransfer x err []) err.code s.pb.buffer [(f, 0)] ∧
      s.counts ((s.count f).endTransfer x err []) f := by
  obtain ⟨hends, hkept⟩ := State.endTransfer_ends (s := s) (u := s.count f) (p := s.pb.xfer) (more := [(f, 0)]) hx hlen rfl
    (State.setFld_kept ⟨by decide, hf⟩ _) err []
  refine ⟨hends, ?_⟩
  have hsame : ((s.count f).endTransfer x err []).fld f = (s.count f).fld f := hkept.fld_eq (i := 0) (by decide) (by
    simp only [List.forall_mem_cons, List.not_mem_nil, false_implies, implies_true, and_true]
    exact ⟨fun e => absurd e.symm ha, fun e => absurd e.symm ha⟩)
  exact hsame.trans (State.count_counts hf)


/-! ### What the bus gives a host transfer (R538 to R543, R555 to R557) -/

/-- Outside a test run no step of one waits for the bus. -/
theorem State.afterBus_of_idle (h : u = t) (hrun : t.bst.run = none) : u.afterBus = t := by
  rw [h]
  unfold State.afterBus
  rw [hrun]

/-- With no injection pending and no inhibit, a START is sent. -/
theorem State.sendStart_of_free {x : Transfer} (hi : s.inhibited x = false) (h17 : s.injArg 0x17 = none)
    (h18 : s.injArg 0x18 = none) : s.sendStart x = s.putTransfer { x with sent := true } := by
  unfold State.sendStart
  rw [if_neg (by simp [hi]), if_neg (by simp [h18]), if_neg (by simp [h17])]

/-- An attempt that is not the last is counted, and the transfer backs off (R540). -/
theorem State.loseAttempt_retried {x : Transfer} (h : x.losses < s.fld F.PB_CFG_RETRY) :
    s.loseAttempt x = (s.count F.PB_ERR_ARB_LOSSES).putTransfer
      { x with sent := false, losses := x.losses + 1, backoff := true } := by
  have hretry : (s.count F.PB_ERR_ARB_LOSSES).fld F.PB_CFG_RETRY = s.fld F.PB_CFG_RETRY :=
    (State.setFld_kept (s := s) (f := F.PB_ERR_ARB_LOSSES) (by decide) _).fld_apart (by decide)
  unfold State.loseAttempt
  dsimp only
  rw [hretry, if_neg (by omega)]

/-- The last attempt ends the transfer (R540). -/
theorem State.loseAttempt_last {x : Transfer} (h : s.fld F.PB_CFG_RETRY ≤ x.losses) :
    s.loseAttempt x = (s.count F.PB_ERR_ARB_LOSSES).endTransfer x .arbLost [] := by
  have hretry : (s.count F.PB_ERR_ARB_LOSSES).fld F.PB_CFG_RETRY = s.fld F.PB_CFG_RETRY :=
    (State.setFld_kept (s := s) (f := F.PB_ERR_ARB_LOSSES) (by decide) _).fld_apart (by decide)
  unfold State.loseAttempt
  dsimp only
  rw [hretry, if_pos h]

/-- A host transfer that completes ends at once, or polls after a write to the EEPROM block (R556). -/
theorem State.busDone_complete {x : Transfer} (hx : s.pb.xfer = some x) (hjob : x.job = .host) (hon : s.busOn = true)
    (hsent : x.sent = true) (hpoll : x.polling = false) (h17 : s.injArg 0x17 = none) (d : List Byte) :
    s.busDone (.complete d) =
      if x.op = .write then
        if s.inBlock x.addr then s.putTransfer { x with sent := false, polling := true }
        else s.endTransfer x .none (d.take x.rlen)
      else (s.fillBuffer (d.take x.rlen)).endTransfer x .none (d.take x.rlen) := by
  unfold State.busDone
  rw [hx]
  dsimp only
  rw [if_neg (by simp [hon, hsent, hpoll]), if_neg (by simp [h17])]
  by_cases hop : x.op = .write
  · simp only [hop, if_true, true_and]
  · simp only [hop, if_false, false_and, State.received, hjob, if_true]

/-- A missing acknowledge is counted and ends the transfer (R542). -/
theorem State.busDone_nack {x : Transfer} (hx : s.pb.xfer = some x) (hon : s.busOn = true)
    (hsent : x.sent = true) (hpoll : x.polling = false) (h17 : s.injArg 0x17 = none) :
    s.busDone .nackAddr = (s.count F.PB_ERR_NACKS).endTransfer x .nackAddr [] ∧
      s.busDone .nackData = (s.count F.PB_ERR_NACKS).endTransfer x .nackData [] := by
  constructor <;>
  · unfold State.busDone
    rw [hx]
    dsimp only
    rw [if_neg (by simp [hon, hsent, hpoll]), if_neg (by simp [h17])]

/-- A host transfer that ends leaves the test unit. -/
theorem State.transferEnds.run {c : Nat} {b : Cells Byte} {l : List (Field × Nat)} (h : s.transferEnds t c b l) :
    t.bst.run = s.bst.run := by
  obtain ⟨hframe, -⟩ := h
  rw [hframe]

/-- An attempt that is not the last ends with the transfer waiting for its backoff; the device may be addressed. -/
theorem State.arbLost_retried {x : Transfer} (hx : s.pb.xfer = some x) (hon : s.busOn = true) (hsent : x.sent = true)
    (hlt : x.losses < s.fld F.PB_CFG_RETRY) {v : State}
    (hv : (s.count F.PB_ERR_ARB_LOSSES).putTransfer { x with sent := false, losses := x.losses + 1, backoff := true } = v) :
    s.arbLost none = v ∧ ∀ b, s.arbLost (some b) =
      if s.namesTarget b then v.setPB { v.pb with target := if b.getLsbD 0 then .readOut else .written false } else v := by
  have hgo : (s.busOn && (x.sent || x.polling)) = true := by simp [hon, hsent]
  constructor
  · unfold State.arbLost
    rw [hx]
    dsimp only
    rw [if_pos hgo, State.loseAttempt_retried hlt, hv]
  · intro b
    unfold State.arbLost
    rw [hx]
    dsimp only
    rw [if_pos hgo, State.loseAttempt_retried hlt, hv]

/-- Settles O56. -/
theorem busProgresses : Obligations.BusProgresses := by
  unfold Obligations.BusProgresses
  intro s x hx hjob hon hrun hlen h17 h18
  refine ⟨fun hsent hinh => ⟨fun hback => ?_, fun hback => ?_⟩, ?_, fun hsent => ⟨fun winner => ⟨fun hlt => ?_, fun hle hw => ?_⟩,
    ?_, fun hpoll => ⟨fun d hop => ?_, fun d hop hblock => ?_, fun d hop hblock => ?_, ?_, ?_⟩⟩, fun hpoll => ⟨?_, ?_⟩, ?_, fun hsent => ?_⟩
  · have hstart : s.busFree = (s.setPB { s.pb with target := .idle }).putTransfer { x with sent := true } := by
      unfold State.busFree
      rw [hx]
      dsimp only
      rw [if_pos (by simp [hon, hsent, hback])]
      exact State.sendStart_of_free hinh h17 h18
    exact congrArg Host.Outcome.next (State.afterBus_of_idle hstart hrun)
  · have hstart : s.backoffEnd = (s.setPB { s.pb with target := .idle }).putTransfer
        { x with sent := true, backoff := false } := by
      unfold State.backoffEnd
      rw [hx]
      dsimp only
      rw [if_pos (by simp [hon, hback])]
      exact State.sendStart_of_free (x := { x with backoff := false }) hinh h17 h18
    exact congrArg Host.Outcome.next (State.afterBus_of_idle hstart hrun)
  · have hend : s.sclStuck = s.endTransfer x .sclStuck [] := by
      unfold State.sclStuck
      rw [hx]
      exact if_pos hon
    have hends := State.endTransfer_host hjob hlen .sclStuck []
    exact ⟨_, congrArg Host.Outcome.next (State.afterBus_of_idle hend (hends.run.trans hrun)), hends⟩
  · have hkept : s.regsKept (s.count F.PB_ERR_ARB_LOSSES) [(F.PB_ERR_ARB_LOSSES, 0)] := State.setFld_kept (by decide) _
    have hcount : s.counts (s.count F.PB_ERR_ARB_LOSSES) F.PB_ERR_ARB_LOSSES := State.count_counts (by decide)
    obtain ⟨hnone, hsome⟩ := State.arbLost_retried hx hon hsent hlt rfl
    cases winner with
    | none => exact ⟨_, congrArg Host.Outcome.next (State.afterBus_of_idle hnone hrun), rfl, hcount, hkept⟩
    | some b =>
      have hb := hsome b
      by_cases hname : s.namesTarget b = true
      · rw [if_pos hname] at hb
        dsimp only
        rw [if_pos hname]
        exact ⟨_, congrArg Host.Outcome.next (State.afterBus_of_idle hb hrun), rfl, hcount, hkept⟩
      · rw [if_neg hname] at hb
        dsimp only
        rw [if_neg hname]
        exact ⟨_, congrArg Host.Outcome.next (State.afterBus_of_idle hb hrun), rfl, hcount, hkept⟩
  · subst hw
    have hend : s.arbLost none = (s.count F.PB_ERR_ARB_LOSSES).endTransfer x .arbLost [] := by
      unfold State.arbLost
      rw [hx]
      dsimp only
      rw [if_pos (by simp [hon, hsent])]
      exact State.loseAttempt_last hle
    obtain ⟨hends, hcount⟩ := State.count_endTransfer hjob hlen (f := F.PB_ERR_ARB_LOSSES) (by decide) (by decide) .arbLost
    exact ⟨_, congrArg Host.Outcome.next (State.afterBus_of_idle hend (hends.run.trans hrun)), hends, hcount⟩
  · have hend : s.arbSr = (s.count F.PB_ERR_ARB_LOSSES).endTransfer x .arbSr [] := by
      unfold State.arbSr
      rw [hx]
      exact if_pos (by simp [hon, hsent])
    obtain ⟨hends, hcount⟩ := State.count_endTransfer hjob hlen (f := F.PB_ERR_ARB_LOSSES) (by decide) (by decide) .arbSr
    exact ⟨_, congrArg Host.Outcome.next (State.afterBus_of_idle hend (hends.run.trans hrun)), hends, hcount⟩
  · have hend := State.busDone_complete hx hjob hon hsent hpoll h17 d
    rw [if_neg hop] at hend
    obtain ⟨hends, -⟩ := State.endTransfer_ends (s := s) (u := s.fillBuffer (d.take x.rlen)) (more := []) hjob hlen rfl
      (State.regsKept_of_regs rfl rfl) .none (d.take x.rlen)
    exact ⟨_, congrArg Host.Outcome.next (State.afterBus_of_idle hend (hends.run.trans hrun)), hends⟩
  · have hend := State.busDone_complete hx hjob hon hsent hpoll h17 d
    rw [if_pos hop, if_neg (by simp [hblock])] at hend
    have hends := State.endTransfer_host hjob hlen .none (d.take x.rlen)
    exact ⟨_, congrArg Host.Outcome.next (State.afterBus_of_idle hend (hends.run.trans hrun)), hends⟩
  · have hend := State.busDone_complete hx hjob hon hsent hpoll h17 d
    rw [if_pos hop, if_pos hblock] at hend
    exact congrArg Host.Outcome.next (State.afterBus_of_idle hend hrun)
  · obtain ⟨hends, hcount⟩ := State.count_endTransfer hjob hlen (f := F.PB_ERR_NACKS) (by decide) (by decide) .nackAddr
    exact ⟨_, congrArg Host.Outcome.next (State.afterBus_of_idle (State.busDone_nack hx hon hsent hpoll h17).1 (hends.run.trans hrun)), hends, hcount⟩
  · obtain ⟨hends, hcount⟩ := State.count_endTransfer hjob hlen (f := F.PB_ERR_NACKS) (by decide) (by decide) .nackData
    exact ⟨_, congrArg Host.Outcome.next (State.afterBus_of_idle (State.busDone_nack hx hon hsent hpoll h17).2 (hends.run.trans hrun)), hends, hcount⟩
  · have hend : s.pollEnd true = s.endTransfer x .none [] := by
      unfold State.pollEnd
      rw [hx]
      exact if_pos (by simp [hon, hpoll])
    have hends := State.endTransfer_host hjob hlen .none []
    exact ⟨_, congrArg Host.Outcome.next (State.afterBus_of_idle hend (hends.run.trans hrun)), hends⟩
  · have hend : s.pollEnd false = s.endTransfer x .nackAddr [] := by
      unfold State.pollEnd
      rw [hx]
      exact if_pos (by simp [hon, hpoll])
    have hends := State.endTransfer_host hjob hlen .nackAddr []
    exact ⟨_, congrArg Host.Outcome.next (State.afterBus_of_idle hend (hends.run.trans hrun)), hends⟩
  · have hfreed : s.recovered true = s := if_pos (by simp)
    exact congrArg Host.Outcome.next (State.afterBus_of_idle hfreed hrun)
  · have hend : s.recovered false = (s.setFlag F.PB_STATUS_STUCK true).endTransfer x .sdaStuck [] := by
      unfold State.recovered
      rw [if_neg (by simp [hon]), hx]
      exact if_neg (by simp [hsent])
    obtain ⟨hends, hkept⟩ := State.endTransfer_ends (s := s) (u := s.setFlag F.PB_STATUS_STUCK true) (p := s.pb.xfer)
      (more := [(F.PB_STATUS_STUCK, 0)]) hjob hlen rfl (State.setFlag_kept (by decide) true) .sdaStuck []
    exact ⟨_, congrArg Host.Outcome.next (State.afterBus_of_idle hend (hends.run.trans hrun)), hends,
      (hkept.flag_apart (by decide)).trans (State.flag_setFlag s rfl (by decide) true 0)⟩


/-! ### What the host asks of the controller (R537, R543, R550) -/

/-- The fields of a write of PB_XFER. -/
theorem xferWord_fields {op : Nat} (hop : op < 4) (wlen rlen : BitVec 6) :
    F.PB_XFER_OP.of (xferWord op wlen rlen) = op ∧ F.PB_XFER_WLEN.of (xferWord op wlen rlen) = wlen.toNat ∧
      F.PB_XFER_RLEN.of (xferWord op wlen rlen) = rlen.toNat := by
  have hw := wlen.isLt
  have hr := rlen.isLt
  have hword : (xferWord op wlen rlen).toNat = op * 2 ^ 14 + wlen.toNat * 2 ^ 8 + rlen.toNat := by
    rw [xferWord, BitVec.toNat_ofNat, Nat.mod_eq_of_lt (by omega)]
  refine ⟨?_, ?_, ?_⟩ <;>
  · unfold Field.of
    rw [hword]
    simp only [bits, F.PB_XFER_OP, F.PB_XFER_WLEN, F.PB_XFER_RLEN]
    omega

/-- A write of PB_XFER by the port acts by its operation. -/
theorem State.portWrite_xfer (h : s.live = true) (w : Word) (lost : Bool) :
    s.portWrite R.PB_XFER w lost = s.writeXfer w := by
  rw [State.portWrite_of_live h]
  show (if F.PB_XFER_OP.of 0xFFFF = 0 then s.storeReg R.PB_XFER 0 w 0xFFFF
    else s.writeXfer (merge (s.view .port R.PB_XFER 0) w 0xFFFF)) = _
  rw [if_neg (by decide), merge_full]

/-- The lengths of PB_XFER written. -/
def State.withLengths (s : State) (wlen rlen : Nat) : State := (s.setFld F.PB_XFER_WLEN wlen).setFld F.PB_XFER_RLEN rlen

/-- The lengths change their fields alone. -/
theorem State.withLengths_kept (wlen rlen : Nat) :
    s.regsKept (s.withLengths wlen rlen) [(F.PB_XFER_WLEN, 0), (F.PB_XFER_RLEN, 0)] :=
  State.regsKept.append (l := [(F.PB_XFER_WLEN, 0)]) (State.setFld_kept (by decide) wlen) (State.setFld_kept (by decide) rlen)

/-- The inhibit judges by the warning and by the EEPROM block. -/
theorem State.inhibited_of_kept {l : List (Field × Nat)} (h : s.regsKept t l) (hl : ∀ x ∈ l, x.1.addr ≠ R.PB_EE)
    (hp : t.pwr.warn = s.pwr.warn) (x : Transfer) : t.inhibited x = s.inhibited x := by
  have hee : t.reg R.PB_EE 0 = s.reg R.PB_EE 0 := h.reg_eq (by decide) fun x hx e => absurd e (hl x hx)
  have haddr : t.fld F.PB_EE_ADDR = s.fld F.PB_EE_ADDR := congrArg F.PB_EE_ADDR.of hee
  have hblk : t.fld F.PB_EE_BLK = s.fld F.PB_EE_BLK := congrArg F.PB_EE_BLK.of hee
  unfold State.inhibited State.inBlock State.blockBase
  rw [hp, haddr, hblk]

/-- A host transfer starts, or ends at once under the inhibit (R537, R550). -/
theorem State.startHost_started {op : BusOp} {wlen rlen : Nat} (h : s.startRefused op wlen rlen = false) :
    s.startHost op wlen rlen =
      if s.inhibited (s.hostTransfer op wlen rlen) then
        ((s.withLengths wlen rlen).putTransfer (s.hostTransfer op wlen rlen)).endTransfer (s.hostTransfer op wlen rlen) .inhibit []
      else (s.withLengths wlen rlen).putTransfer (s.hostTransfer op wlen rlen) := by
  have hinh := State.inhibited_of_kept (t := (s.withLengths wlen rlen).putTransfer (s.hostTransfer op wlen rlen))
    (s.withLengths_kept wlen rlen) (by decide) rfl (s.hostTransfer op wlen rlen)
  unfold State.startHost
  rw [if_neg (by simp [h])]
  show (if ((s.withLengths wlen rlen).putTransfer (s.hostTransfer op wlen rlen)).inhibited _ = true then _ else _) = _
  rw [hinh]
  rfl

/-- A start by the port names its operation. -/
theorem State.portWrite_start (h : s.live = true) (wlen rlen : BitVec 6) :
    s.portWrite R.PB_XFER (xferWord 1 wlen rlen) false = s.startHost .write wlen.toNat rlen.toNat ∧
      s.portWrite R.PB_XFER (xferWord 2 wlen rlen) false = s.startHost .read wlen.toNat rlen.toNat ∧
      s.portWrite R.PB_XFER (xferWord 3 wlen rlen) false = s.startHost .writeRead wlen.toNat rlen.toNat ∧
      s.portWrite R.PB_XFER (xferWord 0 wlen rlen) false = (s.withLengths wlen.toNat rlen.toNat).abortHost := by
  refine ⟨?_, ?_, ?_, ?_⟩ <;> rw [State.portWrite_xfer h] <;> unfold State.writeXfer
  · obtain ⟨ho, hw, hr⟩ := xferWord_fields (op := 1) (by decide) wlen rlen
    rw [ho, hw, hr]
    rfl
  · obtain ⟨ho, hw, hr⟩ := xferWord_fields (op := 2) (by decide) wlen rlen
    rw [ho, hw, hr]
    rfl
  · obtain ⟨ho, hw, hr⟩ := xferWord_fields (op := 3) (by decide) wlen rlen
    rw [ho, hw, hr]
    rfl
  · obtain ⟨ho, hw, hr⟩ := xferWord_fields (op := 0) (by decide) wlen rlen
    rw [ho, hw, hr]
    rfl

/-! ### The buffer (Table 16-11) -/

/-- PTR advances by two, and no other field changes. -/
theorem State.bufferNext_spec : s.bufferNext.fld F.PB_XADDR_PTR = (s.fld F.PB_XADDR_PTR + 2) % 32 ∧
    s.regsKept s.bufferNext [(F.PB_XADDR_PTR, 0)] :=
  ⟨State.fld_setFld_of_lt (by decide) (Nat.mod_lt _ (by decide)), State.setFld_kept (by decide) _⟩

/-- What a write of PB_DATA leaves of the buffer. -/
theorem State.get_bufferWrite (v : Word) (k : Nat) :
    Cells.get 0 (s.bufferWrite v).pb.buffer k =
      if k = s.fld F.PB_XADDR_PTR then v.extractLsb' 8 8
      else if k = (s.fld F.PB_XADDR_PTR + 1) % 32 then v.extractLsb' 0 8 else Cells.get 0 s.pb.buffer k := by
  have hlt : s.fld F.PB_XADDR_PTR < 32 := s.fld_lt F.PB_XADDR_PTR 0
  have hhi : BitVec.ofNat 8 (v.toNat / 256) = v.extractLsb' 8 8 := by
    apply BitVec.eq_of_toNat_eq
    simp [BitVec.extractLsb'_toNat, Nat.shiftRight_eq_div_pow]
  have hlo : BitVec.ofNat 8 v.toNat = v.extractLsb' 0 8 := by
    apply BitVec.eq_of_toNat_eq
    simp [BitVec.extractLsb'_toNat]
  show Cells.get 0 (Cells.set 0 (Cells.set 0 s.pb.buffer (s.fld F.PB_XADDR_PTR) _) ((s.fld F.PB_XADDR_PTR + 1) % 32) _) k = _
  rw [hhi, hlo]
  by_cases h1 : k = s.fld F.PB_XADDR_PTR
  · rw [if_pos h1, Cells.get_set_ne _ _ (by omega), h1, Cells.get_set_self]
  · rw [if_neg h1]
    by_cases h2 : k = (s.fld F.PB_XADDR_PTR + 1) % 32
    · rw [if_pos h2, h2, Cells.get_set_self]
    · rw [if_neg h2, Cells.get_set_ne _ _ h2, Cells.get_set_ne _ _ h1]

/-- PB_DATA read by the port: the two bytes at PTR, which advances. -/
theorem State.hostRead_data (hv : s.pwr.rails.vcore = true) (hd : s.pwr.state ≠ .dormant) :
    s.hostRead .port false R.PB_DATA =
      (Cells.get 0 s.pb.buffer (s.fld F.PB_XADDR_PTR) ++ Cells.get 0 s.pb.buffer ((s.fld F.PB_XADDR_PTR + 1) % 32),
        s.bufferNext) := by
  have hview : s.view .port R.PB_DATA 0 =
      Cells.get 0 s.pb.buffer (s.fld F.PB_XADDR_PTR) ++ Cells.get 0 s.pb.buffer ((s.fld F.PB_XADDR_PTR + 1) % 32) := by
    show BitVec.ofNat 16 (((s.reg R.PB_DATA 0).toNat &&& (0xFFFF - 0xFFFF)) ||| (s.bufferWord &&& 0xFFFF)) = _
    apply BitVec.eq_of_toNat_eq
    rw [Nat.sub_self, Nat.and_zero, Nat.zero_or, show 0xFFFF = 2 ^ 16 - 1 from rfl, Nat.and_two_pow_sub_one_eq_mod,
      BitVec.toNat_ofNat, Nat.mod_mod, BitVec.toNat_append, ← Nat.shiftLeft_add_eq_or_of_lt (BitVec.isLt _), Nat.shiftLeft_eq]
    unfold State.bufferWord
    dsimp only
    omega
  rw [State.hostRead, if_neg (by simp [hv, hd]), ← hview]
  rfl

/-- Settles O55. -/
theorem busTransfers : Obligations.BusTransfers := by
  unfold Obligations.BusTransfers
  intro wlen rlen v s hlive hlen lengths
  obtain ⟨hwrite, hread, hboth, habort⟩ := State.portWrite_start hlive wlen rlen
  obtain ⟨hup, hdue, hmute⟩ := State.live_iff.1 hlive
  refine ⟨fun c op hc => ?_, fun x hx hjob => ⟨fun hsent => ?_, fun hsent => ?_⟩, ?_, fun hv => ?_⟩
  · have hrow : exec c s = .next (s.startHost op wlen.toNat rlen.toNat) := by
      rcases hc with ⟨rfl, rfl⟩ | ⟨rfl, rfl⟩ | ⟨rfl, rfl⟩
      · exact congrArg Host.Outcome.next hwrite
      · exact congrArg Host.Outcome.next hread
      · exact congrArg Host.Outcome.next hboth
    refine ⟨fun hrefused => ⟨_, hrow, ?_⟩, fun hstart => ⟨fun hinh => ⟨_, hrow, ?_⟩, fun hinh => ⟨_, hrow, ?_⟩⟩⟩
    · rw [State.startHost, if_pos hrefused]
      exact ⟨State.setFlag_frame .., State.flag_setFlag s rfl (by decide) true 0, State.setFlag_kept (by decide) true⟩
    · rw [State.startHost_started hstart, if_neg (by simp [hinh])]
      have hle : wlen.toNat ≤ 32 ∧ rlen.toNat ≤ 32 := by
        simp only [State.startRefused, Bool.or_eq_false_iff, decide_eq_false_iff_not] at hstart
        omega
      refine ⟨rfl, ?_, ?_, s.withLengths_kept _ _⟩
      · exact ((State.setFld_kept (s := s.setFld F.PB_XFER_WLEN wlen.toNat) (f := F.PB_XFER_RLEN) (by decide) _).fld_apart
          (by decide)).trans (State.fld_setFld_of_lt (by decide) wlen.isLt)
      · exact State.fld_setFld_of_lt (by decide) rlen.isLt
    · rw [State.startHost_started hstart, if_pos hinh]
      exact (State.endTransfer_ends (s := s) (x := s.hostTransfer op wlen.toNat rlen.toNat)
        (u := (s.withLengths wlen.toNat rlen.toNat).putTransfer (s.hostTransfer op wlen.toNat rlen.toNat))
        rfl hlen rfl (s.withLengths_kept _ _) .inhibit []).1
  · have hput : (s.withLengths wlen.toNat rlen.toNat).abortHost =
        (s.withLengths wlen.toNat rlen.toNat).putTransfer { x with aborting := true } := by
      unfold State.abortHost
      rw [show (s.withLengths wlen.toNat rlen.toNat).pb.xfer = some x from hx]
      dsimp only
      rw [if_neg (by simp [hjob]), if_pos hsent]
    exact ⟨_, congrArg Host.Outcome.next (habort.trans hput), rfl, s.withLengths_kept _ _⟩
  · have hend : (s.withLengths wlen.toNat rlen.toNat).abortHost =
        (s.withLengths wlen.toNat rlen.toNat).endTransfer x .aborted [] := by
      unfold State.abortHost
      rw [show (s.withLengths wlen.toNat rlen.toNat).pb.xfer = some x from hx]
      dsimp only
      rw [if_neg (by simp [hjob]), if_neg (by simp [hsent])]
    exact ⟨_, congrArg Host.Outcome.next (habort.trans hend), (State.endTransfer_ends (s := s)
      (u := s.withLengths wlen.toNat rlen.toNat) (p := s.pb.xfer) (b := s.pb.buffer) hjob hlen rfl (s.withLengths_kept _ _)
      .aborted []).1⟩
  · intro p
    have hstore : s.portWrite R.PB_DATA v false = s.bufferWrite v := by
      rw [State.portWrite_of_live hlive]
      show s.bufferWrite (merge (s.view .port R.PB_DATA 0) v 0xFFFF) = _
      rw [merge_full]
    obtain ⟨hptr, hkept⟩ := State.bufferNext_spec (s := s)
    exact ⟨_, congrArg Host.Outcome.next hstore, rfl, hptr, hkept, s.get_bufferWrite v⟩
  · intro p
    have hawake : s.pwr.state ≠ .dormant := by
      intro h
      simp [State.up, h] at hup
    have hdata := State.hostRead_data hv hawake
    have hpop : s.portRead R.PB_DATA = s.bufferNext := by
      have hopen : s.readOpen = true := by simp [State.readOpen, hup, hmute]
      rw [State.portRead, if_pos hopen, State.dueApply_of hdue, hdata]
    obtain ⟨hptr, hkept⟩ := State.bufferNext_spec (s := s)
    exact ⟨congrArg Prod.fst hdata, _, congrArg Host.Outcome.next hpop, rfl, hptr, hkept⟩

end Sys2Proof.Machine
end

section
/-! PROOF.
What the host does to the Agate engines: start, step, halt, injected parts and the FIFO.
-/
namespace Sys2Proof.Machine

variable {s t : State} {e k : Nat}

/-! ### One engine replaced -/

/-- An engine reads as it was put, the others as they were. -/
theorem State.engine_setEngine (e : Nat) (x : Engine) (k : Nat) :
    (s.setEngine e x).engine k = if k = e then x else s.engine k := by
  by_cases h : k = e
  · rw [if_pos h, h]
    exact Cells.get_set_self _ _ _
  · rw [if_neg h]
    exact Cells.get_set_ne _ _ h

/-- One engine replaced. -/
theorem State.setEngine_becomes (e : Nat) (x : Engine) : s.engineBecomes (s.setEngine e x) e x :=
  ⟨rfl, State.engine_setEngine e x⟩

/-- A fold over the engines gives engine `k` the value `G k`, where each of its steps does so for its own engine and keeps
what `R` says of the steps so far. -/
theorem State.engine_foldl {f : State → Nat → State} {R : Nat → State → Prop} {G : Nat → Engine} {n : Nat} (h0 : R 0 s)
    (hstep : ∀ t, ∀ e < n, R e t → t.engine e = s.engine e →
      R (e + 1) (f t e) ∧ ∀ k, (f t e).engine k = if k = e then G e else t.engine k) :
    R n ((List.range n).foldl f s) ∧
      ∀ k, ((List.range n).foldl f s).engine k = if k < n then G k else s.engine k := by
  induction n with
  | zero => exact ⟨h0, fun k => (if_neg (Nat.not_lt_zero k)).symm⟩
  | succ n ih =>
    obtain ⟨hR, hk⟩ := ih fun t e he => hstep t e (by omega)
    rw [List.range_succ, List.foldl_append]
    obtain ⟨hR', hk'⟩ := hstep _ n (by omega) hR ((hk n).trans (if_neg (Nat.lt_irrefl n)))
    refine ⟨hR', fun k => (hk' k).trans ?_⟩
    by_cases h : k = n
    · rw [if_pos h, if_pos (by omega), h]
    · rw [if_neg h, hk k]
      by_cases hlt : k < n
      · rw [if_pos hlt, if_pos (by omega)]
      · rw [if_neg hlt, if_neg (by omega)]

/-! ### Sticky flags (Table 15-14) -/

/-- A mark of R633 changes the marks of its register alone. -/
theorem State.markFresh_kept (a : Nat) (w : Word) {i : Nat} (hi : i < 256) : s.regsKept (s.markFresh a w i) [(Field.word a, i)] := by
  intro c j b hj hb
  refine ⟨rfl, ?_⟩
  by_cases hk : regKey c j = regKey a i
  · obtain ⟨rfl, rfl⟩ := regKey_inj hj hi hk
    by_cases hlt : b < 16
    · exact absurd ⟨_, List.mem_cons_self, rfl, rfl, Nat.zero_le b, by show b ≤ 15; omega⟩ hb
    · rw [BitVec.getLsbD_of_ge _ _ (by omega), BitVec.getLsbD_of_ge _ _ (by omega)]
  · exact congrArg (BitVec.getLsbD · b) (Cells.get_set_ne _ _ hk)

/-- The registers that sticky flags of engine `e` change. -/
def stickyWords (e : Nat) : List (Field × Nat) := [(F.FLT_EV_LOST_COUNT, 0), (Field.word R.AGT_STATUS, e)]

/-- Sticky flags of an engine change its AGT_STATUS, and the count of lost events. -/
theorem State.sticky_kept (he : e < 256) (mask : Nat) : s.regsKept (s.sticky e mask) (stickyWords e) := by
  have hstatus : ∀ x ∈ [(Field.word R.AGT_STATUS, e)], x ∈ stickyWords e := by simp [stickyWords]
  have hmark : ∀ w, s.regsKept (if mask = 0 then s else s.markFresh R.AGT_STATUS w e) (stickyWords e) := fun w => by
    split
    · exact State.regsKept_refl
    · exact State.regsKept_mono (State.markFresh_kept R.AGT_STATUS w he) hstatus
  unfold State.sticky
  dsimp only
  split
  · exact hmark _
  · exact State.regsKept_trans (hmark _) (State.regsKept_trans (State.regsKept_setReg he (hstatus _ List.mem_cons_self))
      (State.regsKept_raise List.mem_cons_self))

/-- A bit of AGT_STATUS[15:11], as the number of the sticky flags has it. -/
theorem testBit_stickies (w : Word) {b : Nat} (hb : b < 5) : (bits w.toNat 15 11).testBit b = w.getLsbD (11 + b) := by
  show (w.toNat / 2 ^ 11 % 2 ^ 5).testBit b = _
  rw [Nat.testBit_mod_two_pow, decide_eq_true hb, Bool.true_and, Nat.testBit_div_two_pow,
    Nat.add_comm]
  rfl

/-- A sticky flag of an engine sets. -/
theorem State.sticky_bit (he : e < 256) {mask b : Nat} (hb : b < 5) (hm : mask.testBit b = true) :
    ((s.sticky e mask).reg R.AGT_STATUS e).getLsbD (11 + b) = true := by
  have hne : regKey R.AGT_STATUS e ≠ regKey R.FLT_EV_LOST 0 := fun h =>
    absurd (regKey_inj he (by decide) h).1 (by decide)
  have hnew : (mask &&& (31 ^^^ bits (s.reg R.AGT_STATUS e).toNat 15 11)).testBit b =
      !(s.reg R.AGT_STATUS e).getLsbD (11 + b) := by
    rw [Nat.testBit_and, Nat.testBit_xor, testBit_stickies _ hb, show 31 = 2 ^ 5 - 1 from rfl, Nat.testBit_two_pow_sub_one,
      hm, decide_eq_true hb, Bool.true_and, Bool.true_xor]
  have hmark : ∀ w, (if mask = 0 then s else s.markFresh R.AGT_STATUS w e).reg R.AGT_STATUS e = s.reg R.AGT_STATUS e :=
    fun w => by split <;> rfl
  unfold State.sticky
  dsimp only
  generalize hn : mask &&& (31 ^^^ bits (s.reg R.AGT_STATUS e).toNat 15 11) = new at *
  split
  next h0 =>
    rw [h0, Nat.zero_testBit] at hnew
    rw [hmark, ← Bool.not_not ((s.reg R.AGT_STATUS e).getLsbD (11 + b)), ← hnew]
    rfl
  next =>
    rw [State.raise_reg _ _ _ _ hne, State.reg_setReg, BitVec.getLsbD_or, hmark, BitVec.getLsbD_ofNat,
      Nat.testBit_mul_two_pow, Nat.add_sub_cancel_left, hnew, decide_eq_true (by omega : 11 + b < 16),
      decide_eq_true (by omega : 11 ≤ 11 + b)]
    simp

/-- Sticky flags leave the engines. -/
theorem State.sticky_engine (e mask k : Nat) : (s.sticky e mask).engine k = s.engine k := by
  rw [State.sticky_frame]
  rfl

/-! ### AGT_GO (R501, R502) -/

/-- What AGT_GO leaves of engine `k`. -/
def State.goEngine (s : State) (start halt step k : Nat) : Engine :=
  let x := s.engine k
  let y := { x with waited := 0, since := 0, div := s.fld F.AGT_DIV_DIV_M1 k }
  if halt.testBit k then if x.run = .running then { x with run := .halting, since := 0, asking := true } else x
  else if x.run ≠ .halted then x
  else if start.testBit k then { y with run := .running }
  else if step.testBit k then { y with run := .stepping }
  else x

/-- START of a halted engine. -/
theorem State.goEngine_start (m : BitVec 4) (k : Nat) : s.goEngine m.toNat 0 0 k =
    if m.getLsbD k = true ∧ (s.engine k).run = .halted then
      { s.engine k with run := .running, waited := 0, since := 0, div := s.fld F.AGT_DIV_DIV_M1 k }
    else s.engine k := by
  unfold State.goEngine
  rw [Nat.zero_testBit, BitVec.testBit_toNat]
  cases m.getLsbD k <;> by_cases h : (s.engine k).run = .halted <;> simp [h]

/-- STEP of a halted engine. -/
theorem State.goEngine_step (m : BitVec 4) (k : Nat) : s.goEngine 0 0 m.toNat k =
    if m.getLsbD k = true ∧ (s.engine k).run = .halted then
      { s.engine k with run := .stepping, waited := 0, since := 0, div := s.fld F.AGT_DIV_DIV_M1 k }
    else s.engine k := by
  unfold State.goEngine
  rw [Nat.zero_testBit, BitVec.testBit_toNat]
  cases m.getLsbD k <;> by_cases h : (s.engine k).run = .halted <;> simp [h]

/-- HALT of a running engine. -/
theorem State.goEngine_halt (m : BitVec 4) (k : Nat) : s.goEngine 0 m.toNat 0 k =
    if m.getLsbD k = true ∧ (s.engine k).run = .running then
      { s.engine k with run := .halting, since := 0, asking := true }
    else s.engine k := by
  unfold State.goEngine
  rw [Nat.zero_testBit, BitVec.testBit_toNat]
  cases m.getLsbD k <;> by_cases h : (s.engine k).run = .running <;> simp [h]

/-- Engines beyond the mask keep what they are. -/
theorem ite_mask (m : BitVec 4) (k : Nat) (p : Prop) [Decidable p] {x y z : Engine}
    (h : x = if m.getLsbD k = true ∧ p then z else y) : (if k < 4 then x else y) = if m.getLsbD k = true ∧ p then z else y := by
  by_cases hk : k < 4
  · rw [if_pos hk, h]
  · rw [if_neg hk, if_neg fun hm => by simp [BitVec.getLsbD_of_ge m k (by omega)] at hm]

/-- AGT_GO changes engines alone, each by its own bits. -/
theorem State.agtGo_spec (start halt step : Nat) :
    s.agtGo start halt step = { s with agt := { s.agt with engines := (s.agtGo start halt step).agt.engines } } ∧
      ∀ k, (s.agtGo start halt step).engine k = if k < 4 then s.goEngine start halt step k else s.engine k := by
  refine State.engine_foldl (R := fun _ t => t = { s with agt := { s.agt with engines := t.agt.engines } }) rfl
    fun t e _ ht he => ?_
  have hput : ∀ x, (t.setEngine e x = { s with agt := { s.agt with engines := (t.setEngine e x).agt.engines } }) ∧
      ∀ k, (t.setEngine e x).engine k = if k = e then x else t.engine k := fun x =>
    ⟨by rw [ht]; rfl, State.engine_setEngine e x⟩
  have hkeep : t = { s with agt := { s.agt with engines := t.agt.engines } } ∧
      ∀ k, t.engine k = if k = e then s.engine e else t.engine k := ⟨ht, fun k => by
    by_cases h : k = e
    · rw [if_pos h, h, he]
    · rw [if_neg h]⟩
  have hdiv : t.fld F.AGT_DIV_DIV_M1 e = s.fld F.AGT_DIV_DIV_M1 e := by rw [ht]; rfl
  unfold State.goEngine
  dsimp only
  rw [he, hdiv]
  split_ifs
  · exact hput _
  · exact hkeep
  · exact hkeep
  · exact hput _
  · exact hput _
  · exact hkeep

/-- A write of AGT_GO by the port, where no fault of R502 refuses it. -/
theorem State.hostWrite_agtGo (h : s.live = true) (v m : Word) :
    s.hostWrite .port R.AGT_GO v m false =
      if s.goCheck (v &&& m) = Status.ok then
        s.agtGo (F.AGT_GO_START.of (v &&& m)) (F.AGT_GO_HALT.of (v &&& m)) (F.AGT_GO_STEP.of (v &&& m))
      else s := by
  rw [State.hostWrite_of_live h]
  show (ifOk s (s.goCheck (v &&& m)) _).2 = _
  unfold ifOk
  split <;> rfl

/-- The masks of AGT_GO, as START, HALT and STEP give them. -/
theorem goMasks : ∀ m : BitVec 4,
    (F.AGT_GO_START.of (m.setWidth 16 &&& 0x000F) = m.toNat ∧ F.AGT_GO_HALT.of (m.setWidth 16 &&& 0x000F) = 0 ∧
      F.AGT_GO_STEP.of (m.setWidth 16 &&& 0x000F) = 0) ∧
    (F.AGT_GO_START.of (m.setWidth 16 <<< 8 &&& 0x0F00) = 0 ∧ F.AGT_GO_HALT.of (m.setWidth 16 <<< 8 &&& 0x0F00) = 0 ∧
      F.AGT_GO_STEP.of (m.setWidth 16 <<< 8 &&& 0x0F00) = m.toNat) ∧
    (F.AGT_GO_START.of (m.setWidth 16 <<< 4 &&& 0x00F0) = 0 ∧ F.AGT_GO_HALT.of (m.setWidth 16 <<< 4 &&& 0x00F0) = m.toNat ∧
      F.AGT_GO_STEP.of (m.setWidth 16 <<< 4 &&& 0x00F0) = 0) ∧
    F.AGT_FORCE_HALT_FORCE.of (m.setWidth 16) = m.toNat := by
  decide

/-! ### AGT_FORCE_HALT (R518, R519) -/

/-- What a halt by force leaves of engine `k`. -/
def State.forcedEngine (s : State) (mask k : Nat) : Engine :=
  if mask.testBit k && (s.engine k).run != .halted then
    { s.engine k with
      run := .halted, why := .force, waiting := false, waited := 0, since := 0
      drives := if s.flag F.AGT_CFG_HALT_Z k then 0 else (s.engine k).drives
      values := if s.flag F.AGT_CFG_HALT_Z k then 0 else (s.engine k).values }
  else s.engine k

/-- A halt by force, by a mask of engines. -/
theorem State.forcedEngine_mask (m : BitVec 4) (k : Nat) : s.forcedEngine m.toNat k =
    if m.getLsbD k = true ∧ (s.engine k).run ≠ .halted then
      { s.engine k with
        run := .halted, why := .force, waiting := false, waited := 0, since := 0
        drives := if s.flag F.AGT_CFG_HALT_Z k then 0 else (s.engine k).drives
        values := if s.flag F.AGT_CFG_HALT_Z k then 0 else (s.engine k).values }
    else s.engine k := by
  unfold State.forcedEngine
  rw [BitVec.testBit_toNat]
  cases m.getLsbD k <;> by_cases h : (s.engine k).run = .halted <;> simp [h]

/-- A write of AGT_FORCE_HALT by the port, of present engines. -/
theorem State.portWrite_forceHalt (h : s.live = true) {m : BitVec 4} (hm : m.toNat < 2 ^ s.part.engines) :
    s.portWrite R.AGT_FORCE_HALT (m.setWidth 16) false = s.forceHalt m.toNat := by
  obtain ⟨-, -, -, hforce⟩ := goMasks m
  have hall : m.setWidth 16 &&& 0xFFFF = m.setWidth 16 := by
    rw [show (0xFFFF : Word) = BitVec.allOnes 16 from rfl, BitVec.and_allOnes]
  rw [State.portWrite_of_live h]
  show (ifOk s (if 2 ^ s.part.engines ≤ F.AGT_FORCE_HALT_FORCE.of (m.setWidth 16 &&& 0xFFFF) then Status.noUnit else Status.ok)
    (s.forceHalt (F.AGT_FORCE_HALT_FORCE.of (m.setWidth 16 &&& 0xFFFF)))).2 = _
  rw [hall, hforce, if_neg (Nat.not_le.2 hm)]
  rfl

/-- From `s` to `t` only engines, registers and the event log have changed. -/
def State.EnginesReport (s t : State) : Prop :=
  t = { s with regs := t.regs, fresh := t.fresh, flt := t.flt, agt := { s.agt with engines := t.agt.engines } }

theorem State.EnginesReport.trans {u : State} (h : s.EnginesReport t) (h' : t.EnginesReport u) : s.EnginesReport u := by
  unfold State.EnginesReport at *
  rw [h] at h'
  exact h'

theorem State.EnginesReport.mem (h : s.EnginesReport t) : t.mem = s.mem := by
  unfold State.EnginesReport at h
  rw [h]

/-- Sticky flags of an engine change registers and the event log. -/
theorem State.EnginesReport.sticky (e mask : Nat) : s.EnginesReport (s.sticky e mask) := by
  unfold State.EnginesReport
  rw [State.sticky_frame]

/-- The registers that a halt by force changes. -/
def forceWords : List (Field × Nat) := (F.FLT_EV_LOST_COUNT, 0) :: (List.range 4).map fun k => (Field.word R.AGT_STATUS, k)

/-- Engine `k` is halted by force at a locked row. -/
def State.breaksLock (s : State) (mask k : Nat) : Bool :=
  mask.testBit k && (s.engine k).run != .halted && rowLock (s.peekRow k (s.engine k).pc.toNat)

/-- `t` is `s` with engines before `n` halted by force. -/
structure State.ForcedTo (s : State) (mask n : Nat) (t : State) : Prop where
  frame : s.EnginesReport t
  kept : s.regsKept t forceWords
  broken : ∀ k < n, s.breaksLock mask k = true → (t.reg R.AGT_STATUS k).getLsbD 12 = true

/-- One engine halted by force. -/
theorem State.ForcedTo.step {mask : Nat} (h : s.ForcedTo mask e t) (he4 : e < 4) (he : t.engine e = s.engine e) {u : State}
    (hu : (if mask.testBit e && (t.engine e).run != .halted then
      if rowLock (t.peekRow e (t.engine e).pc.toNat) then (t.haltEngine e .force).sticky e stickyLock
      else t.haltEngine e .force else t) = u) :
    s.ForcedTo mask (e + 1) u ∧ ∀ k, u.engine k = if k = e then s.forcedEngine mask e else t.engine k := by
  obtain ⟨hframe, hkept, hbroken⟩ := h
  have hz : t.flag F.AGT_CFG_HALT_Z e = s.flag F.AGT_CFG_HALT_Z e := hkept.flag_apart ⟨by omega, fun x hx ha =>
    absurd ha ((by decide : ∀ x ∈ forceWords, x.1.addr ≠ F.AGT_CFG_HALT_Z.addr) x hx)⟩
  have hrow : t.peekRow e (s.engine e).pc.toNat = s.peekRow e (s.engine e).pc.toNat := by
    unfold State.peekRow
    rw [hframe.mem]
  rw [he, hrow] at hu
  have hhalt : (mask.testBit e && (s.engine e).run != .halted) = true →
      t.haltEngine e .force = t.setEngine e (s.forcedEngine mask e) := fun hgo => by
    unfold State.haltEngine State.forcedEngine
    rw [if_pos hgo, he, hz]
  have hput : t.EnginesReport (t.setEngine e (s.forcedEngine mask e)) := rfl
  by_cases hgo : (mask.testBit e && (s.engine e).run != .halted) = true
  · rw [if_pos hgo, hhalt hgo] at hu
    by_cases hl : rowLock (s.peekRow e (s.engine e).pc.toNat) = true
    · rw [if_pos hl] at hu
      have hstick := State.sticky_kept (s := t.setEngine e (s.forcedEngine mask e)) (e := e) (by omega) stickyLock
      have hbit := State.sticky_bit (s := t.setEngine e (s.forcedEngine mask e)) (e := e) (mask := stickyLock) (b := 1)
        (by omega) (by decide) (by decide)
      have hsf := State.EnginesReport.sticky (s := t.setEngine e (s.forcedEngine mask e)) e stickyLock
      have hse := fun k => (State.sticky_engine (s := t.setEngine e (s.forcedEngine mask e)) e stickyLock k).trans
        (State.engine_setEngine e (s.forcedEngine mask e) k)
      rw [hu] at hstick hbit hsf
      simp only [hu] at hse
      refine ⟨⟨hframe.trans (hput.trans hsf), ?_, fun k hk hb => ?_⟩, hse⟩
      · exact State.regsKept_trans hkept (State.regsKept_mono (s := t) (t := u) hstick (by
          simp only [stickyWords, forceWords, List.forall_mem_cons, List.not_mem_nil, false_implies, implies_true, and_true]
          exact ⟨List.mem_cons_self, List.mem_cons_of_mem _ (List.mem_map.2 ⟨e, List.mem_range.2 he4, rfl⟩)⟩))
      · by_cases hke : k = e
        · rw [hke]
          exact hbit
        · have hsame : u.reg R.AGT_STATUS k = t.reg R.AGT_STATUS k := State.regsKept.reg_eq (s := t) hstick (by omega) (by
            simp only [stickyWords, List.forall_mem_cons, List.not_mem_nil, false_implies, implies_true, and_true]
            exact ⟨fun h => absurd h (by decide), fun _ h => hke h.symm⟩)
          rw [hsame]
          exact hbroken k (by omega) hb
    · rw [if_neg hl] at hu
      subst hu
      refine ⟨⟨hframe.trans hput, hkept, fun k hk hb => ?_⟩, State.engine_setEngine e _⟩
      by_cases hke : k = e
      · rw [State.breaksLock, hke] at hb
        simp [hl] at hb
      · exact hbroken k (by omega) hb
  · rw [if_neg hgo] at hu
    subst hu
    refine ⟨⟨hframe, hkept, fun k hk hb => ?_⟩, fun k => ?_⟩
    · by_cases hke : k = e
      · rw [State.breaksLock, hke, Bool.and_eq_true] at hb
        exact absurd hb.1 hgo
      · exact hbroken k (by omega) hb
    · by_cases hke : k = e
      · rw [if_pos hke, State.forcedEngine, if_neg hgo, hke, he]
      · rw [if_neg hke]

/-- A halt by force halts its engines, and breaks locks (R518). -/
theorem State.forceHalt_spec (mask : Nat) : s.ForcedTo mask 4 (s.forceHalt mask) ∧
    ∀ k, (s.forceHalt mask).engine k = if k < 4 then s.forcedEngine mask k else s.engine k :=
  State.engine_foldl (R := s.ForcedTo mask) ⟨rfl, State.regsKept_refl, fun k hk => absurd hk (Nat.not_lt_zero k)⟩
    fun _ _ hlt h he => h.step hlt he rfl

/-! ### AGT_SEL, AGT_INJECT and AGT_FIFO (R520, R521) -/

/-- A window register of a present engine is written at the engine that AGT_SEL names. -/
theorem State.portWrite_window (h : s.live = true) (he : s.fld F.AGT_SEL_ENGINE < s.part.engines) (v : Word) :
    s.portWrite R.AGT_INJECT v false = s.injectPart (s.fld F.AGT_SEL_ENGINE) v ∧
      s.portWrite R.AGT_FIFO v false = s.fifoPush (s.fld F.AGT_SEL_ENGINE) v := by
  have hpart : ∀ a, 0xD1 ≤ a ∧ a ≤ 0xD9 → instPresent s.part a (s.fld F.AGT_SEL_ENGINE) = true := fun a ha => by
    unfold instPresent
    rw [if_neg (by simp only [R.QR_COL_START, R.QR_COL_COUNT, R.QR_STATUS]; omega),
      if_neg (by simp only [R.TMP_BAND, R.TMP_BLK, R.MEM_SCRUB_RATE]; omega), if_pos ha]
    exact decide_eq_true he
  constructor
  · rw [State.portWrite_of_live h]
    show (s.writeThrough R.AGT_INJECT (s.fld F.AGT_SEL_ENGINE) v 0xFFFF false).2 = _
    unfold State.writeThrough
    rw [if_neg (by simp [hpart R.AGT_INJECT (by decide)])]
    show s.injectPart _ (v &&& 0xFFFF) = _
    rw [show (0xFFFF : Word) = BitVec.allOnes 16 from rfl, BitVec.and_allOnes]
  · rw [State.portWrite_of_live h]
    show (s.writeThrough R.AGT_FIFO (s.fld F.AGT_SEL_ENGINE) v 0xFFFF false).2 = _
    unfold State.writeThrough
    rw [if_neg (by simp [hpart R.AGT_FIFO (by decide)])]
    show s.fifoPush _ (merge (s.view .port R.AGT_FIFO _) v 0xFFFF) = _
    rw [merge_full]

/-- A pop of the FIFO by the port. -/
theorem State.portRead_fifo (h : s.live = true) (hv : s.pwr.rails.vcore = true)
    (he : s.fld F.AGT_SEL_ENGINE < s.part.engines) :
    s.portRead R.AGT_FIFO = (s.fifoPop (s.fld F.AGT_SEL_ENGINE)).2 := by
  obtain ⟨hup, hdue, hmute⟩ := State.live_iff.1 h
  have hopen : s.readOpen = true := by simp [State.readOpen, hup, hmute]
  have hawake : s.pwr.state ≠ .dormant := by
    intro h
    simp [State.up, h] at hup
  rw [State.portRead, if_pos hopen, State.dueApply_of hdue, State.hostRead, if_neg (by simp [hv, hawake])]
  show s.readEffect R.AGT_FIFO (s.fld F.AGT_SEL_ENGINE) = _
  unfold State.readEffect
  have hpart : instPresent s.part R.AGT_FIFO (s.fld F.AGT_SEL_ENGINE) = true := decide_eq_true he
  rw [if_neg (by simp [hpart])]
  rfl

/-- A write of AGT_SEL stores every bit by its access code. -/
theorem State.getLsbD_storeSel (v : Word) {b : Nat} (hb : b < 16) :
    ((s.storeReg R.AGT_SEL 0 v 0xFFFF).reg R.AGT_SEL).getLsbD b = s.storedBit R.AGT_SEL v 0xFFFF b := by
  have hw1c : accessMask R.AGT_SEL .w1c = 0 := by decide
  have hlimit : ∀ w, limitWord R.AGT_SEL w = w := fun w => by
    rw [limitWord, (by decide : (Machine.limits.filter fun x => x.field.addr = R.AGT_SEL) = [])]
    rfl
  rw [State.storeReg, State.reg_setReg, hlimit, getLsbD_storedAfter _ _ _ _ hb]
  unfold State.reaches State.storedBit
  rw [hw1c]
  simp only [BitVec.getLsbD_and, BitVec.getLsbD_not, hb, decide_true, Bool.true_and]
  cases (accessMask R.AGT_SEL .rw).getLsbD b <;> cases (0xFFFF : Word).getLsbD b <;> simp

/-- Held parts cleared, engine by engine. -/
theorem State.clearParts_engine (k : Nat) : s.clearParts.engine k = { s.engine k with parts := [] } :=
  Cells.get_mapEntries (fun _ => rfl) s.agt.engines k

/-- A sticky flag of the FIFO of a present engine sets. -/
theorem State.sticky_fifo (he : e < 256) {mask b : Nat} (hb : b < 5) (hm : mask.testBit b = true) :
    s.sticky e mask = { s with
        regs := (s.sticky e mask).regs, fresh := (s.sticky e mask).fresh, flt := (s.sticky e mask).flt } ∧
      ((s.sticky e mask).reg R.AGT_STATUS e).getLsbD (11 + b) = true ∧ s.regsKept (s.sticky e mask) (stickyWords e) :=
  ⟨State.sticky_frame e mask, State.sticky_bit he hb hm, State.sticky_kept he mask⟩

/-- A mask within the present engines is in range. -/
theorem State.goCheck_ok {v : Word} (h : max (max (F.AGT_GO_START.of v) (F.AGT_GO_STEP.of v)) (F.AGT_GO_HALT.of v) < 2 ^ s.part.engines)
    (ha : (F.AGT_GO_START.of v = 0 ∧ F.AGT_GO_STEP.of v = 0) ∨ s.analog = true) : s.goCheck v = Status.ok := by
  unfold State.goCheck
  dsimp only
  rw [if_neg (by omega), if_neg]
  rintro ⟨hne, hoff⟩
  rcases ha with ⟨h1, h2⟩ | ha
  · omega
  · rw [hoff] at ha
    exact absurd ha (by decide)

/-- AGT_GO with no bit set does nothing. -/
theorem State.agtGo_zero : s.agtGo 0 0 0 = s := by
  refine List.foldl_fixed' (fun e => ?_) _
  dsimp only
  rw [Nat.zero_testBit, if_neg Bool.false_ne_true, if_neg Bool.false_ne_true, if_neg Bool.false_ne_true, ite_self]

/-- Without the analogue units nothing starts. -/
theorem State.hostWrite_agtGo_off (h : s.live = true) (hoff : s.analog = false) {v m : Word}
    (hhalt : F.AGT_GO_HALT.of (v &&& m) = 0) : s.hostWrite .port R.AGT_GO v m false = s := by
  rw [State.hostWrite_agtGo h]
  split
  next hok =>
    have hzero : F.AGT_GO_START.of (v &&& m) = 0 ∧ F.AGT_GO_STEP.of (v &&& m) = 0 := by
      unfold State.goCheck at hok
      by_contra hne
      rw [hoff] at hok
      dsimp only at hok
      split at hok
      · exact absurd hok (by decide)
      · rw [if_pos ⟨by omega, rfl⟩] at hok
        exact absurd hok (by decide)
    rw [hhalt, hzero.1, hzero.2]
    exact State.agtGo_zero
  next => rfl

/-- Settles O53. -/
theorem enginesObey : Obligations.EnginesObey := by
  unfold Obligations.EnginesObey
  intro s hlive e x
  have he8 : e < 256 := Nat.lt_of_lt_of_le (s.fld_lt F.AGT_SEL_ENGINE 0) (by decide)
  refine ⟨fun m hm => ⟨fun han c run hc => ?_, ?_, ?_⟩, fun hoff m => ?_, fun v => ⟨?_, fun he => ⟨fun hlen => ?_,
    fun a b c habc => ?_, fun hlen => ?_, fun hlen => ?_⟩⟩, fun he hv => ⟨fun w ws hw => ?_, fun hw => ?_⟩⟩
  · obtain ⟨⟨hs1, hs2, hs3⟩, ⟨hp1, hp2, hp3⟩, -⟩ := goMasks m
    rcases hc with ⟨rfl, rfl⟩ | ⟨rfl, rfl⟩
    · have hgo : s.hostWrite .port R.AGT_GO (m.setWidth 16) 0x000F false = s.agtGo m.toNat 0 0 := by
        rw [State.hostWrite_agtGo hlive, if_pos (State.goCheck_ok (by rw [hs1, hs2, hs3]; omega) (Or.inr han)), hs1, hs2, hs3]
      obtain ⟨hframe, hk⟩ := s.agtGo_spec m.toNat 0 0
      exact ⟨_, congrArg Host.Outcome.next hgo, hframe, fun k => (hk k).trans (ite_mask m k _ (s.goEngine_start m k))⟩
    · have hgo : s.hostWrite .port R.AGT_GO (m.setWidth 16 <<< 8) 0x0F00 false = s.agtGo 0 0 m.toNat := by
        rw [State.hostWrite_agtGo hlive, if_pos (State.goCheck_ok (by rw [hp1, hp2, hp3]; omega) (Or.inr han)), hp1, hp2, hp3]
      obtain ⟨hframe, hk⟩ := s.agtGo_spec 0 0 m.toNat
      exact ⟨_, congrArg Host.Outcome.next hgo, hframe, fun k => (hk k).trans (ite_mask m k _ (s.goEngine_step m k))⟩
  · obtain ⟨-, -, ⟨hh1, hh2, hh3⟩, -⟩ := goMasks m
    have hgo : s.hostWrite .port R.AGT_GO (m.setWidth 16 <<< 4) 0x00F0 false = s.agtGo 0 m.toNat 0 := by
      rw [State.hostWrite_agtGo hlive, if_pos (State.goCheck_ok (by rw [hh1, hh2, hh3]; omega) (Or.inl ⟨hh1, hh3⟩)), hh1, hh2, hh3]
    obtain ⟨hframe, hk⟩ := s.agtGo_spec 0 m.toNat 0
    exact ⟨_, congrArg Host.Outcome.next hgo, hframe, fun k => (hk k).trans (ite_mask m k _ (s.goEngine_halt m k))⟩
  · obtain ⟨⟨hframe, hkept, hbroken⟩, hk⟩ := s.forceHalt_spec m.toNat
    refine ⟨_, congrArg Host.Outcome.next (State.portWrite_forceHalt hlive hm), hframe, hkept, fun k =>
      ⟨(hk k).trans (ite_mask m k _ (s.forcedEngine_mask m k)), fun hm hrun hlock => ?_⟩⟩
    have hk4 : k < 4 := by
      by_contra hk4
      simp [BitVec.getLsbD_of_ge m k (by omega)] at hm
    refine hbroken k hk4 ?_
    unfold State.breaksLock
    rw [BitVec.testBit_toNat]
    simp [hm, hrun, hlock]
  · obtain ⟨⟨-, hs2, -⟩, ⟨-, hp2, -⟩, -⟩ := goMasks m
    exact ⟨congrArg Host.Outcome.next (State.hostWrite_agtGo_off hlive hoff hs2),
      congrArg Host.Outcome.next (State.hostWrite_agtGo_off hlive hoff hp2)⟩
  · have hwrite : s.portWrite R.AGT_SEL v false = (s.storeReg R.AGT_SEL 0 v 0xFFFF).clearParts := State.portWrite_of_live hlive ..
    refine ⟨_, congrArg Host.Outcome.next hwrite, rfl, fun b hb => ?_, State.storeReg_kept R.AGT_SEL (by decide) v 0xFFFF,
      fun k => State.clearParts_engine k⟩
    exact State.getLsbD_storeSel v hb
  · have hpart : s.injectPart e v = s.setEngine e { x with parts := x.parts ++ [v] } := by
      unfold State.injectPart
      dsimp only
      split
      next h => rw [show x.parts = _ from h] at hlen; exact absurd hlen (by simp)
      next => rfl
    exact ⟨_, congrArg Host.Outcome.next ((State.portWrite_window hlive he v).1.trans hpart), State.setEngine_becomes ..⟩
  · have hpart : s.injectPart e v = s.setEngine e { x with parts := [], injected := some (a ++ b ++ c ++ v) } := by
      unfold State.injectPart
      dsimp only
      rw [show (s.engine e).parts = [a, b, c] from habc]
    exact ⟨_, congrArg Host.Outcome.next ((State.portWrite_window hlive he v).1.trans hpart), State.setEngine_becomes ..⟩
  · have hpush : s.fifoPush e v = s.setEngine e { x with fifo := x.fifo ++ [v] } := if_neg (Nat.not_le.2 hlen)
    exact ⟨_, congrArg Host.Outcome.next ((State.portWrite_window hlive he v).2.trans hpush), State.setEngine_becomes ..⟩
  · have hpush : s.fifoPush e v = s.sticky e stickyOver := if_pos hlen
    exact ⟨_, congrArg Host.Outcome.next ((State.portWrite_window hlive he v).2.trans hpush),
      State.sticky_fifo (b := 3) he8 (by decide) (by decide)⟩
  · have hpop : (s.fifoPop e).2 = s.setEngine e { x with fifo := ws } := by
      unfold State.fifoPop
      dsimp only
      rw [show (s.engine e).fifo = w :: ws from hw]
    exact ⟨_, congrArg Host.Outcome.next ((State.portRead_fifo hlive hv he).trans hpop), State.setEngine_becomes ..⟩
  · have hpop : (s.fifoPop e).2 = s.sticky e stickyUnder := by
      unfold State.fifoPop
      dsimp only
      rw [show (s.engine e).fifo = [] from hw]
    exact ⟨_, congrArg Host.Outcome.next ((State.portRead_fifo hlive hv he).trans hpop),
      State.sticky_fifo (b := 4) he8 (by decide) (by decide)⟩

end Sys2Proof.Machine
end

section
/-! PROOF.
Reads of words whose codes are right.
-/
namespace Sys2Proof.Machine

variable {s : State}

/-- A range of cells has the length asked for. -/
theorem Cells.length_getRange {β : Type} (d : β) (m : Cells β) : ∀ n k, (Cells.getRange d m k n).length = n
  | 0, _ => rfl
  | n + 1, k => congrArg (· + 1) (Cells.length_getRange d m n (k + 1))

/-- A word reads as four bytes, or sixteen in the Slate. -/
theorem Memory.plainWord_length (m : Memory) (w : WordAddr) : (m.plainWord w).length = wordSize w.store := by
  have hle : wordSize w.store ≤ rawSize w.store := by
    unfold wordSize rawSize
    split <;> decide
  unfold Memory.plainWord Memory.raw
  split
  · rw [List.length_take, Cells.length_getRange, Nat.min_eq_left hle]
  · rw [List.length_replicate]

/-- A word without an error reads as its bytes, or as zeros, and nothing changes (R564, R572). -/
theorem State.readWord_plain {w : WordAddr} (h : s.wordClean w) (rd : Reader) (inspect : Bool) :
    s.readWord rd inspect w = (some ⟨s.mem.plainWord w, false, 0, 0⟩, s) := by
  unfold Memory.plainWord
  cases hv : s.mem.isValid w with
  | true => exact State.readWord_clean hv h rd inspect
  | false => exact State.readWord_invalid hv rd inspect

/-- The bytes of `n` consecutive words. -/
def Memory.plainWords (m : Memory) (id : Nat) (bank : Bool) (k : Nat) : Nat → List Byte
  | 0 => []
  | n + 1 => m.plainWord ⟨id, bank, k⟩ ++ m.plainWords id bank (k + 1) n

/-- Words without an error read as their bytes, and nothing changes. -/
theorem State.readWords_plain (rd : Reader) (inspect : Bool) (id : Nat) (bank : Bool) :
    ∀ (n k : Nat), (∀ j < n, s.wordClean ⟨id, bank, k + j⟩) →
      s.readWords rd inspect id bank k n = (some (s.mem.plainWords id bank k n, false), s)
  | 0, _, _ => rfl
  | n + 1, k, h => by
    have hrest := State.readWords_plain rd inspect id bank n (k + 1) fun j hj => by
      rw [show k + 1 + j = k + (j + 1) by omega]
      exact h (j + 1) (by omega)
    unfold State.readWords
    have hfirst : s.wordClean ⟨id, bank, k⟩ := h 0 (by omega)
    rw [State.readWord_plain hfirst rd inspect]
    dsimp only
    rw [hrest]
    rfl

/-- A range of words without an error reads as its bytes, and nothing changes. -/
theorem State.readBytes_plain (rd : Reader) (inspect : Bool) (id : Nat) (bank : Bool) {off len n : Nat}
    (hn : n = if len = 0 then 0 else (off + len - 1) / wordSize id + 1 - off / wordSize id)
    (h : ∀ j < n, s.wordClean ⟨id, bank, off / wordSize id + j⟩) :
    s.readBytes rd inspect id bank off len =
      (some (((s.mem.plainWords id bank (off / wordSize id) n).drop (off - off / wordSize id * wordSize id)).take len, false), s) := by
  have hread := State.readWords_plain rd inspect id bank n (off / wordSize id) h
  unfold State.readBytes
  dsimp only
  rw [← hn, hread]

/-- The row at PC of an engine, where its words are without an error (R504). -/
theorem State.readRow_plain {e : Nat} (h : s.wordClean ⟨Store.agate, false, 64 * e + 2 * (s.engine e).pc.toNat⟩)
    (h' : s.wordClean ⟨Store.agate, false, 64 * e + 2 * (s.engine e).pc.toNat + 1⟩) :
    s.readRow e = (some (s.peekRow e (s.engine e).pc.toNat), s) := by
  have hk : (0x100 * e + 8 * (s.engine e).pc.toNat) / wordSize Store.agate = 64 * e + 2 * (s.engine e).pc.toNat := by
    show _ / 4 = _
    omega
  have hread := State.readBytes_plain (s := s) .engine false Store.agate false (off := 0x100 * e + 8 * (s.engine e).pc.toNat)
    (len := 8) (n := 2) (by
      rw [hk, if_neg (by decide)]
      show 2 = _ / 4 + 1 - _
      omega) (fun j hj => by
      rw [hk]
      interval_cases j
      · exact h
      · exact h')
  rw [hk] at hread
  have hbytes : ((s.mem.plainWords Store.agate false (64 * e + 2 * (s.engine e).pc.toNat) 2).drop
      (0x100 * e + 8 * (s.engine e).pc.toNat - (64 * e + 2 * (s.engine e).pc.toNat) * wordSize Store.agate)).take 8 =
      s.mem.plainWord ⟨Store.agate, false, 64 * e + 2 * (s.engine e).pc.toNat⟩ ++
        s.mem.plainWord ⟨Store.agate, false, 64 * e + 2 * (s.engine e).pc.toNat + 1⟩ := by
    rw [show 0x100 * e + 8 * (s.engine e).pc.toNat - (64 * e + 2 * (s.engine e).pc.toNat) * wordSize Store.agate = 0 by
      show _ - _ * 4 = 0
      omega, List.drop_zero]
    refine List.take_of_length_le ?_ |>.trans (by simp [Memory.plainWords])
    simp [Memory.plainWords, Memory.plainWord_length, wordSize, Store.agate, Store.slate]
  rw [hbytes] at hread
  unfold State.readRow State.peekRow
  rw [hread, show (0x100 * e + 8 * (s.engine e).pc.toNat) / 4 = 64 * e + 2 * (s.engine e).pc.toNat by omega]

end Sys2Proof.Machine
end

section
/-! PROOF.
The cycle ticks of the Agate engines: rows that execute, wait, or reach their limit, halts, and injected rows.
-/
namespace Sys2Proof.Machine

variable {s t : State} {e : Nat} {r : Row}

/-! ### One row executed (R509 to R513) -/

/-- What a row's actions leave of engine `e`. -/
def State.acted (s : State) (e : Nat) (r : Row) : Engine :=
  let x := s.engine e
  let y := (x.act r (s.fld F.AGT_CFG_SRPIN e) s.levels).1
  { y with flagged := x.flagged || y.flags != x.flags, shifted := x.shifted || y.sr != x.sr }

/-- `t` is `s` after the actions of the row `r` of engine `e`, which is then `y`. -/
def State.Acts (s : State) (e : Nat) (r : Row) (t : State) (y : Engine) : Prop :=
  t = { s with
    regs := t.regs, fresh := t.fresh, flt := t.flt
    agt := { s.agt with
      engines := t.agt.engines, raised := s.agt.raised ||| (BitVec.ofNat 64 (rowBits r 22 21) <<< (40 + 2 * e)) } } ∧
  s.regsKept t (stickyWords e) ∧ ∀ j, t.engine j = if j = e then y else s.engine j

/-- Without the trace an engine writes no entry. -/
theorem State.trace_off {b : List Byte} (h : s.flag F.AGT_CFG_TRACE e = false) : s.trace e b = s := by
  unfold State.trace
  rw [h]
  rfl

/-- The engine after a row: as its actions leave it, with the next row in `pc`, or with no injected row left. -/
def State.executed (s : State) (e : Nat) (r : Row) (inj tmo : Bool) : Engine :=
  if inj then { s.acted e r with injected := none }
  else { s.acted e r with
    pc := (s.nextRow e r s.levels tmo).2, waiting := false, waited := 0, since := (s.engine e).since + 1 }

/-- The sticky flags that a row sets. -/
def State.rowFlags (s : State) (e : Nat) (r : Row) (tmo : Bool) : Nat :=
  ((s.engine e).act r (s.fld F.AGT_CFG_SRPIN e) s.levels).2 +
    (if (List.range 8).any fun n => rowActsOn r (s.fld F.AGT_CFG_SRPIN e) n && !s.permitted e n then stickyPin else 0) +
    if tmo then stickyTmo else 0

/-- The state in which a row's events are raised. -/
def State.rowRaised (s : State) (e : Nat) (r : Row) (y : Engine) : State :=
  { s.setEngine e y with agt := { (s.setEngine e y).agt with
      raised := s.agt.raised ||| (BitVec.ofNat 64 (rowBits r 22 21) <<< (40 + 2 * e)) } }

/-- A row executes: its engine, its events and its sticky flags. -/
theorem State.executeRow_eq (htrace : s.flag F.AGT_CFG_TRACE e = false) (he : e < 256) (inj tmo : Bool) :
    s.executeRow e r s.levels inj tmo = (s.rowRaised e r (s.executed e r inj tmo)).sticky e (s.rowFlags e r tmo) := by
  have hflag : ((s.rowRaised e r (s.executed e r inj tmo)).sticky e (s.rowFlags e r tmo)).flag F.AGT_CFG_TRACE e = false :=
    ((State.sticky_kept he _).flag_apart (s := s.rowRaised e r (s.executed e r inj tmo)) ⟨he, fun x hx ha =>
      absurd ha (by
        revert x
        simp only [stickyWords, List.forall_mem_cons, List.not_mem_nil, false_implies, implies_true, and_true]
        exact ⟨by decide, fun h => absurd h (by decide)⟩)⟩).trans htrace
  have hrow : s.executeRow e r s.levels inj tmo =
      ((s.rowRaised e r (s.executed e r inj tmo)).sticky e (s.rowFlags e r tmo)).trace e
        (bytesBE 4 (((s.rowRaised e r (s.executed e r inj tmo)).sticky e (s.rowFlags e r tmo)).timeBits 32) ++
          [BitVec.ofNat 8 (64 * e + 32 * bit inj + (s.engine e).pc.toNat),
            BitVec.ofNat 8 (128 * bit tmo + 64 * bit (rowLock r && !inj) +
              (if inj then (3, (s.engine e).pc) else s.nextRow e r s.levels tmo).1), s.levels, (s.acted e r).flags]) := by
    cases inj <;> rfl
  rw [hrow, State.trace_off hflag]

/-- A row executes. -/
theorem State.executeRow_acts (htrace : s.flag F.AGT_CFG_TRACE e = false) (he : e < 256) (inj tmo : Bool) :
    s.Acts e r (s.executeRow e r s.levels inj tmo) (s.executed e r inj tmo) := by
  rw [State.executeRow_eq htrace he]
  have hframe := State.sticky_frame (s := s.rowRaised e r (s.executed e r inj tmo)) e (s.rowFlags e r tmo)
  refine ⟨?_, State.sticky_kept (s := s.rowRaised e r (s.executed e r inj tmo)) he _, fun j =>
    (State.sticky_engine e _ j).trans (State.engine_setEngine e _ j)⟩
  generalize (s.rowRaised e r (s.executed e r inj tmo)).sticky e (s.rowFlags e r tmo) = u at *
  rw [hframe]
  rfl

/-- The actions of a row leave its engine's run state, and its flags of the FIFO are above the flag of its limit. -/
theorem Engine.act_spec (x : Engine) (r : Row) (srpin : Nat) (levels : Byte) :
    (x.act r srpin levels).1.run = x.run ∧ (x.act r srpin levels).2 % 8 = 0 := by
  refine ⟨rfl, ?_⟩
  unfold Engine.act
  dsimp only
  split_ifs <;> decide

/-- A row executed by its limit sets WAIT_TMO (R507). -/
theorem State.rowFlags_tmo : (s.rowFlags e r true).testBit 0 = true := by
  obtain ⟨-, h8⟩ := (s.engine e).act_spec r (s.fld F.AGT_CFG_SRPIN e) s.levels
  unfold State.rowFlags
  rw [if_pos rfl, Nat.testBit_zero, decide_eq_true_eq]
  simp only [stickyPin, stickyTmo]
  split <;> omega

/-- A row executed by its limit sets WAIT_TMO in AGT_STATUS. -/
theorem State.executeRow_tmo (htrace : s.flag F.AGT_CFG_TRACE e = false) (he : e < 256) :
    ((s.executeRow e r s.levels false true).reg R.AGT_STATUS e).getLsbD 11 = true := by
  rw [State.executeRow_eq htrace he]
  exact State.sticky_bit (b := 0) he (by decide) State.rowFlags_tmo

/-! ### The cycle tick (R503, R506) -/

/-- A cycle begins after a row: its divider is the one in force. -/
theorem State.Acts.newCycle {y : Engine} (h : s.Acts e r t y) (he : e < 256) :
    s.Acts e r (t.newCycle e) { y with div := s.fld F.AGT_DIV_DIV_M1 e } := by
  obtain ⟨hframe, hkept, hengine⟩ := h
  have hdiv : t.fld F.AGT_DIV_DIV_M1 e = s.fld F.AGT_DIV_DIV_M1 e := hkept.fld_apart ⟨he, fun x hx ha => absurd ha (by
    revert x
    simp only [stickyWords, List.forall_mem_cons, List.not_mem_nil, false_implies, implies_true, and_true]
    exact ⟨by decide, fun h => absurd h (by decide)⟩)⟩
  have hy : t.engine e = y := (hengine e).trans (if_pos rfl)
  unfold State.newCycle
  rw [hdiv, hy]
  refine ⟨?_, hkept, fun j => (State.engine_setEngine e _ j).trans ?_⟩
  · generalize hx : ({ y with div := s.fld F.AGT_DIV_DIV_M1 e } : Engine) = x
    rw [hframe]
    rfl
  · by_cases hj : j = e
    · rw [if_pos hj, if_pos hj]
    · rw [if_neg hj, if_neg hj, hengine j, if_neg hj]

/-- A cycle begins after an engine has changed. -/
theorem State.engineBecomes.newCycle {y : Engine} (h : s.engineBecomes t e y) :
    s.engineBecomes (t.newCycle e) e { y with div := s.fld F.AGT_DIV_DIV_M1 e } := by
  obtain ⟨hframe, hengine⟩ := h
  have hdiv : t.fld F.AGT_DIV_DIV_M1 e = s.fld F.AGT_DIV_DIV_M1 e := by rw [hframe]; rfl
  have hy : t.engine e = y := (hengine e).trans (if_pos rfl)
  unfold State.newCycle
  rw [hdiv, hy]
  refine ⟨?_, fun j => (State.engine_setEngine e _ j).trans ?_⟩
  · generalize hx : ({ y with div := s.fld F.AGT_DIV_DIV_M1 e } : Engine) = x
    rw [hframe]
    rfl
  · by_cases hj : j = e
    · rw [if_pos hj, if_pos hj]
    · rw [if_neg hj, if_neg hj, hengine j, if_neg hj]

/-- The row at PC, where it is enabled, is the row that a slot uses (R30). -/
theorem State.rowFrom_enabled {pc : BitVec 5} (h : s.rowOff (s.peekRow e pc.toNat) = false) (n : Nat) :
    s.rowFrom e pc (n + 1) = pc := by
  unfold State.rowFrom
  rw [h]
  rfl

/-- The cycle tick of an engine that is not halted, at an enabled row read without an error. -/
theorem State.engineCycle_eq (ha : s.analog = true) (he : e < s.part.engines) (hrun : (s.engine e).run ≠ .halted)
    (hoff : s.rowOff (s.peekRow e (s.engine e).pc.toNat) = false)
    (h : s.wordClean ⟨Store.agate, false, 64 * e + 2 * (s.engine e).pc.toNat⟩)
    (h' : s.wordClean ⟨Store.agate, false, 64 * e + 2 * (s.engine e).pc.toNat + 1⟩) (expired : Bool) :
    s.engineCycle e expired = (s.useCycle e (s.peekRow e (s.engine e).pc.toNat) expired).newCycle e := by
  have hskip : s.skipRows e = s := by
    unfold State.skipRows
    dsimp only
    rw [State.rowFrom_enabled hoff]
    exact if_pos rfl
  unfold State.engineCycle
  rw [if_neg (by simp [ha, hrun, he]), hskip, State.readRow_plain h h']

/-- A running engine gives its cycle tick to the row at PC. -/
theorem State.useCycle_running (hinj : (s.engine e).injected = none) (hrun : (s.engine e).run = .running)
    (hoff : s.rowOff r = false) (expired : Bool) :
    s.useCycle e r expired = (s.slot e r s.levels expired).stepDone e := by
  unfold State.useCycle
  dsimp only
  rw [hinj, hrun]
  dsimp only
  rw [if_neg (by simp), if_neg (by simp), if_neg (by simp [hoff])]

/-- An engine that does not step goes on after its row. -/
theorem State.stepDone_of_running {x : Engine} (h : t.engine e = x) (hrun : x.run = .running) : t.stepDone e = t := by
  unfold State.stepDone
  rw [h, hrun]
  rfl

/-- A row whose wait is satisfied executes. -/
theorem State.slot_satisfied (h : s.satisfied e r s.levels = true) (expired : Bool) :
    s.slot e r s.levels expired = s.executeRow e r s.levels false false := by
  unfold State.slot
  dsimp only
  rw [if_pos h]

/-- A row that waits within its limit counts the cycle. -/
theorem State.slot_waiting (h : s.satisfied e r s.levels = false) (hl : rowLimit r = 0 ∨ (s.engine e).waited < rowLimit r) :
    s.slot e r s.levels false = s.setEngine e { s.engine e with waiting := true, waited := (s.engine e).waited + 1 } := by
  unfold State.slot
  dsimp only
  rw [if_neg (by simp [h]), if_neg]
  simp only [Bool.false_or, decide_eq_true_eq]
  omega

/-- A row whose limit expires executes by it. -/
theorem State.slot_expired (h : s.satisfied e r s.levels = false) (hl : rowLimit r ≠ 0) (hs : rowSource r ≠ .none) :
    s.slot e r s.levels true = s.executeRow e r s.levels false true := by
  unfold State.slot
  dsimp only
  rw [if_neg (by simp [h]), if_pos ⟨hl, rfl⟩, (by simpa using hs : (rowSource r != .none) = true)]

/-- The limit of the row at PC expires in its cycle tick. -/
theorem State.waitLimit_eq (hoff : s.rowOff (s.peekRow e (s.engine e).pc.toNat) = false)
    (hl : rowLimit (s.peekRow e (s.engine e).pc.toNat) ≠ 0) : s.waitLimit e = s.engineCycle e true := by
  unfold State.waitLimit
  rw [State.rowFrom_enabled hoff]
  exact if_neg hl

/-- A pending halt takes effect at an unlocked row (R517). -/
theorem State.useCycle_halting (hinj : (s.engine e).injected = none) (hrun : (s.engine e).run = .halting)
    (hask : (s.engine e).asking = false) (hlock : rowLock r = false) (expired : Bool) :
    s.useCycle e r expired = s.haltEngine e .host := by
  unfold State.useCycle
  dsimp only
  rw [hinj, hrun, hask, hlock]
  rfl

/-- A halted engine executes an injected row (R520). -/
theorem State.injectedRow_halted {j : Row} (hup : s.up = true) (he : e < s.part.engines)
    (hinj : (s.engine e).injected = some j) (hrun : (s.engine e).run = .halted) :
    s.injectedRow e = s.executeRow e j s.levels true false := by
  unfold State.injectedRow
  rw [if_neg (by simp [hup, he]), hinj]
  exact if_pos (Or.inl hrun)

/-- No other level of a land is no level more. -/
theorem State.atPins_zero (pins : Byte) : s.atPins pins 0 = { s with agt := { s.agt with pins := pins } } := by
  unfold State.atPins
  rw [show s.agt.blur ||| 0 = s.agt.blur from BitVec.or_zero]

section
variable (htrace : s.flag F.AGT_CFG_TRACE e = false) (h256 : e < 256) (ha : s.analog = true) (he : e < s.part.engines)
  (hinj : (s.engine e).injected = none)
  (hoff : s.rowOff (s.peekRow e (s.engine e).pc.toNat) = false)
  (hw : s.wordClean ⟨Store.agate, false, 64 * e + 2 * (s.engine e).pc.toNat⟩)
  (hw' : s.wordClean ⟨Store.agate, false, 64 * e + 2 * (s.engine e).pc.toNat + 1⟩)
include ha he hinj hoff hw hw'

/-- The cycle tick of a running engine is its row's slot. -/
theorem State.engineCycle_slot (hrun : (s.engine e).run = .running) {x : Engine} {expired : Bool}
    (hslot : s.slot e (s.peekRow e (s.engine e).pc.toNat) s.levels expired = t) (hx : t.engine e = x) (hxrun : x.run = .running) :
    s.engineCycle e expired = t.newCycle e := by
  rw [State.engineCycle_eq ha he (by rw [hrun]; decide) hoff hw hw', State.useCycle_running hinj hrun hoff, hslot,
    State.stepDone_of_running hx hxrun]

/-- A row whose wait is not satisfied waits (R506). -/
theorem State.engineCycle_waits (hrun : (s.engine e).run = .running)
    (hsat : s.satisfied e (s.peekRow e (s.engine e).pc.toNat) s.levels = false)
    (hl : rowLimit (s.peekRow e (s.engine e).pc.toNat) = 0 ∨
      (s.engine e).waited < rowLimit (s.peekRow e (s.engine e).pc.toNat)) :
    s.engineBecomes (s.engineCycle e false) e { s.engine e with
      waiting := true, waited := (s.engine e).waited + 1, div := s.fld F.AGT_DIV_DIV_M1 e } := by
  have hputs := State.setEngine_becomes (s := s) e { s.engine e with waiting := true, waited := (s.engine e).waited + 1 }
  rw [State.engineCycle_slot ha he hinj hoff hw hw' hrun (State.slot_waiting hsat hl) ((hputs.2 e).trans (if_pos rfl)) hrun]
  exact hputs.newCycle

/-- A pending halt ends at an unlocked row. -/
theorem State.engineCycle_halts (hrun : (s.engine e).run = .halting) (hask : (s.engine e).asking = false)
    (hlock : rowLock (s.peekRow e (s.engine e).pc.toNat) = false) :
    s.engineBecomes (s.engineCycle e false) e { s.engine e with
      run := .halted, why := .host, waiting := false, waited := 0, since := 0, div := s.fld F.AGT_DIV_DIV_M1 e
      drives := if s.flag F.AGT_CFG_HALT_Z e then 0 else (s.engine e).drives
      values := if s.flag F.AGT_CFG_HALT_Z e then 0 else (s.engine e).values } := by
  rw [State.engineCycle_eq ha he (by rw [hrun]; decide) hoff hw hw', State.useCycle_halting hinj hrun hask hlock]
  exact (State.setEngine_becomes e _).newCycle

include htrace h256

/-- A row whose wait is satisfied executes, and the engine goes on to the next. -/
theorem State.engineCycle_executes (hrun : (s.engine e).run = .running)
    (hsat : s.satisfied e (s.peekRow e (s.engine e).pc.toNat) s.levels = true) :
    s.Acts e (s.peekRow e (s.engine e).pc.toNat) (s.engineCycle e false)
      { s.executed e (s.peekRow e (s.engine e).pc.toNat) false false with div := s.fld F.AGT_DIV_DIV_M1 e } := by
  have hacts := State.executeRow_acts (r := s.peekRow e (s.engine e).pc.toNat) htrace h256 false false
  rw [State.engineCycle_slot ha he hinj hoff hw hw' hrun (State.slot_satisfied hsat false)
    ((hacts.2.2 e).trans (if_pos rfl)) hrun]
  exact hacts.newCycle h256

/-- A row whose limit expires executes, goes on at its target, and sets WAIT_TMO (R507). -/
theorem State.engineCycle_expires (hrun : (s.engine e).run = .running)
    (hsat : s.satisfied e (s.peekRow e (s.engine e).pc.toNat) s.levels = false)
    (hl : rowLimit (s.peekRow e (s.engine e).pc.toNat) ≠ 0) (hs : rowSource (s.peekRow e (s.engine e).pc.toNat) ≠ .none) :
    s.Acts e (s.peekRow e (s.engine e).pc.toNat) (s.engineCycle e true)
        { s.executed e (s.peekRow e (s.engine e).pc.toNat) false true with div := s.fld F.AGT_DIV_DIV_M1 e } ∧
      ((s.engineCycle e true).reg R.AGT_STATUS e).getLsbD 11 = true := by
  have hacts := State.executeRow_acts (r := s.peekRow e (s.engine e).pc.toNat) htrace h256 false true
  rw [State.engineCycle_slot ha he hinj hoff hw hw' hrun (State.slot_expired hsat hl hs)
    ((hacts.2.2 e).trans (if_pos rfl)) hrun]
  exact ⟨hacts.newCycle h256, State.executeRow_tmo htrace h256⟩

end

/-- Settles O54. -/
theorem enginesExecute : Obligations.EnginesExecute := by
  unfold Obligations.EnginesExecute
  intro e pins edges s he htrace x r k l m act acts
  have h256 : e.val < 256 := by omega
  refine ⟨fun ha hinj hoff hw hw' => ⟨fun hrun => ⟨fun hsat => ?_, fun hsat hlim => ?_, fun hsat hlim hsrc => ?_⟩,
    fun hrun hask hlock => ?_⟩, fun j hup hinj hrun => ?_⟩
  · exact ⟨_, rfl, State.engineCycle_executes (s := s.atPins pins edges) htrace h256 ha he hinj hoff hw hw' hrun hsat⟩
  · exact ⟨_, rfl, State.engineCycle_waits (s := s.atPins pins edges) ha he hinj hoff hw hw' hrun hsat hlim⟩
  · have hlimit := State.waitLimit_eq (s := s.atPins pins edges) (e := e.val) hoff hlim
    obtain ⟨hacts, htmo⟩ :=
      State.engineCycle_expires (s := s.atPins pins edges) htrace h256 ha he hinj hoff hw hw' hrun hsat hlim hsrc
    exact ⟨_, congrArg Host.Outcome.next hlimit, hacts, htmo⟩
  · exact ⟨_, rfl, State.engineCycle_halts (s := s.atPins pins edges) ha he hinj hoff hw hw' hrun hask hlock⟩
  · have hrow := State.injectedRow_halted (s := s.atPins pins 0) hup he hinj hrun
    have hacts := State.executeRow_acts (s := s.atPins pins 0) (r := j) htrace h256 true false
    generalize hu : (s.atPins pins 0).executeRow e.val j (s.atPins pins 0).levels true false = u at hrow hacts
    rw [State.atPins_zero] at hacts
    exact ⟨u, congrArg Host.Outcome.next hrow, hacts⟩

end Sys2Proof.Machine
end

section
/-! PROOF.
The steps of the wake sequence, and the states in which a wake ends.
-/
namespace Sys2Proof.Machine

variable {s t u : State}

/-! ### What reaching Armed does for conversion (R317, R323, R328) -/

/-- From `s` to `t` only what conversion holds has changed, and what the checks of its stores report. -/
structure State.Prepares (s t : State) : Prop where
  frame : t = { s with
    regs := t.regs, fresh := t.fresh, mem := t.mem, cnv := t.cnv
    flt := { s.flt with events := t.flt.events, head := t.flt.head } }
  kept : s.regsKept t
    (faultWords ++ [(F.CNV_STATUS_WAVE_BAD, 0), (F.CNV_DEF_STATUS_DEFECT_DUP, 0), (F.CNV_DEF_STATUS_IGNORED, 0)])
  grows : ∃ l, t.flt.events = s.flt.events ++ l

theorem State.Reports.prepares (h : s.Reports t) : s.Prepares t where
  frame := by
    have he := h.frame
    have hcnv : t.cnv = s.cnv := by rw [he]
    rw [← hcnv] at he
    exact he
  kept := State.regsKept_mono h.kept fun _ hx => List.mem_append_left _ hx
  grows := h.grows

theorem State.Prepares.trans (h : s.Prepares t) (h' : t.Prepares u) : s.Prepares u where
  frame := by
    have he := h'.frame
    rw [h.frame] at he
    exact he
  kept := State.regsKept_trans h.kept h'.kept
  grows := by
    obtain ⟨l, hl⟩ := h.grows
    obtain ⟨l', hl'⟩ := h'.grows
    exact ⟨l ++ l', by rw [hl', hl, List.append_assoc]⟩

theorem State.Prepares.setCnv (c : Conversion) : s.Prepares (s.setCnv c) :=
  ⟨rfl, State.regsKept_of_regs rfl rfl, [], (List.append_nil _).symm⟩

/-- A field of conversion written. -/
theorem State.Prepares.setFld {f : Field} (v : Nat) (hf : f.lo ≤ f.hi ∧ f.hi < 16)
    (hm : f ∈ [F.CNV_DEF_STATUS_DEFECT_DUP, F.CNV_DEF_STATUS_IGNORED]) : s.Prepares (s.setFld f v) :=
  ⟨rfl, State.regsKept_mono (State.setFld_kept ⟨by decide, hf⟩ v) (by
    rw [List.forall_mem_singleton, List.mem_append]
    simp only [List.mem_cons, List.not_mem_nil, or_false] at hm ⊢
    rcases hm with rfl | rfl <;> simp), [], (List.append_nil _).symm⟩

/-- The waveform sets checked. -/
theorem State.Prepares.checkWaves : s.Prepares s.checkWaves := by
  obtain ⟨u, v, hreports, hframe, hkept⟩ := State.checkWaves_frame (s := s)
  refine hreports.prepares.trans ⟨?_, State.regsKept_mono hkept (by simp), [], ?_⟩
  · generalize s.checkWaves = w at *
    rw [hframe]
  · rw [hframe, List.append_nil]

/-- One entry of a compile read. -/
theorem State.Prepares.compileStep : s.Prepares s.compileStep := by
  have hrefl : s.Prepares s := (State.Reports.refl).prepares
  unfold State.compileStep
  split
  · exact hrefl
  next c hc =>
    split
    · exact hrefl
    · have hread : s.Reports (s.readWord .internal false ⟨Store.defect, false, c.next⟩).2 := .readWord ..
      split
      next t he =>
        rw [he] at hread
        exact hread.prepares
      next r t he =>
        rw [he] at hread
        dsimp only
        split
        · exact hread.prepares.trans (.setCnv _)
        · split
          · exact (hread.prepares.trans (.setFld (f := F.CNV_DEF_STATUS_IGNORED) _ (by decide) (by simp))).trans (.setCnv _)
          · exact (hread.prepares.trans (.setFld (f := F.CNV_DEF_STATUS_DEFECT_DUP) _ (by decide) (by simp))).trans (.setCnv _)
          · exact hread.prepares.trans (.setCnv _)

/-- A compile started. -/
theorem State.Prepares.startCompile : s.Prepares s.startCompile := by
  unfold State.startCompile
  exact (((State.Prepares.setCnv _).trans (.setFld (f := F.CNV_DEF_STATUS_DEFECT_DUP) 0 (by decide) (by simp))).trans
    (.setFld (f := F.CNV_DEF_STATUS_IGNORED) 0 (by decide) (by simp))).trans .compileStep

/-- Conversion as the device reaches Armed. -/
theorem State.Prepares.conversionArmed : s.Prepares s.conversionArmed :=
  ((State.Prepares.setCnv _).trans .checkWaves).trans .startCompile

/-! ### The end of a wake (R101, R621) -/

/-- What reaching a state on VCORE leaves. -/
structure State.Woken (s t : State) (st : PState) : Prop where
  frame : t = { s with
    regs := t.regs, port := s.port.clockTo true, flt := { s.flt with events := t.flt.events }
    pwr := { s.pwr with state := st, safeWhy := .notSafe, step := 0, stepRunning := false } }
  fails : t.fld F.SYS_RESET_CAUSE_FAILS = 0
  event : s.pwr.rails.vcore = true → s.flt.events = [] → ∃ e, t.flt.events = [e] ∧ e.code = 0x01

/-- A wake that ends. -/
theorem State.wakeEnds_woken (st : PState) : s.Woken (s.wakeEnds st) st := by
  have hclear : (s.setFld F.SYS_RESET_CAUSE_FAILS 0).fld F.SYS_RESET_CAUSE_FAILS = 0 :=
    State.fld_setFld_of_lt (by decide) (by decide)
  unfold State.wakeEnds State.wakeDone
  dsimp only
  split
  next hv =>
    generalize hu : State.setPwr _ _ = u at *
    have hkept : u.regsKept (u.raise 0x01 noUnit (u.reg R.SYS_RESET_CAUSE).toNat) [(F.FLT_EV_LOST_COUNT, 0)] :=
      State.regsKept_raise List.mem_cons_self
    refine ⟨?_, (hkept.fld_apart (by decide)).trans ?_, fun _ hnil => ?_⟩
    · have hraise : u.raise 0x01 noUnit (u.reg R.SYS_RESET_CAUSE).toNat = { u with
          regs := (u.raise 0x01 noUnit (u.reg R.SYS_RESET_CAUSE).toNat).regs
          flt := { u.flt with events := (u.raise 0x01 noUnit (u.reg R.SYS_RESET_CAUSE).toNat).flt.events } } := by
        unfold State.raise
        split <;> rfl
      generalize u.raise 0x01 noUnit (u.reg R.SYS_RESET_CAUSE).toNat = w at *
      rw [hraise, ← hu]
      rfl
    · rw [← hu]
      exact hclear
    · have hempty : u.flt.events = [] := by rw [← hu]; exact hnil
      rw [State.raise_room (by rw [hempty]; decide)]
      exact ⟨u.entry 0x01 noUnit (u.reg R.SYS_RESET_CAUSE).toNat, by simp only [State.logged, hempty, List.nil_append], rfl⟩
  next hv => exact ⟨rfl, hclear, fun hv' _ => absurd hv' hv⟩

/-- The device reaches Armed: the clocks run on, the wake ends, conversion is prepared (R87, R142). -/
theorem State.reachArmed_spec : ∃ u, (s.setClk s.clk.start).Woken u .armed ∧ u.Prepares s.reachArmed :=
  ⟨_, State.wakeEnds_woken .armed, .conversionArmed⟩

/-! ### One step (R90, R95) -/

/-- The parts of a wake step in progress. -/
theorem State.wakeStep_iff {n : Nat} : s.wakeStep = some n ↔
    s.pwr.state = .waking ∧ s.pwr.stepRunning = true ∧ s.pwr.step = n ∧ 1 ≤ n ∧ n ≤ 8 := by
  unfold State.wakeStep
  split
  next h =>
    rw [Option.some.injEq]
    constructor
    · rintro rfl
      exact ⟨h.1, h.2.1, rfl, h.2.2⟩
    · exact fun h' => h'.2.2.1
  next h =>
    constructor
    · exact fun h' => nomatch h'
    · rintro ⟨h1, h2, rfl, h3⟩
      exact absurd ⟨h1, h2, h3⟩ h

/-- The step in progress completes. -/
theorem State.stepCompletes_eq {n : Nat} (h : s.wakeStep = some n) : s.stepCompletes = s.completeStep n := by
  unfold State.stepCompletes
  rw [h]

/-- A step that neither fails nor ends the sequence leads to the next. -/
theorem State.completeStep_next {n : Nat} (hinj : s.injArg 0x04 = none) (hf : s.colophonFails n = false) (hlt : n < 8)
    (h2 : ¬(n = 2 ∧ s.flag F.SYS_RESET_CAUSE_LOCKOUT = true)) (h4 : ¬(n = 4 ∧ s.pwr.toArmed = false)) :
    s.completeStep n = (s.stepEffect n).armStep (n + 1) := by
  have heffect : (s.stepEffect n).regs = s.regs ∧ (s.stepEffect n).flt = s.flt ∧ (s.stepEffect n).pwr.toArmed = s.pwr.toArmed := by
    unfold State.stepEffect
    dsimp only
    split <;> exact ⟨rfl, rfl, rfl⟩
  obtain ⟨hregs, hflt, harmed⟩ := heffect
  have hlock : (s.stepEffect n).flag F.SYS_RESET_CAUSE_LOCKOUT = s.flag F.SYS_RESET_CAUSE_LOCKOUT := by
    unfold State.flag State.fld State.reg
    rw [hregs]
  have hnone : (s.stepEffect n).injArg 0x04 = none := by
    unfold State.injArg at hinj ⊢
    rw [hflt]
    exact hinj
  unfold State.completeStep
  dsimp only
  rw [if_neg (by simp [hf]), hlock, harmed, if_neg (fun h => h2 ⟨h.1, h.2.2⟩), if_neg h4, if_neg (by omega),
    State.startStep_of_none hnone]

/-- Step 8 ends a wake from Standby, and leads to the finish stage else. -/
theorem State.completeStep_last (hf : s.colophonFails 8 = false) : s.completeStep 8 =
    if s.pwr.kind = .standby then (s.stepEffect 8).reachArmed else (s.stepEffect 8).armStep 9 := by
  unfold State.completeStep
  dsimp only
  rw [if_neg (by simp [hf]), if_neg (by simp), if_neg (by simp), if_pos rfl]
  rfl

/-- With no entry in the head nothing is copied. -/
theorem State.copyHead_of_empty (h : s.fld F.FLT_STATUS_COUNT = 0) : s.copyHead = s := by
  unfold State.copyHead
  rw [h]
  rfl

/-- Settles O26. -/
theorem wakeStepCompletes : Obligations.WakeStepCompletes := by
  unfold Obligations.WakeStepCompletes
  intro n s hstep hinj hf
  have hcomplete : exec .wakeStepDone s = .next (s.completeStep n) :=
    congrArg Host.Outcome.next (State.stepCompletes_eq hstep)
  obtain ⟨-, -, -, h1, h8⟩ := State.wakeStep_iff.1 hstep
  refine ⟨fun hlt h2 h4 => ?next, fun hn hk => ?finish, fun hn hk hv hlog => ?armed, fun hn ha hc hv hlog => ?standby⟩
  case next =>
    rw [hcomplete, State.completeStep_next hinj hf hlt h2 h4]
    interval_cases n <;> simp [State.stepEffect, State.armStep, State.setPwr, State.setClk]
  case finish =>
    subst hn
    rw [hcomplete, State.completeStep_last hf, if_neg hk]
    rfl
  case armed =>
    subst hn
    rw [hcomplete, State.completeStep_last hf, if_pos hk]
    obtain ⟨u, hwoken, hprep⟩ := State.reachArmed_spec (s := s.stepEffect 8)
    obtain ⟨e, he, hcode⟩ := hwoken.event hv hlog
    obtain ⟨l, hl⟩ := hprep.grows
    have hframe := hwoken.frame
    have hframe' := hprep.frame
    rw [hframe] at hframe'
    generalize (s.stepEffect 8).reachArmed = w at *
    refine ⟨w, rfl, ?_, ?_, ?_, ?_, ?_, (hprep.kept.fld_apart (by decide)).trans hwoken.fails, ?_, e, l, by rw [hl, he]; rfl, hcode⟩
      <;> rw [hframe'] <;> rfl
  case standby =>
    subst hn
    have hend : s.completeStep 4 = (s.setClk s.clk.lockBoot).copyHead.wakeEnds .standby := by
      unfold State.completeStep
      dsimp only
      rw [if_neg (by simp [hf]), if_neg (by simp)]
      exact if_pos ⟨rfl, ha⟩
    rw [hcomplete, hend, State.copyHead_of_empty (s := s.setClk s.clk.lockBoot) hc]
    obtain ⟨hframe, hfails, hevent⟩ := State.wakeEnds_woken (s := s.setClk s.clk.lockBoot) .standby
    obtain ⟨e, he, hcode⟩ := hevent hv hlog
    generalize (s.setClk s.clk.lockBoot).wakeEnds .standby = w at *
    refine ⟨w, rfl, ?_, ?_, ?_, ?_, hfails, by rw [he, ← hcode]; rfl⟩ <;> rw [hframe] <;> rfl

end Sys2Proof.Machine
end

section
/-! PROOF.
Failed wakes and their retry.
-/
namespace Sys2Proof.Machine

variable {s t : State}

/-! ### What SYS_RESET_CAUSE shows of a failure (R97, R101) -/

/-- The failure count after one more failure. -/
def State.failsNext (s : State) : Nat := min 3 (s.fld F.SYS_RESET_CAUSE_FAILS + 1)

/-- SYS_RESET_CAUSE after wake step `n` has failed. -/
def State.failShown (s : State) (n : Nat) : State :=
  let t := ((s.setFlag F.SYS_RESET_CAUSE_WAKE_FAIL true).setFld F.SYS_RESET_CAUSE_FAIL_STEP n).setFld
    F.SYS_RESET_CAUSE_FAILS s.failsNext
  if s.failsNext = 3 then t.setFlag F.SYS_RESET_CAUSE_LOCKOUT true else t

/-- The fields of SYS_RESET_CAUSE that a failure changes. -/
def failWords : List (Field × Nat) :=
  [(F.SYS_RESET_CAUSE_WAKE_FAIL, 0), (F.SYS_RESET_CAUSE_FAIL_STEP, 0), (F.SYS_RESET_CAUSE_FAILS, 0),
    (F.SYS_RESET_CAUSE_LOCKOUT, 0)]

/-- What SYS_RESET_CAUSE shows of a failure. -/
theorem State.failShown_spec {n : Nat} (hn : n < 16) {t : State} (ht : s.failShown n = t) :
    t = { s with regs := t.regs, fresh := t.fresh } ∧ t.flag F.SYS_RESET_CAUSE_WAKE_FAIL = true ∧
      t.fld F.SYS_RESET_CAUSE_FAIL_STEP = n ∧ t.fld F.SYS_RESET_CAUSE_FAILS = s.failsNext ∧
      t.flag F.SYS_RESET_CAUSE_LOCKOUT = (s.flag F.SYS_RESET_CAUSE_LOCKOUT || decide (s.failsNext = 3)) ∧
      s.regsKept t failWords := by
  have hlt : s.failsNext < 4 := Nat.lt_of_le_of_lt (Nat.min_le_left ..) (by decide)
  let u1 := s.setFlag F.SYS_RESET_CAUSE_WAKE_FAIL true
  let u2 := u1.setFld F.SYS_RESET_CAUSE_FAIL_STEP n
  let u3 := u2.setFld F.SYS_RESET_CAUSE_FAILS s.failsNext
  have k1 : s.regsKept u1 [(F.SYS_RESET_CAUSE_WAKE_FAIL, 0)] := State.setFlag_kept (by decide) true
  have k2 : u1.regsKept u2 [(F.SYS_RESET_CAUSE_FAIL_STEP, 0)] := State.setFld_kept (by decide) n
  have k3 : u2.regsKept u3 [(F.SYS_RESET_CAUSE_FAILS, 0)] := State.setFld_kept (by decide) _
  have k4 : u3.regsKept t [(F.SYS_RESET_CAUSE_LOCKOUT, 0)] := by
    rw [← ht]
    unfold State.failShown
    dsimp only
    split
    · exact State.setFlag_kept (by decide) true
    · exact State.regsKept_refl
  have hframe : t = { s with regs := t.regs, fresh := t.fresh } := by
    have h1 := State.setFlag_frame (s := s) F.SYS_RESET_CAUSE_WAKE_FAIL true 0
    rw [← ht]
    unfold State.failShown
    dsimp only
    split
    · rw [State.setFlag_frame]
      rw [h1]
      rfl
    · rw [h1]
      rfl
  have hfail : u1.flag F.SYS_RESET_CAUSE_WAKE_FAIL = true := State.flag_setFlag s rfl (by decide) true 0
  have hstep : u2.fld F.SYS_RESET_CAUSE_FAIL_STEP = n := State.fld_setFld_of_lt (by decide) hn
  have hfails : u3.fld F.SYS_RESET_CAUSE_FAILS = s.failsNext := State.fld_setFld_of_lt (by decide) hlt
  have hold : u3.flag F.SYS_RESET_CAUSE_LOCKOUT = s.flag F.SYS_RESET_CAUSE_LOCKOUT :=
    ((k3.flag_apart (by decide)).trans (k2.flag_apart (by decide))).trans (k1.flag_apart (by decide))
  refine ⟨hframe, ((k4.flag_apart (by decide)).trans ((k3.flag_apart (by decide)).trans (k2.flag_apart (by decide)))).trans hfail,
    ((k4.fld_apart (by decide)).trans (k3.fld_apart (by decide))).trans hstep, (k4.fld_apart (by decide)).trans hfails, ?_,
    ((k1.append k2).append k3).append k4⟩
  rw [← ht, ← hold]
  unfold State.failShown
  dsimp only
  split
  next h3 => rw [State.flag_setFlag _ rfl (by decide), decide_eq_true h3, Bool.or_true]
  next h3 => rw [decide_eq_false h3, Bool.or_false]

/-! ### Entry to Safe (R97) -/

/-- The counts that an entry to Safe clears. -/
def safeWords : List (Field × Nat) := [(Field.word R.AUX_INJ_DROPPED, 0), (Field.word R.AUX_OVF_COUNT, 0)]

/-- What an entry to Safe leaves. -/
structure State.SafeFor (s t : State) (why : SafeWhy) : Prop where
  frame : t = { s with
    regs := t.regs, exp := Exposure.init, lanes := t.lanes, aux := Aux.init, agt := Agate.init, pb := PBus.init
    mem := t.mem, port := s.port.clockTo false, free := t.free
    flt := { s.flt with events := t.flt.events, pending := none }
    pwr := { s.pwr with state := .safe, safeWhy := why, stepRunning := false, supplyWait := false } }
  kept : s.regsKept t safeWords

/-- An entry to Safe. -/
theorem State.enterSafe_spec (why : SafeWhy) (keepLog : Bool) : s.SafeFor (s.enterSafe why keepLog) why := by
  obtain ⟨m, a, hexp⟩ := s.clearExposure_frame
  obtain ⟨n, l, k, hlanes⟩ := s.clearExposure.clearLanes_frame
  rw [hexp] at hlanes
  have hkept : s.clearExposure.clearLanes.regsKept
      ((s.clearExposure.clearLanes.setReg R.AUX_INJ_DROPPED 0).setReg R.AUX_OVF_COUNT 0) safeWords :=
    State.regsKept_trans (State.regsKept_setReg (by decide) (by simp [safeWords]))
      (State.regsKept_setReg (by decide) (by simp [safeWords]))
  unfold State.enterSafe
  rw [hexp, hlanes] at *
  exact ⟨rfl, State.regsKept_trans (State.regsKept_of_regs rfl rfl) hkept⟩

/-- An entry to Safe empties the event log but for the start-up self-test's entry. -/
theorem State.enterSafe_events (why : SafeWhy) : (s.enterSafe why false).flt.events = [] := rfl

/-- WAKE_DONE, with the log empty. -/
theorem State.wakeDone_of_empty (h : s.flt.events = []) :
    ∃ es, s.wakeDone = { s with flt := { s.flt with events := es } } := by
  unfold State.wakeDone
  split
  · exact ⟨_, State.raise_room (by rw [h]; decide) ..⟩
  · exact ⟨_, rfl⟩

/-! ### A step that fails -/

/-- The rails that the steps before `n` have switched on. -/
def Rails.before (r : Rails) (n : Nat) : Rails :=
  { vcore := r.vcore && decide (3 < n), vref := r.vref && decide (3 < n), vana := r.vana && decide (5 < n)
    vpixh := r.vpixh && decide (6 < n), vneg := r.vneg && decide (7 < n), vlane := r.vlane && decide (8 < n) }

/-- The rails that a failing step leaves on. -/
theorem State.railsDownTo_rails {n : Nat} (hn : 1 ≤ n) : (s.railsDownTo (n - 1)).pwr.rails = s.pwr.rails.before n := by
  have hlt : ∀ k, decide (k ≤ n - 1) = decide (k < n) := fun k => by
    rw [decide_eq_decide]
    omega
  unfold State.railsDownTo Rails.upTo Rails.before
  simp only [hlt]
  rfl

/-- The power unit as step `n` has failed. -/
def State.failedPower (s : State) (n : Nat) : State :=
  (s.railsDownTo (n - 1)).setPwr { (s.railsDownTo (n - 1)).pwr with mute := n == 1, step := n }

/-- A failing step: what it shows, the rails, and Safe. -/
theorem State.wakeFail_eq (n : Nat) : s.wakeFail n =
    (((s.failShown n).failedPower n).enterSafe
      (if (s.failShown n).flag F.SYS_RESET_CAUSE_LOCKOUT then .lockout else .wakeFailed) false).wakeDone :=
  rfl

/-- The entry to Safe of a failing step, with its event. -/
theorem State.safeDone_spec (why : SafeWhy) : s.SafeFor (s.enterSafe why false).wakeDone why := by
  obtain ⟨hsafe, hkept⟩ := State.enterSafe_spec (s := s) why false
  obtain ⟨es, hdone⟩ := State.wakeDone_of_empty (State.enterSafe_events (s := s) why)
  rw [hdone]
  generalize s.enterSafe why false = u at *
  exact ⟨(congrArg (fun v : State => { v with flt := { v.flt with events := es } }) hsafe :),
    State.regsKept_trans hkept (State.regsKept_of_regs rfl rfl)⟩

/-- A step that fails leaves Safe, with the rails of the steps before it (R97). -/
structure State.FailedAt (s t : State) (n : Nat) : Prop where
  state : t.pwr.state = .safe
  why : t.pwr.safeWhy = if s.flag F.SYS_RESET_CAUSE_LOCKOUT || decide (s.failsNext = 3) then .lockout else .wakeFailed
  rails : t.pwr.rails = s.pwr.rails.before n
  mute : t.pwr.mute = decide (n = 1)
  others : t.bnd = s.bnd ∧ t.bst = s.bst ∧ t.clk = s.clk ∧ t.pending = s.pending
  shown : t.flag F.SYS_RESET_CAUSE_WAKE_FAIL = true ∧ t.fld F.SYS_RESET_CAUSE_FAIL_STEP = n ∧
    t.fld F.SYS_RESET_CAUSE_FAILS = s.failsNext ∧
    t.flag F.SYS_RESET_CAUSE_LOCKOUT = (s.flag F.SYS_RESET_CAUSE_LOCKOUT || decide (s.failsNext = 3))
  kept : s.regsKept t (failWords ++ safeWords)

/-- A wake step fails. -/
theorem State.wakeFail_spec {n : Nat} (h1 : 1 ≤ n) (h16 : n < 16) : s.FailedAt (s.wakeFail n) n := by
  rw [State.wakeFail_eq]
  obtain ⟨hframe, hfail, hstep, hfails, hlock, hshown⟩ := State.failShown_spec (s := s) h16 rfl
  have hrails := State.railsDownTo_rails (s := s.failShown n) h1
  generalize s.failShown n = u at *
  rw [hlock]
  generalize hwhy : (if (s.flag F.SYS_RESET_CAUSE_LOCKOUT || decide (s.failsNext = 3)) = true then SafeWhy.lockout
    else SafeWhy.wakeFailed) = why
  obtain ⟨hsafe, hkept⟩ := State.safeDone_spec (s := u.failedPower n) why
  have hall : u.regsKept ((u.failedPower n).enterSafe why false).wakeDone safeWords :=
    State.regsKept_trans (State.regsKept_of_regs rfl rfl) hkept
  generalize ((u.failedPower n).enterSafe why false).wakeDone = w at *
  have hothers : w.bnd = u.bnd ∧ w.bst = u.bst ∧ w.clk = u.clk ∧ w.pending = u.pending := by
    rw [hsafe]
    exact ⟨rfl, rfl, rfl, rfl⟩
  have hsame : u.bnd = s.bnd ∧ u.bst = s.bst ∧ u.clk = s.clk ∧ u.pending = s.pending := by
    rw [hframe]
    exact ⟨rfl, rfl, rfl, rfl⟩
  exact ⟨congrArg (fun v : State => v.pwr.state) hsafe, (congrArg (fun v : State => v.pwr.safeWhy) hsafe).trans hwhy.symm,
    (congrArg (fun v : State => v.pwr.rails) hsafe).trans (hrails.trans (by rw [hframe])), congrArg (fun v : State => v.pwr.mute) hsafe,
    ⟨hothers.1.trans hsame.1, hothers.2.1.trans hsame.2.1, hothers.2.2.1.trans hsame.2.2.1, hothers.2.2.2.trans hsame.2.2.2⟩,
    ⟨(hall.flag_apart (by decide)).trans hfail, (hall.fld_apart (by decide)).trans hstep,
      (hall.fld_apart (by decide)).trans hfails, (hall.flag_apart (by decide)).trans hlock⟩, hshown.append hall⟩

/-! ### WAKE_RETRY (R100) -/

/-- PWR_WAKE_TMO, where a retry carries a value for it. -/
def State.withTmo (s : State) (w : Option Word) : State :=
  match w with
  | some v => s.setReg R.PWR_WAKE_TMO (BitVec.ofNat 16 (wakeTmoStored v.toNat))
  | none => s

/-- Neither timeout is stored below 1 (Table 03-18). -/
theorem wakeTmoStored_fields (v : Word) :
    F.PWR_WAKE_TMO_PLL_TMO.of (BitVec.ofNat 16 (wakeTmoStored v.toNat)) = max 1 (F.PWR_WAKE_TMO_PLL_TMO.of v) ∧
      F.PWR_WAKE_TMO_STEP_TMO.of (BitVec.ofNat 16 (wakeTmoStored v.toNat)) = max 1 (F.PWR_WAKE_TMO_STEP_TMO.of v) := by
  have hv := v.isLt
  have hlt : wakeTmoStored v.toNat < 2 ^ 16 := by
    unfold wakeTmoStored
    omega
  constructor <;>
  · unfold Field.of
    rw [BitVec.toNat_ofNat, Nat.mod_eq_of_lt hlt]
    simp only [bits, wakeTmoStored, F.PWR_WAKE_TMO_PLL_TMO, F.PWR_WAKE_TMO_STEP_TMO]
    omega

/-- A pending injection is the fault unit's. -/
theorem State.injArg_congr (h : t.flt = s.flt) (det : Nat) : t.injArg det = s.injArg det := by
  unfold State.injArg
  rw [h]

/-- A retry while the warning is not asserted starts the step that failed. -/
theorem State.retryWake_eq (hwarn : s.pwr.warn = false) (hinj : s.injArg 0x04 = none) (w : Option Word) :
    s.retryWake (w.map BitVec.toNat) = (s.withTmo w).setPwr
      { s.pwr with from_ := .safe, state := .waking, safeWhy := .notSafe, stepRunning := true } := by
  have hstart : ∀ t : State, t.pwr = s.pwr → t.flt = s.flt →
      (t.setPwr { t.pwr with from_ := .safe, state := .waking, safeWhy := .notSafe }).startStep t.pwr.step = t.setPwr
        { s.pwr with from_ := .safe, state := .waking, safeWhy := .notSafe, stepRunning := true } := fun t hp hf => by
    have hnone : ∀ x, (t.setPwr x).injArg 0x04 = none := fun x => (State.injArg_congr hf _).trans hinj
    rw [State.startStep_of_none (hnone _)]
    unfold State.armStep
    rw [hp]
    simp [State.setPwr, hwarn]
  cases w with
  | none =>
    unfold State.retryWake
    exact (if_neg (by simp [State.setPwr, hwarn])).trans (hstart s rfl rfl)
  | some v =>
    unfold State.retryWake
    exact (if_neg (by simp [State.setPwr, State.setReg, hwarn])).trans (hstart (s.setReg ..) rfl rfl)

/-- Settles O27. -/
theorem failedWakes : Obligations.FailedWakes := by
  unfold Obligations.FailedWakes
  refine ⟨fun n s hstep hf => ?_, fun flags addr w s hwarn hinj => ?_⟩
  · intro fails lockout
    obtain ⟨-, -, -, h1, h8⟩ := State.wakeStep_iff.1 hstep
    have hfail : s.stepTimesOut = s.wakeFail n := by
      unfold State.stepTimesOut
      rw [hstep]
      exact if_neg (by simp [hf])
    obtain ⟨hstate, hwhy, hrails, hmute, ⟨hbnd, hbst, hclk, hpending⟩, ⟨hwake, hfstep, hfails, hlock⟩, hkept⟩ :=
      State.wakeFail_spec (s := s) h1 (by omega)
    refine ⟨_, congrArg Host.Outcome.next hfail, hstate, hwhy, ?_, hwake, hfstep, hfails, hlock, hmute, hbnd, hbst, hclk, hpending,
      hkept⟩
    rw [hrails]
    unfold Rails.before
    rw [decide_eq_false (by omega : ¬8 < n), Bool.and_false]
  · intro d p h
    obtain ⟨x, hbegin⟩ := State.portFree_begin h
    have hpayload : (if p.len = 0 then none else some (natBE p.payload)) = w.map BitVec.toNat := by
      cases w with
      | none => rfl
      | some v =>
        have hword : natBE (bytesBE 2 v.toNat) = v.toNat := natBE_bytesBE v.isLt
        exact congrArg some hword
    let u := (s.withTmo w).setPwr { s.pwr with from_ := .safe, state := .waking, safeWhy := .notSafe, stepRunning := true }
    have hexec : s.slotBegin.execPacket p false = ⟨Status.ok, [], u.setPort s.slotBegin.port⟩ := by
      show Answer.mk Status.ok [] (s.slotBegin.retryWake (if p.len = 0 then none else some (natBE p.payload))) = _
      rw [hpayload, hbegin, State.retryWake_eq (s := s.setPort x) hwarn hinj]
      cases w <;> rfl
    have hfailing : u.mem.failing = [] := by
      rw [show u.mem = s.mem by cases w <;> rfl]
      exact State.portFree_failing h
    obtain ⟨hans, hframe, hkept⟩ := State.packetSlot_exec (lost := 0) (u := u) h rfl hexec rfl hfailing
      (by show ¬(0x8B = 0x8A ∧ _); simp)
    refine ⟨_, rfl, hans, ?_, fun v hw => ?_, ?_⟩
    · generalize s.packetSlot p 0 = t at *
      rw [hframe]
      cases w <;> rfl
    · subst hw
      obtain ⟨hpll, hstep⟩ := wakeTmoStored_fields v
      have hreg : u.reg R.PWR_WAKE_TMO 0 = BitVec.ofNat 16 (wakeTmoStored v.toNat) := State.reg_setReg s ..
      exact ⟨(hkept.fld_apart (by decide)).trans ((congrArg F.PWR_WAKE_TMO_PLL_TMO.of hreg).trans hpll),
        (hkept.fld_apart (by decide)).trans ((congrArg F.PWR_WAKE_TMO_STEP_TMO.of hreg).trans hstep)⟩
    · refine State.regsKept_trans ?_ (State.regsKept_mono hkept (by simp))
      cases w with
      | none => exact State.regsKept_of_regs rfl rfl
      | some v => exact State.regsKept_trans (State.regsKept_setReg (s := s) (by decide) (by simp)) (State.regsKept_of_regs rfl rfl)

end Sys2Proof.Machine
end

section
/-! PROOF.
The start-up record and the finish stage of a wake.
-/
namespace Sys2Proof.Machine

variable {s t u : State}

/-! ### The start-up read (R553, R554) -/

/-- Counts of one field change that field alone. -/
theorem State.countBy_kept {f : Field} (hf : f.lo ≤ f.hi ∧ f.hi < 16) : ∀ (n : Nat) (s : State),
    s.countBy f n = { s with regs := (s.countBy f n).regs } ∧ s.regsKept (s.countBy f n) [(f, 0)]
  | 0, _ => ⟨rfl, State.regsKept_refl⟩
  | n + 1, s => by
    obtain ⟨hframe, hkept⟩ := State.countBy_kept hf n (s.count f)
    exact ⟨hframe, State.regsKept_trans (State.setFld_kept ⟨by decide, hf⟩ _) hkept⟩

/-- PB_STATUS.ERR after the losses of arbitration of a start-up read. -/
def State.readCounted (s : State) (n code : Nat) : State :=
  (s.countBy F.PB_ERR_ARB_LOSSES n).setFld F.PB_STATUS_ERR code

/-- What a start-up read counts and shows. -/
theorem State.readCounted_spec (n : Nat) {code : Nat} (hc : code < 16) :
    s.readCounted n code = { s with regs := (s.readCounted n code).regs } ∧ (s.readCounted n code).fld F.PB_STATUS_ERR = code ∧
      s.regsKept (s.readCounted n code) [(F.PB_STATUS_ERR, 0), (F.PB_ERR_ARB_LOSSES, 0)] := by
  obtain ⟨hframe, hkept⟩ := State.countBy_kept (f := F.PB_ERR_ARB_LOSSES) (by decide) n s
  refine ⟨?_, State.fld_setFld_of_lt (by decide) hc, State.regsKept_trans (State.regsKept_mono hkept (by simp))
    (State.regsKept_mono (State.setFld_kept (by decide) code) (by simp))⟩
  unfold State.readCounted
  rw [hframe]
  rfl

/-- What a failed read counts and shows beside. -/
def State.readFailed (s : State) (n : Nat) (c : Fin 10) : State :=
  let t := s.readCounted n c.val
  let t := if c.val = 1 ∨ c.val = 2 then t.count F.PB_ERR_NACKS else t
  if c.val = 6 then t.setFlag F.PB_STATUS_STUCK true else t

/-- A failed read. -/
theorem State.readFailed_spec (n : Nat) (c : Fin 10) {t : State} (ht : s.readFailed n c = t) :
    t = { s with regs := t.regs, fresh := t.fresh } ∧ t.fld F.PB_STATUS_ERR = c.val ∧
      (c.val = 6 → t.flag F.PB_STATUS_STUCK = true) ∧
      s.regsKept t [(F.PB_STATUS_ERR, 0), (F.PB_STATUS_STUCK, 0), (F.PB_ERR_NACKS, 0), (F.PB_ERR_ARB_LOSSES, 0)] := by
  obtain ⟨hframe, herr, hkept⟩ := s.readCounted_spec n (code := c.val) (by omega)
  unfold State.readFailed at ht
  dsimp only at ht
  generalize s.readCounted n c.val = u at *
  generalize hv : (if c.val = 1 ∨ c.val = 2 then u.count F.PB_ERR_NACKS else u) = v at ht
  have hvframe : v = { s with regs := v.regs } := by
    rw [← hv]
    split
    · rw [hframe]
      rfl
    · exact hframe
  have hvkept : u.regsKept v [(F.PB_ERR_NACKS, 0)] := by
    rw [← hv]
    split
    · exact State.setFld_kept (by decide) _
    · exact State.regsKept_refl
  have htkept : v.regsKept t [(F.PB_STATUS_STUCK, 0)] := by
    rw [← ht]
    split
    · exact State.setFlag_kept (by decide) true
    · exact State.regsKept_refl
  refine ⟨?_, ((htkept.fld_apart (by decide)).trans (hvkept.fld_apart (by decide))).trans herr, fun h6 => ?_,
    State.regsKept_mono ((hkept.append hvkept).append htkept) (by simp)⟩
  · rw [← ht]
    split
    · rw [State.setFlag_frame, hvframe]
    · rw [hvframe]
  · rw [← ht, if_pos h6]
    exact State.flag_setFlag v rfl (by decide) true 0

/-- The read of the record that a POR's wake takes up. -/
theorem State.startRead_eq (hs : s.pwr.state = .waking) (hk : s.pwr.kind = .reset .por) (h4 : 4 ≤ s.pwr.step)
    (hb : s.bst.start = .notRead) :
    (∀ d n, s.startRead (.complete d n) =
      (s.readCounted (min n 255) 0).setBst { (s.readCounted (min n 255) 0).bst with start := .got d }) ∧
    ∀ c n, s.startRead (.failed c n) =
      (s.readFailed (min n 255) c).setBst { (s.readFailed (min n 255) c).bst with start := .missing } := by
  have hgo : ¬(s.pwr.state ≠ .waking ∨ s.pwr.kind ≠ .reset .por ∨ s.pwr.step < 4 ∨ s.bst.start ≠ .notRead) := by
    simp [hs, hk, hb, h4]
  constructor <;> intros
  · exact if_neg hgo
  · exact if_neg hgo

/-! ### The finish stage (R93, R610, R683) -/

/-- Without a bank sync none is finished. -/
theorem State.finishSyncs_of_none (h : s.noSyncs = true) : s.finishSyncs = s := by
  have hnone : s.bnd.syncWave = .none ∧ s.bnd.syncLut = .none ∧ s.bnd.syncAdc = .none := by
    simpa [State.noSyncs, State.syncing, and_assoc] using h
  refine List.foldlRecOn _ _ (motive := fun t => t = s) rfl ?_
  rintro _ rfl x -
  cases x <;> exact if_pos (by simp [Bindery.sync, hnone])

/-- What the finish stage's decision on a record leaves. -/
structure State.Decided (s t : State) (r : List Byte) : Prop where
  pending : t.pending = s.pending
  part : t.part = s.part
  bnd : t.bnd = s.bnd
  passed : recordValid s.part r = true → (r.getD 3 0).toNat = 1 →
    t.pwr.state = .armed ∧ t.pwr.step = 0 ∧ t.clk = s.clk.start ∧ t.bst = s.bst
  failed : recordValid s.part r = true → (r.getD 3 0).toNat = 2 →
    t.pwr.state = .safe ∧ t.pwr.safeWhy = .recordFailed ∧ t.pwr.rails = s.pwr.rails ∧ t.bst = s.bst
  undecided : recordValid s.part r = false ∨ (r.getD 3 0).toNat = 3 →
    t.pwr = s.pwr ∧ t.bst.run = some (TestRun.begin_ .startUp 0)

/-- The finish stage decides on a record. -/
theorem State.decideRecord_spec (r : List Byte) : s.Decided (s.decideRecord r) r := by
  unfold State.decideRecord
  split
  next h =>
    obtain ⟨hvalid, h1⟩ := h
    obtain ⟨v, hwoken, hprep⟩ := State.reachArmed_spec (s := s)
    have hframe := hprep.frame
    rw [hwoken.frame] at hframe
    generalize s.reachArmed = w at *
    refine ⟨by rw [hframe]; rfl, by rw [hframe]; rfl, by rw [hframe]; rfl, fun _ _ => ?_, fun _ h2 => by omega, fun h3 => ?_⟩
    · rw [hframe]
      exact ⟨rfl, rfl, rfl, rfl⟩
    · rcases h3 with h3 | h3
      · rw [hvalid] at h3; exact absurd h3 (by decide)
      · omega
  next h1 =>
    split
    next h =>
      obtain ⟨hvalid, h2⟩ := h
      obtain ⟨hframe, -⟩ := State.safeDone_spec (s := s.setFld F.SYS_RESET_CAUSE_FAILS 0) .recordFailed
      unfold State.safeForRecord
      generalize ((s.setFld F.SYS_RESET_CAUSE_FAILS 0).enterSafe .recordFailed false).wakeDone = w at *
      refine ⟨by rw [hframe]; rfl, by rw [hframe]; rfl, by rw [hframe]; rfl, fun _ h1 => by omega, fun _ _ => ?_, fun h3 => ?_⟩
      · rw [hframe]
        exact ⟨rfl, rfl, rfl, rfl⟩
      · rcases h3 with h3 | h3
        · rw [hvalid] at h3; exact absurd h3 (by decide)
        · omega
    next h2 =>
      exact ⟨rfl, rfl, rfl, fun hv h => absurd ⟨hv, h⟩ h1, fun hv h => absurd ⟨hv, h⟩ h2, fun _ => ⟨rfl, rfl⟩⟩

/-- A record kept in the class-A copy changes BST_STATUS beside. -/
theorem State.keepRecord_frame (r : List Byte) (source : Nat) (ee : Bool) :
    s.keepRecord r source ee = { s with
      regs := (s.keepRecord r source ee).regs, fresh := (s.keepRecord r source ee).fresh, bst := { s.bst with record := r } } := by
  unfold State.keepRecord
  dsimp only
  rw [State.setFlag_frame]
  rfl

/-- The record on which the finish stage decides, in the state that it decides in. -/
theorem State.finishStage_eq {r : List Byte} (hs : s.pwr.state = .waking) (h9 : s.pwr.step = 9) (hr : s.pwr.stepRunning = true)
    (hrun : s.bst.run = none) (hsync : s.noSyncs = true) (hcount : s.fld F.FLT_STATUS_COUNT = 0) (hf : s.mem.failing = [])
    (hrec : s.pwr.kind = .reset .por ∧ s.bst.start = .got r ∨
      s.pwr.kind ≠ .reset .por ∧ s.pwr.kind ≠ .reset .fault ∧ s.bst.record = r ∨
      s.pwr.kind = .reset .por ∧ s.bst.start = .missing ∧ r = [] ∨ s.pwr.kind = .reset .fault ∧ r = []) :
    ∃ u : State, s.finishStage = u.decideRecord r ∧
      u = { s with regs := u.regs, fresh := u.fresh, bst := { s.bst with record := u.bst.record } } ∧
      (recordValid s.part r = true → u.bst.record = r) := by
  have hgo : ¬(s.pwr.state ≠ .waking ∨ s.pwr.step ≠ 9 ∨ s.pwr.stepRunning = false ∨ s.bst.run.isSome = true) := by
    simp [hs, h9, hr, hrun]
  have hread : ¬(s.pwr.kind = .reset .por ∧ s.bst.start = .notRead) := by
    rintro ⟨hk, hn⟩
    rcases hrec with h | h | h | h
    · rw [h.2] at hn; exact absurd hn (by simp)
    · exact h.1 hk
    · rw [h.2.1] at hn; exact absurd hn (by simp)
    · rw [h.1] at hk; exact absurd hk (by decide)
  have hempty : recordValid s.part [] = false := by
    unfold recordValid
    simp
  have hdone : s.finishSyncs.copyHead = s := by
    rw [State.finishSyncs_of_none hsync, State.copyHead_of_empty hcount]
  unfold State.finishStage
  rw [if_neg hgo, if_neg hread, hdone]
  dsimp only
  rw [if_neg (by simp [hf])]
  rcases hrec with ⟨hk, hgot⟩ | ⟨hp, hfa, hrec⟩ | ⟨hk, hm, rfl⟩ | ⟨hk, rfl⟩
  · rw [hk]
    dsimp only
    rw [hgot]
    refine ⟨_, rfl, ?_, fun hv => ?_⟩
    · rw [← hgot]
      split
      · rw [State.keepRecord_frame]
      · rfl
    · rw [if_pos hv, State.keepRecord_frame]
  · refine ⟨s, ?_, rfl, fun _ => hrec⟩
    split
    next h => exact absurd h hfa
    next h => exact absurd h hp
    next => rw [hrec]
  · rw [hk]
    dsimp only
    rw [hm]
    exact ⟨s, rfl, by rw [← hm], fun hv => absurd hv (by simp [hempty])⟩
  · rw [hk]
    exact ⟨s, rfl, rfl, fun hv => absurd hv (by simp [hempty])⟩

/-- Settles O28. -/
theorem startupsDecide : Obligations.StartupsDecide := by
  unfold Obligations.StartupsDecide
  refine ⟨fun d c losses s hs hk h4 hb => ?read, fun r s hs h9 hr hrun hsync hcount hf hrec => ?finish⟩
  case read =>
    obtain ⟨hcomplete, hfailed⟩ := State.startRead_eq hs hk h4 hb
    refine ⟨?_, ?_⟩
    · obtain ⟨hframe, herr, hkept⟩ := s.readCounted_spec (min losses 255) (code := 0) (by decide)
      refine ⟨_, congrArg Host.Outcome.next (hcomplete d losses), ?_, herr, hkept⟩
      generalize s.readCounted (min losses 255) 0 = u at *
      rw [hframe]
      rfl
    · obtain ⟨hframe, herr, hstuck, hkept⟩ := s.readFailed_spec (min losses 255) c rfl
      refine ⟨_, congrArg Host.Outcome.next (hfailed c losses), ?_, herr, hstuck, hkept⟩
      generalize s.readFailed (min losses 255) c = u at *
      rw [hframe]
      rfl
  case finish =>
    obtain ⟨u, hfinish, hu, hrecord⟩ := State.finishStage_eq hs h9 hr hrun hsync hcount hf hrec
    obtain ⟨hpending, hpart, hbnd, hpassed, hfailed, hundecided⟩ := State.decideRecord_spec (s := u) r
    have hup : u.pending = s.pending ∧ u.part = s.part ∧ u.bnd = s.bnd ∧ u.clk = s.clk ∧ u.pwr = s.pwr ∧
        u.bst.run = none := by
      rw [hu]
      exact ⟨rfl, rfl, rfl, rfl, rfl, hrun⟩
    obtain ⟨upending, upart, ubnd, uclk, upwr, urun⟩ := hup
    rw [upart] at hpassed hfailed hundecided
    refine ⟨_, congrArg Host.Outcome.next hfinish, hpending.trans upending, hpart.trans upart, hbnd.trans ubnd, fun hv h1 => ?_,
      fun hv h2 => ?_, fun h3 => ?_⟩
    · obtain ⟨hstate, hstep, hclk, hbst⟩ := hpassed hv h1
      exact ⟨hstate, hstep, hclk.trans (by rw [uclk]), by rw [hbst, urun], by rw [hbst, hrecord hv]⟩
    · obtain ⟨hstate, hwhy, hrails, hbst⟩ := hfailed hv h2
      exact ⟨hstate, hwhy, hrails.trans (by rw [upwr]), by rw [hbst, urun]⟩
    · obtain ⟨hpwr, hbst⟩ := hundecided h3
      exact ⟨by rw [hpwr, upwr, hs], hbst⟩

end Sys2Proof.Machine
end

section
/-! PROOF.
What clearing class D leaves, and the stores and registers that resets and Dormant lose.
-/
namespace Sys2Proof.Machine

variable {s t : State}

/-! ### Class D cleared (R88, R119) -/

/-- Class B of the units' own state outlives the event. -/
def Retention.keepsB : Retention → Bool
  | .standby => true
  | _ => false

/-- With no frame left, clearing the exposure unit gives no page back. -/
theorem State.clearExposure_of_idle (h : s.idleStream = true) :
    s.clearExposure = { s with exp := Exposure.init, aux := { s.aux with flash := [] } } := by
  obtain ⟨-, -, -, hl, -⟩ := State.idleStream_iff.1 h
  have hlines : (s.setAux { s.aux with flash := [] }).exp.tdiLines = [] := hl
  unfold State.clearExposure
  rw [State.abandonAll_of_idle h]
  dsimp only
  rw [hlines]
  rfl

/-- With no folio spilled, clearing the lanes gives no page back. -/
theorem State.clearLanes_mem_of_idle (h : ∀ e ∈ s.lanes.lanes, e.2.spill = []) : s.clearLanes.mem = s.mem := by
  unfold State.clearLanes
  rw [State.stopLanes_of_unspilled h]

/-- Clearing the lanes takes thirteen free values, and no lane sends on. -/
theorem State.clearLanes_free : s.clearLanes.free = s.free + 13 ∧ s.clearLanes.lanes.running = false := by
  refine ⟨?_, rfl⟩
  unfold State.clearLanes State.stopLanes
  dsimp only
  obtain ⟨m, hm⟩ := State.usePages_frame (s := { s with
    lanes := { s.lanes with
      lanes := Cells.mapEntries Lane.init
        (fun q x => x.stop .cut (s.idlesBefore x) (Config.freeNat (s.free + q + 1))) s.lanes.lanes }
    free := s.free + 13 }) (s.lanes.lanes.flatMap fun e => e.2.spill.map Prod.fst) .free
  rw [hm]
  rfl

/-- What clearing class D leaves. -/
structure State.Cleared (s t : State) (r : Retention) (cfgsel : Nat) (spi : Bool) : Prop where
  frame : t = { s with
    regs := s.retained r cfgsel spi, exp := Exposure.init, cnv := Conversion.init, lanes := t.lanes
    spn := s.spn.clear r.keepsB, pos := s.pos.clear r.keepsB, aux := Aux.init, tmp := Temperature.init, mem := t.mem
    clk := s.clk.clearTime, flt := { s.flt with events := [], pending := none }, lines := 0, past := [], fresh := []
    free := s.free + 13 }
  running : t.lanes.running = false
  mem : s.idleStream = true → t.mem = s.mem.clearRuntime

/-- Class D cleared. -/
theorem State.clearRuntime_spec (r : Retention) (cfgsel : Nat) (spi : Bool) :
    s.Cleared (s.clearRuntime r cfgsel spi) r cfgsel spi := by
  obtain ⟨m, a, he⟩ := s.clearExposure_frame
  obtain ⟨n, l, k, hl⟩ := s.clearExposure.clearLanes_frame
  obtain ⟨hfree, hrun⟩ := State.clearLanes_free (s := s.clearExposure)
  have hmem : s.idleStream = true → s.clearExposure.clearLanes.mem = s.mem := fun hidle => by
    have hexp := State.clearExposure_of_idle hidle
    obtain ⟨-, -, -, -, hspill⟩ := State.idleStream_iff.1 hidle
    rw [State.clearLanes_mem_of_idle (by rw [hexp]; exact hspill), hexp]
  have hfree' : s.clearExposure.free = s.free := by rw [he]
  rw [hfree'] at hfree
  rw [hl] at hfree
  refine ⟨?_, ?_, fun hidle => congrArg Memory.clearRuntime (hmem hidle)⟩
  · unfold State.clearRuntime
    rw [hl, he]
    dsimp only at hfree ⊢
    rw [hfree]
    cases r <;> rfl
  · exact hrun

/-! ### Stores that lose what they held (R121, R623) -/

/-- From `s` to `t` only the memories, the head's marks and `lossRegs` have changed. -/
structure State.Loses (s t : State) : Prop where
  frame : t = { s with regs := t.regs, mem := t.mem, flt := { s.flt with head := t.flt.head } }
  kept : ∀ a i, i < 256 → a ∉ lossRegs → t.reg a i = s.reg a i

theorem State.Loses.refl : s.Loses s := ⟨rfl, fun _ _ _ _ => rfl⟩

theorem State.Loses.trans {u : State} (h : s.Loses t) (h' : t.Loses u) : s.Loses u where
  frame := by
    have he := h'.frame
    rw [h.frame] at he
    exact he
  kept := fun a i hi ha => (h'.kept a i hi ha).trans (h.kept a i hi ha)

/-- The head's entries without their mark of the LOG store. -/
def Faults.uncopied (f : Faults) : Cells (Option FaultEntry) :=
  Cells.mapEntries none (fun _ e => e.map fun x => { x with copied := false }) f.head

/-- A store lost: what it changes, its words, and the head's marks. -/
theorem State.loseStore_spec {id : Nat} (h : id ∈ classC) :
    s.Loses (s.loseStore id) ∧ (s.loseStore id).mem = s.mem.clearStore id ∧
      (s.loseStore id).flt.head = if id = Store.log then s.flt.uncopied else s.flt.head := by
  have hflag : ∀ (t : State) f, t.setFlag f false = t.setFld f 0 := fun t f => State.setFlag_unmarked rfl 0
  have hin : (!classC.contains id) = false := by simp [h]
  have hframe : (s.loseStore id) = { s with
      regs := (s.loseStore id).regs, mem := s.mem.clearStore id
      flt := { s.flt with head := if id = Store.log then s.flt.uncopied else s.flt.head } } := by
    unfold State.loseStore
    rw [hin, if_neg Bool.false_ne_true]
    dsimp only
    simp only [hflag]
    cases bankedOf id <;> dsimp only <;> split_ifs <;> rfl
  refine ⟨⟨?_, fun a i hi ha => State.loseStore_reg id hi ha⟩, by rw [hframe], by rw [hframe]⟩
  generalize s.loseStore id = t at *
  rw [hframe]

/-- Stores of class C lost one after the other. -/
theorem State.foldl_loseStore {l : List Nat} (hl : ∀ id ∈ l, id ∈ classC) :
    s.Loses (l.foldl State.loseStore s) ∧ (l.foldl State.loseStore s).mem = l.foldl Memory.clearStore s.mem := by
  induction l generalizing s with
  | nil => exact ⟨.refl, rfl⟩
  | cons id l ih =>
    obtain ⟨hlose, hmem, -⟩ := State.loseStore_spec (s := s) (hl id List.mem_cons_self)
    obtain ⟨hloses, hmems⟩ := ih (s := s.loseStore id) fun x hx => hl x (List.mem_cons_of_mem _ hx)
    rw [hmem] at hmems
    exact ⟨hlose.trans hloses, hmems⟩

/-- The stores of class C lost: the head's entries lose their mark once, with the LOG store. -/
theorem State.loseAll_head : (classC.foldl State.loseStore s).flt.head = s.flt.uncopied := by
  have hother : ∀ (t : State) id, id ∈ classC → id ≠ Store.log → (t.loseStore id).flt.head = t.flt.head := fun t id h hne =>
    (State.loseStore_spec h).2.2.trans (if_neg hne)
  have hlog : ∀ t : State, (t.loseStore Store.log).flt.head = t.flt.uncopied := fun t =>
    (State.loseStore_spec (by decide)).2.2.trans (if_pos rfl)
  show ((((((((s.loseStore 1).loseStore 2).loseStore 3).loseStore 4).loseStore 5).loseStore Store.log).loseStore 8).loseStore
    10).flt.head = _
  rw [hother _ 10 (by decide) (by decide), hother _ 8 (by decide) (by decide), hlog]
  unfold Faults.uncopied
  rw [hother _ 5 (by decide) (by decide), hother _ 4 (by decide) (by decide), hother _ 3 (by decide) (by decide),
    hother _ 2 (by decide) (by decide), hother _ 1 (by decide) (by decide)]

/-! ### Words of a cleared store -/

/-- A cleared store has no valid word, and no other word becomes valid. -/
theorem Memory.isValid_clearStore (m : Memory) (id : Nat) (w : WordAddr) : (m.clearStore id).isValid w =
    if bankBase id false ≤ w.key ∧ w.key < bankBase id false + 2 ^ 24 then false else m.isValid w := by
  unfold Memory.isValid Memory.clearStore Cells.drop
  dsimp only
  rw [Cells.get_filter_key m.valid (fun k => !(decide (bankBase id false ≤ k) && decide (k < bankBase id false + 2 ^ 24)))]
  by_cases h : bankBase id false ≤ w.key ∧ w.key < bankBase id false + 2 ^ 24
  · rw [if_pos h, if_neg (by simpa using h)]
  · rw [if_neg h, if_pos]
    simp only [Bool.not_eq_true', Bool.and_eq_false_iff, decide_eq_false_iff_not]
    omega

/-- The word of a store that is cleared. -/
theorem Memory.isValid_clearStore_self (m : Memory) {w : WordAddr} (hw : w.word < 2 ^ 23) :
    (m.clearStore w.store).isValid w = false := by
  rw [Memory.isValid_clearStore, if_pos]
  have hb : bit w.bank ≤ 1 := by cases w.bank <;> decide
  unfold WordAddr.key bankBase
  simp only [bit, Bool.false_eq_true, if_false] at hb ⊢
  omega

/-- A word that is not valid stays so. -/
theorem Memory.isValid_clearStore_of {m : Memory} {w : WordAddr} (h : m.isValid w = false) (id : Nat) :
    (m.clearStore id).isValid w = false := by
  rw [Memory.isValid_clearStore, h, ite_self]

/-- The words of stores cleared one after the other. -/
theorem Memory.isValid_foldl_clearStore {w : WordAddr} (hw : w.word < 2 ^ 23) {l : List Nat} (m : Memory)
    (h : w.store ∈ l ∨ m.isValid w = false) : (l.foldl Memory.clearStore m).isValid w = false := by
  induction l generalizing m with
  | nil => exact h.resolve_left (by simp)
  | cons id l ih =>
    refine ih (m.clearStore id) ?_
    rcases h with h | h
    · rcases List.mem_cons.1 h with rfl | h
      · exact .inr (m.isValid_clearStore_self hw)
      · exact .inl h
    · exact .inr (Memory.isValid_clearStore_of h id)

/-- Class D cleared makes no word valid, and those of the Slate invalid. -/
theorem Memory.isValid_clearRuntime {m : Memory} {w : WordAddr} (hw : w.word < 2 ^ 23)
    (h : w.store = Store.slate ∨ m.isValid w = false) : m.clearRuntime.isValid w = false := by
  show (m.clearStore Store.slate).isValid w = false
  rcases h with h | h
  · rw [← h]
    exact m.isValid_clearStore_self hw
  · exact Memory.isValid_clearStore_of h _

end Sys2Proof.Machine
end

section
/-! PROOF.
Power requests: Standby, Dormant and the wake from Standby.
-/
namespace Sys2Proof.Machine

variable {s t : State}

/-! ### PWR_CTRL (R85, R86) -/

/-- A request by the port, as its status in this state has it. -/
theorem State.exec_request (h : s.live = true) :
    exec .pwrReqStandby s = .next (if s.reqCheck 1 = Status.ok then s.request 1 else s) ∧
      exec .pwrReqArmed s = .next (if s.reqCheck 2 = Status.ok then s.request 2 else s) ∧
      exec .pwrReqDormant s = .next (if s.reqCheck 3 = Status.ok then s.request 3 else s) :=
  ⟨congrArg Host.Outcome.next (State.hostWrite_of_live h R.PWR_CTRL 1 3 false),
    congrArg Host.Outcome.next (State.hostWrite_of_live h R.PWR_CTRL 2 3 false),
    congrArg Host.Outcome.next (State.hostWrite_of_live h R.PWR_CTRL 3 3 false)⟩

/-! ### Retained registers (Table 03-10) -/

/-- The registers after an event whose own writes lie in `except`. -/
theorem State.retains_of {r : Retention} {cfgsel : Nat} {spi : Bool} {except : List Nat} {u : State}
    (hpart : u.part = s.part)
    (hu : ∀ a i b, i < 256 → a ∉ except → (keptMask r a).testBit b = true → (u.reg a i).getLsbD b = (s.reg a i).getLsbD b)
    (ht : ∀ a i, i < 256 → a ∉ except → t.reg a i = Cells.get 0 (u.retained r cfgsel spi) (regKey a i)) :
    s.retains t r cfgsel spi except := by
  intro a i b hm ha hb
  have hi : i < 256 := snd_lt_of_mem_allRegs hm
  rw [ht a i hi ha, State.getLsbD_retained r cfgsel spi hm hb, hpart]
  split
  next hk => exact hu a i b hi ha hk
  next => rfl

/-! ### Entry to Standby and to Dormant (R88, R89) -/

/-- What the entry to Dormant leaves of the units, the stores and the registers. -/
structure State.Sleeps (s t : State) (cfgsel : Nat) (spi : Bool) : Prop where
  pwr : t.pwr.state = .dormant ∧ t.pwr.rails = Rails.off
  port : t.port.resp = .empty ∧ t.port.kept = none
  units : t.bnd = Bindery.init ∧ t.exp = Exposure.init ∧ t.spn = Spine.init ∧ t.pos = Position.init ∧
    t.aux = Aux.init ∧ t.agt = Agate.init ∧ t.pb = PBus.init
  logs : t.flt.events = [] ∧ t.flt.head = s.flt.uncopied ∧ t.bst.record = s.bst.record
  regs : s.retains t .dormant cfgsel spi [R.SYS_STORE_LOST, R.SYS_STATUS, R.FLT_LOG_WR, R.AGT_TRACE, R.BND_STATUS]
  mem : ∀ w : WordAddr, w.store ∈ classC ∨ w.store = Store.slate → w.word < 2 ^ 23 → t.mem.isValid w = false
  other : t.pending = s.pending ∧ t.part = s.part

/-- The entry to Dormant with no frame left. -/
theorem State.enterDormant_spec (hidle : s.idleStream = true) :
    s.Sleeps s.enterDormant (F.SYS_STRAPS_CFGSEL.of (s.reg R.SYS_STRAPS)) (F.SYS_STRAPS_SPIMODE.of (s.reg R.SYS_STRAPS) == 1) := by
  obtain ⟨hlose, hstores⟩ := State.foldl_loseStore (s := { s with bnd := Bindery.init }) (l := classC) fun _ h => h
  have hhead : _ = s.flt.uncopied := State.loseAll_head (s := { s with bnd := Bindery.init })
  have hlost : ∀ a ∈ lossRegs, a ∈ [R.SYS_STORE_LOST, R.SYS_STATUS, R.FLT_LOG_WR, R.AGT_TRACE, R.BND_STATUS] := by decide
  have hrails := s.enterDormant_rails
  have hrecord := s.enterDormant_record
  unfold State.enterDormant at hrails hrecord ⊢
  dsimp only at hrails hrecord ⊢
  generalize classC.foldl State.loseStore { s with bnd := Bindery.init } = u at *
  have hframe : u = { s with
      bnd := Bindery.init, regs := u.regs, mem := u.mem, flt := { s.flt with head := u.flt.head } } := hlose.frame
  have hidle' : u.idleStream = true := by rw [hframe]; exact hidle
  obtain ⟨hcleared, -, hmem⟩ := u.clearRuntime_spec .dormant (F.SYS_STRAPS_CFGSEL.of (s.reg R.SYS_STRAPS))
    (F.SYS_STRAPS_SPIMODE.of (s.reg R.SYS_STRAPS) == 1)
  have hmem := hmem hidle'
  generalize u.clearRuntime .dormant (F.SYS_STRAPS_CFGSEL.of (s.reg R.SYS_STRAPS))
    (F.SYS_STRAPS_SPIMODE.of (s.reg R.SYS_STRAPS) == 1) = v at *
  refine ⟨⟨rfl, hrails⟩, ⟨rfl, rfl⟩, ⟨?_, ?_, ?_, ?_, ?_, rfl, rfl⟩, ⟨?_, ?_, hrecord⟩, ?_, fun w hw hb => ?_, ?_, ?_⟩
  · exact (congrArg State.bnd hcleared :).trans (congrArg State.bnd hframe :)
  · exact (congrArg State.exp hcleared :)
  · exact (congrArg State.spn hcleared :)
  · exact (congrArg State.pos hcleared :)
  · exact (congrArg State.aux hcleared :)
  · exact (congrArg (fun x : State => x.flt.events) hcleared :)
  · exact (congrArg (fun x : State => x.flt.head) hcleared :).trans hhead
  · exact State.retains_of (u := u) (congrArg State.part hframe :)
      (fun a i b hi ha _ => congrArg (fun w : Word => w.getLsbD b) (hlose.kept a i hi fun h => ha (hlost a h))) fun a i _ _ =>
        congrArg (fun c => Cells.get 0 c (regKey a i)) (congrArg State.regs hcleared :)
  · show v.mem.isValid w = false
    rw [hmem, hstores]
    exact Memory.isValid_clearRuntime hb (hw.symm.imp id fun h => Memory.isValid_foldl_clearStore hb _ (.inl h))
  · exact (congrArg State.pending hcleared :).trans (congrArg State.pending hframe :)
  · exact (congrArg State.part hcleared :).trans (congrArg State.part hframe :)

/-- Settles O25. -/
theorem powerRequests : Obligations.PowerRequests := by
  unfold Obligations.PowerRequests
  intro s htxn hsync hmute cfgsel spi
  have hlive : s.pwr.state = .armed ∨ s.pwr.state = .standby → s.live = true := fun h => State.live_iff.2
    ⟨by rcases h with h | h <;> simp [State.up, h], by simp [State.commitDue, htxn], hmute⟩
  refine ⟨fun hs hidle => ?standby, fun hs hidle => ?dormant, fun hs hwarn hinj => ?wake, fun hs => ?armed, fun hs => ?same⟩
  case standby =>
    have hgo : (if s.reqCheck 1 = Status.ok then s.request 1 else s) = s.enterStandby := by
      have hcheck : s.reqCheck 1 = Status.ok := by simp [State.reqCheck, hs, htxn]
      rw [if_pos hcheck]
      unfold State.request
      rw [hs]
      rfl
    obtain ⟨hframe, hrun, hmem⟩ := s.clearRuntime_spec .standby cfgsel spi
    have henter : s.enterStandby = (let u := s.clearRuntime .standby cfgsel spi
      ({ u with agt := Agate.init, pb := { u.pb with buffer := [] } }.setPwr
        { u.pwr with state := .standby, safeWhy := .notSafe }).railsDownTo 4) := by
      unfold State.enterStandby
      rw [State.finishSyncs_of_none hsync]
    refine ⟨_, (State.exec_request (hlive (.inl hs))).1.trans (congrArg Host.Outcome.next (hgo.trans henter)), ?_, ?_, hrun⟩
    · have hm := hmem hidle
      generalize s.clearRuntime .standby cfgsel spi = u at *
      rw [hm] at hframe
      rw [hframe]
      unfold State.railsDownTo Rails.upTo
      simp [State.setPwr, Retention.keepsB]
    · exact State.retains_of (u := s) rfl (fun _ _ _ _ _ _ => rfl) fun a i _ _ =>
        congrArg (fun c => Cells.get 0 c (regKey a i)) (congrArg State.regs hframe :)
  case dormant =>
    have hgo : (if s.reqCheck 3 = Status.ok then s.request 3 else s) = s.enterDormant := by
      have hcheck : s.reqCheck 3 = Status.ok := by rcases hs with hs | hs <;> simp [State.reqCheck, hs, htxn]
      rw [if_pos hcheck]
      unfold State.request
      rcases hs with hs | hs <;> rw [hs] <;> rfl
    obtain ⟨⟨hstate, hrails⟩, ⟨hresp, hkept⟩, ⟨hbnd, hexp, hspn, hpos, haux, hagt, hpb⟩, ⟨hevents, hhead, hrecord⟩, hregs,
      hmem, hpending, hpart⟩ := State.enterDormant_spec hidle
    exact ⟨_, (State.exec_request (hlive hs)).2.2.trans (congrArg Host.Outcome.next hgo), hstate, hrails, hresp, hkept, hbnd,
      hexp, hspn, hpos, haux, hagt, hpb, hevents, hhead, hrecord, hregs, hmem, hpending, hpart⟩
  case wake =>
    have hgo : (if s.reqCheck 2 = Status.ok then s.request 2 else s) = s.wake .standby true 5 := by
      have hcheck : s.reqCheck 2 = Status.ok := by simp [State.reqCheck, hs]
      rw [if_pos hcheck]
      unfold State.request
      rw [hs]
      rfl
    rw [(State.exec_request (hlive (.inr hs))).2.1, hgo]
    refine congrArg Host.Outcome.next ((if_neg (by simp [hwarn])).trans ((State.startStep_of_none (s := { s with
      port := s.port.clockTo false
      pwr := { s.pwr with from_ := s.pwr.state, state := .waking, kind := .standby, toArmed := true } }) hinj 5).trans ?_))
    unfold State.armStep
    simp [State.setPwr, hs, hwarn]
  case armed =>
    have hgo : (if s.reqCheck 2 = Status.ok then s.request 2 else s) = s := by
      unfold State.request
      rw [hs]
      exact ite_self s
    rw [(State.exec_request (hlive (.inl hs))).2.1, hgo]
  case same =>
    have hgo : (if s.reqCheck 1 = Status.ok then s.request 1 else s) = s := by
      unfold State.request
      rw [hs]
      exact ite_self s
    rw [(State.exec_request (hlive (.inr hs))).1, hgo]

end Sys2Proof.Machine
end

section
/-! PROOF.
Resets of every class: what their first tick leaves.
-/
namespace Sys2Proof.Machine

variable {s t : State} {c : ResetClass} {wdog : Bool}

/-! ### A BULK_WR in progress, and the stores (R121, R124) -/

/-- What a reset leaves of a BULK_WR in progress changes memory words and takes free values. -/
theorem State.halfWritten_frame :
    s.halfWritten = { s with mem := s.halfWritten.mem, free := s.halfWritten.free } ∧
      s.halfWritten.mem.failing = s.mem.failing := by
  unfold State.halfWritten
  refine List.foldlRecOn (motive := fun t : State => t = { s with mem := t.mem, free := t.free } ∧
    t.mem.failing = s.mem.failing) s.port.undo _ ⟨rfl, rfl⟩ fun t ⟨hframe, hfail⟩ e _ => ?_
  dsimp only
  split
  · exact ⟨by rw [hframe]; rfl, hfail⟩
  · exact ⟨by rw [hframe]; rfl, hfail⟩

/-- With no BULK_WR in progress there is nothing half written. -/
theorem State.halfWritten_of_none (h : s.port.undo = []) : s.halfWritten = s := by
  unfold State.halfWritten
  rw [h]
  rfl

/-- The resets that leave no store of class C (Table 03-9). -/
def ResetClass.losesStores (c : ResetClass) : Bool := c == .por || c == .bor

/-- What a reset of class `c` leaves of the stores and the logs. -/
structure State.StoresReset (s t : State) (c : ResetClass) : Prop where
  frame : t = { s with
    regs := t.regs, bnd := t.bnd, mem := t.mem, flt := { s.flt with head := t.flt.head, active := [] }
    bst := { record := if c = .por then [] else s.bst.record, start := .notRead, run := none } }
  bnd : t.bnd.txn = .idle ∧ t.bnd.staged = []
  regs : ∀ a i, i < 256 → c.losesStores = false ∨ a ∉ lossRegs → t.reg a i = s.reg a i
  mem : t.mem = if c.losesStores then classC.foldl Memory.clearStore s.mem else s.mem
  head : (c = .por → t.flt.head = []) ∧ (c.losesStores = false → t.flt.head = s.flt.head)

/-- The stores and the logs in a reset. -/
theorem State.resetStores_spec (h : s.mem.failing = [] ∨ c.losesStores = true) : s.StoresReset (s.resetStores c) c := by
  cases hc : c.losesStores with
  | true =>
    obtain ⟨hlose, hmem⟩ := State.foldl_loseStore (s := s) (l := classC) fun _ h => h
    have hregs : ∀ u : State, u.regs = (classC.foldl State.loseStore s).regs → ∀ a i, i < 256 →
        c.losesStores = false ∨ a ∉ lossRegs → u.reg a i = s.reg a i := fun u hu a i hi ha =>
      (congrArg (fun r => Cells.get 0 r (regKey a i)) hu).trans (hlose.kept a i hi (ha.resolve_left (by simp [hc])))
    have hframe := hlose.frame
    unfold State.resetStores
    rw [show (c == .por || c == .bor) = true from hc]
    simp only [if_true, Bool.true_or]
    generalize classC.foldl State.loseStore s = u at *
    refine ⟨?_, ⟨rfl, rfl⟩, hregs _ rfl, hmem.trans (if_pos hc).symm, ?_⟩
    · rw [hframe]
    · exact ⟨fun h => if_pos h, fun h => absurd (hc.symm.trans h) (by decide)⟩
  | false =>
    have hfail : s.mem.failing = [] := h.resolve_right (by simp [hc])
    have hpor : c ≠ .por := by rintro rfl; cases hc
    unfold State.resetStores
    rw [show (c == .por || c == .bor) = false from hc, hfail]
    refine ⟨?_, ⟨rfl, rfl⟩, fun a i _ _ => rfl, (if_neg (by simp [hc])).symm, fun h => absurd h hpor, fun _ => if_neg hpor⟩
    simp [hpor]

/-! ### A reset starts (R112 to R121) -/

/-- The power unit in the first tick of a reset of class `c`. -/
def Power.restarted (p : Power) (c : ResetClass) : Power :=
  { p with
    state := if p.inReset = some .por then .off else .waking
    safeWhy := .notSafe, from_ := .armed, kind := .reset c, toArmed := true, step := 0
    stepRunning := false, supplyWait := false, warn := p.warnReal || c.losesStores, warnReal := p.warnReal || c.losesStores
    hold := false, holdCount := false, rails := Rails.off, cp1Ok := false, cp2Ok := false, droop1 := none, droop2 := none
    mute := p.mute && c != .pin && c != .por }

/-- The power unit once a reset has started: held, or at its first step, or waiting for the supply. -/
def Power.afterReset (p : Power) (c : ResetClass) : Power :=
  if p.held then p.restarted c
  else { p.restarted c with
    step := 1, stepRunning := !(p.warnReal || c.losesStores), supplyWait := p.warnReal || c.losesStores }

/-- From `s`, with what a BULK_WR has half written, to `t` a reset of class `c` has started. -/
structure State.Resets (s t : State) (c : ResetClass) (wdog : Bool) : Prop where
  was : s.wasReset { t with fresh := [] } c
  fresh : s.flt.mark = false → t.fresh = []
  wdogFlag : t.flag F.SYS_RESET_CAUSE_FAULT_WDOG = (c == .fault && wdog)
  marked : s.flt.mark = true → t.flag F.FLT_STATUS_INJ_RESET = true
  pwr : t.pwr = s.pwr.afterReset c
  mem : s.idleStream = true → t.mem = (if c.losesStores then classC.foldl Memory.clearStore s.mem else s.mem).clearRuntime
  head : (c = .por → t.flt.head = []) ∧ (c.losesStores = false → t.flt.head = s.flt.head)
  regs : ∀ except, R.SYS_RESET_CAUSE ∈ except → (s.flt.mark = true → R.FLT_STATUS ∈ except) →
    (∀ a ∈ lossRegs, c.losesStores = false ∨ a ∈ except ∨ keptMask (.reset c) a = 0) →
    s.retains t (.reset c) (if c = .por then 0 else F.SYS_STRAPS_CFGSEL.of (s.reg R.SYS_STRAPS))
      (decide (c ≠ .por) && F.SYS_STRAPS_SPIMODE.of (s.reg R.SYS_STRAPS) == 1) except

/-- SYS_RESET_CAUSE as a reset leaves it. -/
def State.classed (s : State) (c : ResetClass) (wdog : Bool) : State :=
  ((s.setFld F.SYS_RESET_CAUSE_CLASS c.code).setFlag F.SYS_RESET_CAUSE_FAULT_WDOG (c == .fault && wdog)).setFlag
    F.SYS_RESET_CAUSE_FROM_DORMANT false

/-- The fields of SYS_RESET_CAUSE that a reset writes. -/
def causeFields : List (Field × Nat) :=
  [(F.SYS_RESET_CAUSE_CLASS, 0), (F.SYS_RESET_CAUSE_FAULT_WDOG, 0), (F.SYS_RESET_CAUSE_FROM_DORMANT, 0)]

/-- From `s` to `t` a reset of class `c` is named in SYS_RESET_CAUSE, and only registers have changed. -/
structure State.Named (s t : State) (c : ResetClass) (wdog : Bool) : Prop where
  only : s.OnlyRegs t
  cause : t.fld F.SYS_RESET_CAUSE_CLASS = c.code
  wdogFlag : t.flag F.SYS_RESET_CAUSE_FAULT_WDOG = (c == .fault && wdog)
  dormant : t.flag F.SYS_RESET_CAUSE_FROM_DORMANT = false

/-- SYS_RESET_CAUSE in a reset. -/
theorem State.classed_spec (c : ResetClass) (wdog : Bool) : s.Named (s.classed c wdog) c wdog ∧
    (s.classed c wdog).fresh = s.fresh ∧ s.regsKept (s.classed c wdog) causeFields := by
  unfold State.classed
  have h1 : s.regsKept (s.setFld F.SYS_RESET_CAUSE_CLASS c.code) [(F.SYS_RESET_CAUSE_CLASS, 0)] :=
    State.setFld_kept (by decide) _
  have hclass : (s.setFld F.SYS_RESET_CAUSE_CLASS c.code).fld F.SYS_RESET_CAUSE_CLASS = c.code :=
    State.fld_setFld_of_lt (by decide) (show c.code < 2 ^ 3 by cases c <;> decide)
  have ho1 : s.OnlyRegs (s.setFld F.SYS_RESET_CAUSE_CLASS c.code) := .setFld _ _ _
  have hf1 : (s.setFld F.SYS_RESET_CAUSE_CLASS c.code).fresh = s.fresh := rfl
  generalize s.setFld F.SYS_RESET_CAUSE_CLASS c.code = u at *
  have h2 : u.regsKept (u.setFlag F.SYS_RESET_CAUSE_FAULT_WDOG (c == .fault && wdog)) [(F.SYS_RESET_CAUSE_FAULT_WDOG, 0)] :=
    State.setFlag_kept (by decide) _
  have hwdog : (u.setFlag F.SYS_RESET_CAUSE_FAULT_WDOG (c == .fault && wdog)).flag F.SYS_RESET_CAUSE_FAULT_WDOG =
      (c == .fault && wdog) := State.flag_setFlag _ (by decide) (by decide) _ _
  have ho2 : u.OnlyRegs (u.setFlag F.SYS_RESET_CAUSE_FAULT_WDOG (c == .fault && wdog)) := .setFlag _ _ _
  have hf2 : (u.setFlag F.SYS_RESET_CAUSE_FAULT_WDOG (c == .fault && wdog)).fresh = u.fresh := by
    rw [State.setFlag_unmarked (by rw [Bool.and_comm]; rfl)]
    rfl
  generalize u.setFlag F.SYS_RESET_CAUSE_FAULT_WDOG (c == .fault && wdog) = v at *
  have h3 : v.regsKept (v.setFlag F.SYS_RESET_CAUSE_FROM_DORMANT false) [(F.SYS_RESET_CAUSE_FROM_DORMANT, 0)] :=
    State.setFlag_kept (by decide) _
  exact ⟨⟨(ho1.trans ho2).trans (.setFlag _ _ _), ((h2.append h3).fld_apart (by decide)).trans hclass,
    (h3.flag_apart (by decide)).trans hwdog, State.flag_setFlag _ (by decide) (by decide) _ _⟩, hf2.trans hf1,
    h1.append (h2.append h3)⟩

/-- The registers that name a reset. -/
def State.named (s : State) (c : ResetClass) (wdog inj : Bool) : State :=
  let t := s.classed c wdog
  if inj then t.setFlag F.FLT_STATUS_INJ_RESET true else t

/-- The registers that name a reset, written. -/
theorem State.named_spec (c : ResetClass) (wdog inj : Bool) : s.Named (s.named c wdog inj) c wdog ∧
    (inj = false → (s.named c wdog inj).fresh = s.fresh) ∧ (inj = true → (s.named c wdog inj).flag F.FLT_STATUS_INJ_RESET = true) ∧
    s.regsKept (s.named c wdog inj) (causeFields ++ if inj then [(F.FLT_STATUS_INJ_RESET, 0)] else []) := by
  obtain ⟨⟨honly, hclass, hwdog, hdormant⟩, hfresh, hkept⟩ := State.classed_spec (s := s) c wdog
  unfold State.named
  generalize s.classed c wdog = u at *
  cases inj with
  | false => exact ⟨⟨honly, hclass, hwdog, hdormant⟩, fun _ => hfresh, (nomatch ·), hkept⟩
  | true =>
    simp only [if_true]
    have h4 : u.regsKept (u.setFlag F.FLT_STATUS_INJ_RESET true) [(F.FLT_STATUS_INJ_RESET, 0)] := State.setFlag_kept (by decide) _
    exact ⟨⟨honly.trans (.setFlag _ _ _), (h4.fld_apart (by decide)).trans hclass, (h4.flag_apart (by decide)).trans hwdog,
      (h4.flag_apart (by decide)).trans hdormant⟩, (nomatch ·), fun _ => State.flag_setFlag _ (by decide) (by decide) _ _,
      hkept.append h4⟩

/-- The units in the first tick of a reset, before the registers that name it and the power unit. -/
def State.unitsReset (s : State) (c : ResetClass) (cfgsel : Nat) (spi : Bool) : State :=
  let t := (s.resetStores c).clearRuntime (.reset c) cfgsel spi
  { t with pb := PBus.init, agt := Agate.init, port := Port.init (t.flag F.CP_MODE_SPI) false, clk := t.clk.off }

/-- A reset that nothing outranks, unit by unit. -/
theorem State.startReset_eq (hw : s.pwr.state ≠ .waking) (ho : s.pwr.state ≠ .off)
    (h : s.mem.failing = [] ∨ c.losesStores = true) (cfgsel : Nat) (spi : Bool)
    (hcfgsel : cfgsel = if c = .por then 0 else F.SYS_STRAPS_CFGSEL.of (s.reg R.SYS_STRAPS))
    (hspi : spi = (decide (c ≠ .por) && F.SYS_STRAPS_SPIMODE.of (s.reg R.SYS_STRAPS) == 1)) :
    s.startReset c wdog =
      ((s.halfWritten.unitsReset c cfgsel spi).named c wdog s.flt.mark).setPwr (s.pwr.afterReset c) := by
  have hclass : s.resetClass c = c := by
    have hsoft : ¬(c = .soft ∧ s.mem.failing ≠ []) := by
      rintro ⟨rfl, hne⟩
      exact hne (h.resolve_right (by decide))
    unfold State.resetClass
    rw [if_neg hsoft]
    cases s.pwr.kind <;> simp [hw, ho]
  unfold State.startReset
  rw [hclass]
  dsimp only
  rw [← hcfgsel, ← hspi]
  have hheld : (s.pwr.restarted c).held = s.pwr.held := rfl
  have hwake := State.beginWake_eq (s := ((s.halfWritten.unitsReset c cfgsel spi).named c wdog s.flt.mark).setPwr
    (s.pwr.restarted c)) rfl 1
  unfold Power.afterReset
  rw [← hheld]
  change (if (s.pwr.restarted c).held = true then
      ((s.halfWritten.unitsReset c cfgsel spi).named c wdog s.flt.mark).setPwr (s.pwr.restarted c)
    else (((s.halfWritten.unitsReset c cfgsel spi).named c wdog s.flt.mark).setPwr (s.pwr.restarted c)).beginWake 1) = _
  rw [hwake]
  split <;> rfl

/-- What a reset that nothing outranks leaves. -/
theorem State.startReset_spec (hw : s.pwr.state ≠ .waking) (ho : s.pwr.state ≠ .off)
    (h : s.mem.failing = [] ∨ c.losesStores = true) : s.halfWritten.Resets (s.startReset c wdog) c wdog := by
  obtain ⟨hhalf, hfail⟩ := s.halfWritten_frame
  rw [State.startReset_eq hw ho h _ _ rfl rfl]
  have hpwr : s.halfWritten.pwr = s.pwr := (congrArg State.pwr hhalf :)
  have hmark : s.halfWritten.flt.mark = s.flt.mark := (congrArg (fun x : State => x.flt.mark) hhalf :)
  have hstraps : s.halfWritten.reg R.SYS_STRAPS = s.reg R.SYS_STRAPS := (congrArg (fun x : State => x.reg R.SYS_STRAPS) hhalf :)
  rw [← hpwr, ← hmark, ← hstraps]
  obtain ⟨hframe, ⟨htxn, hstaged⟩, hregs, hmem, hhead⟩ :=
    State.resetStores_spec (s := s.halfWritten) (c := c) (by rw [hfail]; exact h)
  generalize hcfgsel : (if c = .por then 0 else F.SYS_STRAPS_CFGSEL.of (s.halfWritten.reg R.SYS_STRAPS)) = cfgsel
  generalize hspi : (decide (c ≠ .por) && F.SYS_STRAPS_SPIMODE.of (s.halfWritten.reg R.SYS_STRAPS) == 1) = spi
  unfold State.unitsReset
  generalize s.halfWritten = v at *
  generalize v.resetStores c = u at *
  obtain ⟨hcleared, -, hcmem⟩ := u.clearRuntime_spec (.reset c) cfgsel spi
  have hidle : v.idleStream = true → u.idleStream = true := fun hi => by rw [hframe]; exact hi
  generalize u.clearRuntime (.reset c) cfgsel spi = w at *
  obtain ⟨⟨honly, hclass, hwdog, hdormant⟩, hfresh, hinj, hkept⟩ := State.named_spec (s := { w with
    pb := PBus.init, agt := Agate.init, port := Port.init (w.flag F.CP_MODE_SPI) false, clk := w.clk.off }) c wdog v.flt.mark
  dsimp only
  generalize State.named _ c wdog v.flt.mark = n at *
  have hmode : n.flag F.CP_MODE_SPI = w.flag F.CP_MODE_SPI := hkept.flag_apart (by cases v.flt.mark <;> decide)
  unfold State.OnlyRegs at honly
  have hu : w = { v with
      regs := w.regs, bnd := u.bnd, exp := Exposure.init, cnv := Conversion.init, lanes := w.lanes, spn := Spine.init
      pos := Position.init, aux := Aux.init, tmp := Temperature.init, mem := w.mem, clk := v.clk.clearTime
      bst := { record := if c = .por then [] else v.bst.record, start := .notRead, run := none }
      flt := { v.flt with events := [], pending := none, head := u.flt.head, active := [] }, lines := 0
      past := [], fresh := [], free := v.free + 13 } := by
    generalize hwregs : w.regs = r
    have hr : u.retained (.reset c) cfgsel spi = r := (congrArg State.regs hcleared :).symm.trans hwregs
    rw [hr, hframe] at hcleared
    exact hcleared
  have hn : n = { v with
      regs := n.regs, clk := v.clk.off, port := Port.init (n.flag F.CP_MODE_SPI) false, bnd := u.bnd
      exp := Exposure.init, cnv := Conversion.init, lanes := w.lanes, spn := Spine.init, pos := Position.init
      aux := Aux.init, tmp := Temperature.init, agt := Agate.init, pb := PBus.init, mem := w.mem
      bst := { record := if c = .por then [] else v.bst.record, start := .notRead, run := none }
      flt := { v.flt with events := [], pending := none, head := u.flt.head, active := [] }, lines := 0
      past := [], fresh := n.fresh, free := v.free + 13 } := by
    rw [hmode]
    exact honly.trans (congrArg (fun x : State => { x with
      regs := n.regs, fresh := n.fresh, pb := PBus.init, agt := Agate.init
      port := Port.init (w.flag F.CP_MODE_SPI) false, clk := x.clk.off }) hu)
  have hbnd : n.bnd = u.bnd := (congrArg State.bnd hn :)
  have hlanes : n.lanes = w.lanes := (congrArg State.lanes hn :)
  have hwmem : n.mem = w.mem := (congrArg State.mem hn :)
  have hflt : n.flt = { v.flt with events := [], pending := none, head := u.flt.head, active := [] } := (congrArg State.flt hn :)
  rw [← hbnd, ← hlanes, ← hwmem, ← hflt] at hn
  rw [← hbnd] at htxn hstaged
  have hrails : (v.pwr.afterReset c).rails = Rails.off ∧ (v.pwr.afterReset c).kind = .reset c ∧
      (v.pwr.afterReset c).toArmed = true ∧ (v.pwr.afterReset c).safeWhy = .notSafe := by
    unfold Power.afterReset
    split <;> exact ⟨rfl, rfl, rfl, rfl⟩
  refine ⟨⟨congrArg (fun x : State => { x with pwr := v.pwr.afterReset c, fresh := [] }) hn, htxn, hstaged, ?_, ?_, ?_,
    hclass, hdormant, hrails⟩, fun hm => (hfresh hm).trans (congrArg State.fresh hu :), hwdog, hinj, rfl, fun hi => ?_, ?_,
    fun except hcause hstatus hlost => ?_⟩
  · exact (congrArg Faults.events hflt :)
  · exact (congrArg Faults.pending hflt :)
  · exact (congrArg Faults.active hflt :)
  · exact hwmem.trans ((hcmem (hidle hi)).trans (congrArg Memory.clearRuntime hmem))
  · have hh : n.flt.head = u.flt.head := (congrArg Faults.head hflt :)
    exact ⟨fun hc => hh.trans (hhead.1 hc), fun hc => hh.trans (hhead.2 hc)⟩
  · rw [hcfgsel, hspi]
    refine State.retains_of (u := u) (congrArg State.part hframe :) (fun a i b hi ha hk => ?_) fun a i hi ha => ?_
    · refine congrArg (fun x : Word => x.getLsbD b) (hregs a i hi (or_iff_not_imp_right.2 fun hin => ?_))
      rcases hlost a (not_not.1 hin) with h | h | h
      · exact h
      · exact absurd h ha
      · rw [h] at hk
        simp at hk
    · have hout : ∀ x ∈ causeFields ++ (if v.flt.mark then [(F.FLT_STATUS_INJ_RESET, 0)] else []), x.1.addr ≠ a := by
        rintro x hx rfl
        rcases List.mem_append.1 hx with hx | hx
        · exact ha ((by decide : ∀ x ∈ causeFields, x.1.addr = R.SYS_RESET_CAUSE) x hx ▸ hcause)
        · cases hm : v.flt.mark <;> simp [hm] at hx
          exact ha (hx ▸ hstatus hm)
      exact (hkept.reg_eq hi fun x hx he => absurd he (hout x hx)).trans (congrArg (fun x : State => x.reg a i) hcleared :)

/-! ### The rows of resets -/

/-- A reset with nothing injected and no BULK_WR in progress. -/
structure State.ResetRow (s t : State) (c : ResetClass) : Prop where
  was : s.wasReset t c
  pwr : t.pwr = s.pwr.afterReset c
  mem : s.idleStream = true → t.mem = (if c.losesStores then classC.foldl Memory.clearStore s.mem else s.mem).clearRuntime
  head : c = .por → t.flt.head = []
  regs : ∀ except, R.SYS_RESET_CAUSE ∈ except →
    (∀ a ∈ lossRegs, c.losesStores = false ∨ a ∈ except ∨ keptMask (.reset c) a = 0) →
    s.retains t (.reset c) (if c = .por then 0 else F.SYS_STRAPS_CFGSEL.of (s.reg R.SYS_STRAPS))
      (decide (c ≠ .por) && F.SYS_STRAPS_SPIMODE.of (s.reg R.SYS_STRAPS) == 1) except

/-- Such a reset starts. -/
theorem State.startReset_row (hw : s.pwr.state ≠ .waking) (ho : s.pwr.state ≠ .off)
    (h : s.mem.failing = [] ∨ c.losesStores = true) (hmark : s.flt.mark = false) (hundo : s.port.undo = []) :
    s.ResetRow (s.startReset c wdog) c := by
  obtain ⟨hwas, hfresh, -, -, hpwr, hmem, hhead, hregs⟩ := State.startReset_spec (wdog := wdog) hw ho h
  rw [State.halfWritten_of_none hundo] at *
  have hfresh := hfresh hmark
  generalize s.startReset c wdog = t at *
  have ht : { t with fresh := [] } = t := by rw [← hfresh]
  rw [ht] at hwas
  exact ⟨hwas, hpwr, hmem, hhead.1, fun except hcause => hregs except hcause fun hm => absurd (hmark.symm.trans hm) (by decide)⟩

/-- Settles O30. -/
theorem resetsStart : Obligations.ResetsStart := by
  unfold Obligations.ResetsStart
  intro s hw ho hfail hin htest hmark hundo cfgsel spi
  refine ⟨fun hlow => ?pin, fun hlow => ?fault, fun hlow hlive => ?soft⟩
  case pin =>
    obtain ⟨hwas, hpwr, hmem, -, hregs⟩ := State.startReset_row (s := s.setPwr { s.pwr with resetLow := true })
      (c := .pin) (wdog := false) hw ho (.inl hfail) hmark hundo
    refine ⟨_, congrArg Host.Outcome.next (if_neg (by simp [hlow])), hwas, hregs _ (by simp) fun _ _ => .inl rfl, hmem, ?_⟩
    rw [hpwr]
    simp [Power.afterReset, Power.held, Power.restarted, State.setPwr, hin]
  case fault =>
    obtain ⟨hwas, hpwr, hmem, -, hregs⟩ := State.startReset_row (c := .fault) (wdog := false) hw ho (.inl hfail) hmark hundo
    refine ⟨_, rfl, hwas, hregs _ (by simp) fun _ _ => .inl rfl, hmem, ?_⟩
    rw [State.faultReset, hpwr]
    simp [Power.afterReset, Power.held, Power.restarted, ResetClass.losesStores, hin, hlow, htest]
  case soft =>
    obtain ⟨hwas, hpwr, hmem, -, hregs⟩ := State.startReset_row (c := .soft) (wdog := false) hw ho (.inl hfail) hmark hundo
    refine ⟨s.startReset .soft false, congrArg Host.Outcome.next (State.hostWrite_of_live hlive R.SYS_SOFT_RESET 0xA55A 0xFFFF false), hwas,
      hregs _ (by simp) fun _ _ => .inl rfl, hmem, ?_⟩
    rw [hpwr]
    simp [Power.afterReset, Power.held, Power.restarted, ResetClass.losesStores, hin, hlow, htest]

/-- The stores of class C are invalid after a reset that loses them. -/
theorem Memory.isValid_lost {m : Memory} {w : WordAddr} (hs : w.store ∈ classC) (hw : w.word < 2 ^ 23) :
    (classC.foldl Memory.clearStore m).clearRuntime.isValid w = false :=
  Memory.isValid_clearRuntime hw (.inr (Memory.isValid_foldl_clearStore hw _ (.inl hs)))

/-- Settles O31. -/
theorem supplyResets : Obligations.SupplyResets := by
  unfold Obligations.SupplyResets
  intro s hw ho hidle hmark hundo cfgsel spi
  refine ⟨fun hin => ?bor, ?por⟩
  case bor =>
    obtain ⟨hwas, hpwr, hmem, -, hregs⟩ := State.startReset_row (s := s.setPwr { s.pwr with inReset := some .bor })
      (c := .bor) (wdog := false) hw ho (.inr rfl) hmark hundo
    have hmem := (hmem hidle).trans (congrArg Memory.clearRuntime (if_pos rfl))
    refine ⟨_, congrArg Host.Outcome.next (if_neg (by simp [hin])), hwas, hregs _ (by simp) (by decide), fun w hs hb => ?_, ?_⟩
    · rw [hmem]
      exact Memory.isValid_lost hs hb
    · rw [hpwr]
      simp [Power.afterReset, Power.held, Power.restarted, ResetClass.losesStores, State.setPwr]
  case por =>
    obtain ⟨hwas, hpwr, hmem, hhead, hregs⟩ := State.startReset_row (s := { s with pwr := { s.pwr with inReset := some .por } })
      (c := .por) (wdog := false) hw ho (.inr rfl) hmark hundo
    have hmem := (hmem hidle).trans (congrArg Memory.clearRuntime (if_pos rfl))
    refine ⟨_, rfl, hwas, hregs _ (by simp) (by decide), fun w hs hb => ?_, hhead rfl, ?_⟩
    · rw [State.por, hmem]
      exact Memory.isValid_lost hs hb
    · rw [State.por, hpwr]
      simp [Power.afterReset, Power.held, Power.restarted, ResetClass.losesStores]

end Sys2Proof.Machine
end

section
/-! PROOF.
The watchdog: enable, kick and expiry.
-/
namespace Sys2Proof.Machine

variable {s t u : State}

/-! ### BND_WDOG (R224, R225) -/

/-- A write that stores in one register, bit by bit. -/
theorem State.storeReg_kept_fields {a : Nat} {v m : Word} {l : List (Field × Nat)} (h : ∀ b, ¬inFields l a 0 b →
    (limitWord a (storedAfter a (s.reg a) v (s.reaches a 0 m))).getLsbD b = (s.reg a).getLsbD b) :
    s.regsKept (s.storeReg a 0 v m) l := by
  intro a' i b hi hout
  by_cases he : a' = a ∧ i = 0
  · obtain ⟨rfl, rfl⟩ := he
    refine ⟨?_, rfl⟩
    rw [State.storeReg, State.reg_setReg]
    exact h b hout
  · refine State.storeReg_kept a (by decide) v m a' i b hi ?_
    rintro ⟨x, hx, ha, hxi, -⟩
    rw [List.mem_singleton.1 hx] at ha hxi
    exact he ⟨ha.symm, hxi.symm⟩

/-- BND_WDOG as an enabling write leaves it. -/
def wdogWord (old v : Word) : Word := limitWord R.BND_WDOG (storedAfter R.BND_WDOG old v 0xFFFF)

/-- The word that an enabling write of BND_WDOG stores. -/
theorem wdogWord_spec (old : Word) (period : BitVec 10) :
    let w := wdogWord old (BitVec.ofNat 16 (0x8000 + period.toNat))
    F.BND_WDOG_EN.of w = 1 ∧ F.BND_WDOG_PERIOD.of w = max 1 period.toNat ∧
      ∀ b, ¬inFields [(F.BND_WDOG_EN, 0), (F.BND_WDOG_PERIOD, 0)] R.BND_WDOG 0 b → w.getLsbD b = old.getLsbD b := by
  have hp := period.isLt
  generalize hv : BitVec.ofNat 16 (0x8000 + period.toNat) = v
  have hvn : v.toNat = 0x8000 + period.toNat := by
    rw [← hv, BitVec.toNat_ofNat]
    omega
  have hbit : ∀ b < 16, (storedAfter R.BND_WDOG old v 0xFFFF).getLsbD b =
      if b ≤ 9 ∨ b = 15 then v.getLsbD b else old.getLsbD b := fun b hb => by
    rw [getLsbD_storedAfter _ _ _ _ hb, (by decide : accessMask R.BND_WDOG .w1c = 0),
      (by decide : accessMask R.BND_WDOG .rw = 0x83FF)]
    interval_cases b <;> simp
  generalize hx : storedAfter R.BND_WDOG old v 0xFFFF = x at hbit
  have hen : F.BND_WDOG_EN.of x = 1 := by
    rw [Field.of_congr (w := v) fun b hl hh => (hbit b (by simp only [F.BND_WDOG_EN] at hh; omega)).trans
      (if_pos (.inr (by simp only [F.BND_WDOG_EN] at hl hh; omega)))]
    unfold Field.of bits
    rw [hvn]
    simp only [F.BND_WDOG_EN]
    omega
  have hperiod : F.BND_WDOG_PERIOD.of x = period.toNat := by
    rw [Field.of_congr (w := v) fun b hl hh => (hbit b (by simp only [F.BND_WDOG_PERIOD] at hh; omega)).trans
      (if_pos (.inl hh))]
    unfold Field.of bits
    rw [hvn]
    simp only [F.BND_WDOG_PERIOD]
    omega
  have hlimit : wdogWord old v = Limit.apply x ⟨F.BND_WDOG_PERIOD, 1, 1023, 1023⟩ := congrArg (limitWord R.BND_WDOG) hx
  have hout : ∀ b, ¬inFields [(F.BND_WDOG_EN, 0), (F.BND_WDOG_PERIOD, 0)] R.BND_WDOG 0 b → 9 < b ∧ b ≠ 15 := fun b hb => by
    refine ⟨not_le.1 fun h => hb ⟨_, List.mem_cons_of_mem _ List.mem_cons_self, rfl, rfl, Nat.zero_le _, h⟩, ?_⟩
    rintro rfl
    exact hb ⟨_, List.mem_cons_self, rfl, rfl, le_rfl, le_rfl⟩
  have hkept : ∀ b, ¬inFields [(F.BND_WDOG_EN, 0), (F.BND_WDOG_PERIOD, 0)] R.BND_WDOG 0 b → x.getLsbD b = old.getLsbD b :=
    fun b hb => by
      obtain ⟨h9, h15⟩ := hout b hb
      by_cases h16 : b < 16
      · exact (hbit b h16).trans (if_neg (by omega))
      · rw [BitVec.getLsbD_of_ge _ _ (by omega), BitVec.getLsbD_of_ge _ _ (by omega)]
  unfold Limit.apply at hlimit
  dsimp only at hlimit
  rw [hperiod, if_neg (c := 1023 < period.toNat) (by omega)] at hlimit
  rw [hlimit]
  split
  next h0 =>
    refine ⟨(Field.of_into_ne _ _ (by decide) (by decide) (by decide) (.inr (by decide))).trans hen,
      (Field.of_into _ _ (by decide) (by decide)).trans ?_, fun b hb => ?_⟩
    · rw [Nat.lt_one_iff.1 h0]
      rfl
    · have h9 := (hout b hb).1
      exact (Field.into_getLsbD _ _ _ (by decide) (by decide) (by simp only [F.BND_WDOG_PERIOD]; omega)).trans (hkept b hb)
  next h0 => exact ⟨hen, hperiod.trans (max_eq_right (by omega)).symm, hkept⟩

/-- A kick stores nothing: its key cannot be read. -/
theorem limitWord_kick (old v m : Word) : limitWord R.BND_WDOG_KICK (storedAfter R.BND_WDOG_KICK old v m) = old := by
  refine BitVec.eq_of_getLsbD_eq fun b hb => ?_
  show (storedAfter R.BND_WDOG_KICK old v m).getLsbD b = _
  rw [getLsbD_storedAfter _ _ _ _ hb]
  simp [(by decide : accessMask R.BND_WDOG_KICK .rw = 0), (by decide : accessMask R.BND_WDOG_KICK .w1c = 0)]

/-! ### The WATCHDOG entry (R622) -/

/-- From `s` to `t` no store and no macro has failed, and the head of the fault log is as it was. -/
structure State.HeadKept (s t : State) : Prop where
  failing : t.mem.failing = s.mem.failing
  declared : t.mem.declared = s.mem.declared
  failed : t.mem.failed = s.mem.failed
  head : t.flt.head = s.flt.head

theorem State.HeadKept.refl : s.HeadKept s := ⟨rfl, rfl, rfl, rfl⟩

theorem State.HeadKept.trans (h : s.HeadKept t) (h' : t.HeadKept u) : s.HeadKept u :=
  ⟨h'.failing.trans h.failing, h'.declared.trans h.declared, h'.failed.trans h.failed, h'.head.trans h.head⟩

theorem State.HeadKept.setFld (f : Field) (v i : Nat) : s.HeadKept (s.setFld f v i) := ⟨rfl, rfl, rfl, rfl⟩

/-- A flag changes none of them. -/
theorem State.HeadKept.setFlag (f : Field) (b : Bool) (i : Nat) : s.HeadKept (s.setFlag f b i) := by
  rw [State.setFlag_frame]
  exact ⟨rfl, rfl, rfl, rfl⟩

/-- An entry appended to the LOG store changes none of them. -/
theorem State.HeadKept.appendLog (e : FaultEntry) : s.HeadKept (s.appendLog e) := by
  have hword : ∀ (t : State) w d, t.HeadKept (t.writeWord w d) := fun t w d => by
    unfold State.writeWord
    dsimp only
    split <;> exact ⟨rfl, rfl, rfl, rfl⟩
  have hwords : s.HeadKept ((List.range 4).foldl (fun t k => t.writeWord ⟨Store.log, false, 4 * s.fld F.FLT_LOG_WR_WR + k⟩
      ((e.bytes.drop (4 * k)).take 4)) s) :=
    List.foldlRecOn _ _ (motive := fun t => s.HeadKept t) .refl fun t ht k _ => ht.trans (hword _ _ _)
  unfold State.appendLog
  dsimp only
  split
  · exact (hwords.trans (.setFld _ _ _)).trans (.setFlag _ _ _)
  · exact hwords.trans (.setFld _ _ _)

/-- The entry that a fault writes to the head of the log. -/
def State.faultEntry (s : State) (kind store reader : Nat) (bank : Bool) (offset syn : Nat) : FaultEntry :=
  { kind := kind, store := store, inj := s.flt.mark, reader := reader, bank := bank, offset := offset, syndrome := syn
    time := s.clk.time.toNat, seq := s.nextSeq, copied := s.pwr.rails.vcore }

/-- The state with an entry at the head of the fault log. -/
def State.atHead (s : State) (e : FaultEntry) : State :=
  { s with flt := { s.flt with head := Cells.set none s.flt.head (s.nextSeq % 8) (some e) } }

/-- A fault writes its entry to the head, and no store fails by it. -/
theorem State.logFault_head (kind store reader : Nat) (bank : Bool) (offset syn : Nat) :
    (s.atHead (s.faultEntry kind store reader bank offset syn)).HeadKept
      (s.logFault kind store reader bank offset syn) := by
  have hraise : ∀ (t : State) c x y, t.HeadKept (t.raise c x y) := fun t c x y => by
    unfold State.raise
    split <;> exact ⟨rfl, rfl, rfl, rfl⟩
  have hovw : ∀ (c : Prop) [Decidable c] (t : State), t.HeadKept (if c then t.setFlag F.FLT_STATUS_OVW true else t) := by
    intro c _ t
    split
    · exact .setFlag _ _ _
    · exact .refl
  have hlog : ∀ (c : Prop) [Decidable c] (t : State) (e : FaultEntry), t.HeadKept (if c then t.appendLog e else t) := by
    intro c _ t e
    split
    · exact .appendLog e
    · exact .refl
  have hnew : ∀ t : State, t.HeadKept (t.setFlag F.FLT_STATUS_NEW true) := fun _ => .setFlag _ _ _
  unfold State.logFault
  dsimp only
  have hstatus := fun v w => (State.HeadKept.setFld (s := s.atHead (s.faultEntry kind store reader bank offset syn))
    F.FLT_STATUS_SEQ v 0).trans ((State.HeadKept.setFld F.FLT_STATUS_COUNT w 0).trans (hnew _))
  exact ((hstatus _ _).trans (hovw _ _)).trans ((hlog _ _ _).trans (hraise _ _ _ _))

/-! ### Expiry (R224) -/

/-- From `s` to `t` a watchdog period has ended: the WATCHDOG entry, and a FAULT reset of the state `u` that holds it. -/
structure State.Expires (s u t : State) : Prop where
  reports : s.Reports u
  entry : (s.atHead (s.faultEntry kindWatchdog 0 Reader.internal.code false 0 (s.fld F.BND_WDOG_PERIOD))).HeadKept u
  resets : u.halfWritten.Resets t .fault true

/-- The watchdog's expiry. -/
theorem State.wdogExpiry_spec (hen : s.flag F.BND_WDOG_EN = true) (hup : s.up = true) (hfail : s.mem.failing = []) :
    ∃ u, s.Expires u s.wdogExpiry := by
  have hrep : s.Reports (s.logFault kindWatchdog 0 Reader.internal.code false 0 (s.fld F.BND_WDOG_PERIOD)) := .logFault ..
  have hhead := s.logFault_head kindWatchdog 0 Reader.internal.code false 0 (s.fld F.BND_WDOG_PERIOD)
  have hexpiry : s.wdogExpiry = (s.logFault kindWatchdog 0 Reader.internal.code false 0
      (s.fld F.BND_WDOG_PERIOD)).startReset .fault true := if_pos (by simp [State.wdogRuns, hen, hup])
  rw [hexpiry]
  generalize s.logFault kindWatchdog 0 Reader.internal.code false 0 (s.fld F.BND_WDOG_PERIOD) = u at *
  have hpwr : u.pwr = s.pwr := (congrArg State.pwr hrep.frame :)
  exact ⟨u, hrep, hhead, State.startReset_spec (by rw [hpwr]; rintro h; simp [State.up, h] at hup)
    (by rw [hpwr]; rintro h; simp [State.up, h] at hup) (.inl (hhead.failing.trans hfail))⟩

/-- Settles O22. -/
theorem watchdogActs : Obligations.WatchdogActs := by
  unfold Obligations.WatchdogActs
  intro period s hlive
  obtain ⟨hup, -, -⟩ := State.live_iff.1 hlive
  have henable : (s.portWrite R.BND_WDOG (BitVec.ofNat 16 (0x8000 + period.toNat)) false) =
      if s.flag F.BND_WDOG_EN then s else s.storeReg R.BND_WDOG 0 (BitVec.ofNat 16 (0x8000 + period.toNat)) 0xFFFF :=
    State.portWrite_of_live hlive R.BND_WDOG _ false
  refine ⟨fun hen => ?enable, fun hen => ?again, ?kick, fun hen hfail => ?expiry⟩
  case enable =>
    have hreach : s.reaches R.BND_WDOG 0 0xFFFF = 0xFFFF := by
      unfold State.reaches
      rw [(by decide : accessMask R.BND_WDOG .w1c = 0)]
      simp
    have hreg : (s.storeReg R.BND_WDOG 0 (BitVec.ofNat 16 (0x8000 + period.toNat)) 0xFFFF).reg R.BND_WDOG =
        wdogWord (s.reg R.BND_WDOG) (BitVec.ofNat 16 (0x8000 + period.toNat)) := by
      rw [State.storeReg, State.reg_setReg, hreach]
      rfl
    obtain ⟨hone, hperiod, hout⟩ := wdogWord_spec (s.reg R.BND_WDOG) period
    refine ⟨_, congrArg Host.Outcome.next (henable.trans (if_neg (by simp [hen]))), rfl, ?_, ?_, ?_⟩
    · exact decide_eq_true ((congrArg F.BND_WDOG_EN.of hreg).trans hone)
    · exact (congrArg F.BND_WDOG_PERIOD.of hreg).trans hperiod
    · refine State.storeReg_kept_fields fun b hb => ?_
      rw [hreach]
      exact hout b hb
  case again => exact congrArg Host.Outcome.next (henable.trans (if_pos hen))
  case kick =>
    refine ⟨_, congrArg Host.Outcome.next (State.portWrite_of_live hlive R.BND_WDOG_KICK 0xC3C3 false), rfl, ?_⟩
    exact State.storeReg_kept_fields (a := R.BND_WDOG_KICK) fun b _ => congrArg (fun w : Word => w.getLsbD b) (limitWord_kick _ _ _)
  case expiry =>
    obtain ⟨u, hrep, hentry, hwas, -, hwdog, -, -, -, ⟨-, hkept⟩, -⟩ := State.wdogExpiry_spec hen hup hfail
    have hhalf := (State.halfWritten_frame (s := u)).1
    obtain ⟨hframe, htxn, -, -, -, -, hclass, -, -, hkind, -, -⟩ := hwas
    have hhead : s.wdogExpiry.flt.head = Cells.set none s.flt.head (s.nextSeq % 8)
        (some (s.faultEntry kindWatchdog 0 Reader.internal.code false 0 (s.fld F.BND_WDOG_PERIOD))) :=
      (hkept rfl).trans ((congrArg (fun x : State => x.flt.head) hhalf :).trans hentry.head)
    refine ⟨s.wdogExpiry, s.faultEntry kindWatchdog 0 Reader.internal.code false 0 (s.fld F.BND_WDOG_PERIOD), rfl, hwdog, hclass,
      hkind, (congrArg (fun x : State => x.port.resp) hframe :), htxn, ?_, rfl, rfl, ?_, ?_⟩
    · rw [hhead]
      exact Cells.get_set_self _ _ _
    · exact (congrArg State.pending hframe :).trans ((congrArg State.pending hhalf :).trans (congrArg State.pending hrep.frame :))
    · exact (congrArg State.part hframe :).trans ((congrArg State.part hhalf :).trans (congrArg State.part hrep.frame :))

end Sys2Proof.Machine
end

section
/-! PROOF.
Injections that act at once.
-/
namespace Sys2Proof.Machine

variable {s t u : State} {arg : Word}

/-! ### An accepted injection -/

/-- A row whose injection is ready logs it, and then its detector acts. -/
theorem State.exec_acting {c : Instr} {det : Nat} (hlive : s.live = true) (hlen : s.flt.events.length < 63)
    (hc : (c, det) ∈ actingInjections arg) (hr : s.injReady det arg) :
    s.injectionLogged (s.acceptsInj det arg.toNat) det arg ∧
      exec c s = .next ((s.acceptsInj det arg.toNat).injectNow det arg.toNat) := by
  obtain ⟨hrange, habsent, hstate, hpending, hreal⟩ := hr
  have hmem := List.mem_append_right (waitingInjections arg) hc
  refine ⟨State.acceptsInj_logged (by omega) (injection_lt arg _ hmem) arg, (exec_injection arg s (c, det) hmem).trans ?_⟩
  rw [State.injectRow_of_live hlive, State.fire_accepted (State.fireCheck_ok hrange habsent hstate hpending) habsent hreal]

/-- From `s` to `u` an injection has been logged: one event, and INJ_STATUS.LAST. -/
structure State.Accepts (s u : State) : Prop where
  frame : ∃ e, u = { s with regs := u.regs, flt := { s.flt with events := s.flt.events ++ [e] } }
  kept : s.regsKept u [(F.INJ_STATUS_LAST, 0)]

theorem State.injectionLogged.accepts {det : Nat} (h : s.injectionLogged u det arg) : s.Accepts u :=
  ⟨⟨_, h.1⟩, h.2.2⟩

/-- What an accepted injection leaves besides. -/
theorem State.Accepts.rest (h : s.Accepts u) : u.pwr = s.pwr ∧ u.clk = s.clk ∧ u.flt.active = s.flt.active ∧
    u.flt.mark = s.flt.mark ∧ u.exp = s.exp ∧ u.lines = s.lines := by
  obtain ⟨e, he⟩ := h.frame
  rw [he]
  exact ⟨rfl, rfl, rfl, rfl, rfl, rfl⟩

/-! ### The supply warning and the pumps -/

/-- The state of a detector that has injected its condition: in force, and its entries marked. -/
def State.holding (u : State) (det : Nat) : State := (u.injHolds det).markedInj true

/-- An injected supply warning while it is asserted. -/
theorem State.injectWarn_of_warn (h : u.pwr.warn = true) (arg : Nat) :
    u.injectNow 0 arg = { u with flt := { u.flt with active := u.flt.active.filter (· != 0) ++ [0] } } := by
  show (u.holding 0).assertWarn.markedInj u.flt.mark = _
  unfold State.assertWarn
  rw [if_pos (by exact h)]
  rfl

/-- The warning level fits the event's data. -/
theorem State.warnLevel_mod (s : State) : s.warnLevel % 2 ^ 16 = s.warnLevel :=
  Nat.mod_eq_of_lt (by
    have hlevel : s.fld F.PWR_WARN_LEVEL < 16 := s.fld_lt F.PWR_WARN_LEVEL 0
    unfold State.warnLevel
    omega)

/-- An injected supply warning where none is asserted. -/
theorem State.injectWarn_of_none (h : u.pwr.warn = false) (hv : u.pwr.rails.vcore = true) (hlen : u.flt.events.length < 64)
    (arg : Nat) (ht : u.injectNow 0 arg = t) :
    t = { u with
      regs := t.regs, fresh := t.fresh, exp := u.markSW.exp, lines := u.lines ||| (1#64 <<< 59), pwr := u.warned
      flt := { u.flt with
        active := u.flt.active.filter (· != 0) ++ [0]
        events := u.flt.events ++ [⟨0x10, true, noUnit, u.warnLevel, u.timeBits 32, false⟩] } } ∧
      t.flag F.PWR_STATUS_WARN_LATCH = true ∧ u.regsKept t [(F.PWR_STATUS_WARN_LATCH, 0)] := by
  obtain ⟨hframe, hlatch, hkept⟩ := State.assertWarn_warnedTo (s := u.holding 0) h hlen
  have hinject : u.injectNow 0 arg = (u.holding 0).assertWarn.markedInj u.flt.mark := rfl
  rw [hinject] at ht
  generalize (u.holding 0).assertWarn = w at *
  have hmark : (u.holding 0).markSW.exp = u.markSW.exp :=
    (congrArg State.exp (State.markSW_of_exp (s := u) (t := u.holding 0) rfl) :)
  have hlevel : (u.holding 0).entry 0x10 noUnit (u.holding 0).warnLevel =
      ⟨0x10, true, noUnit, u.warnLevel, u.timeBits 32, false⟩ := by
    unfold State.entry
    rw [State.warnLevel_mod]
    rfl
  rw [if_pos (by exact hv), if_pos (by exact hv), if_pos (by exact hv), hmark, hlevel] at hframe
  rw [← ht]
  exact ⟨congrArg (fun x : State => x.markedInj u.flt.mark) hframe, hlatch, State.regsKept_trans
    (State.regsKept_of_regs rfl rfl) (State.regsKept_trans hkept (State.regsKept_of_regs rfl rfl))⟩

/-- The power unit with pump 2 (or 1) out of regulation. -/
def Power.unpumped (p : Power) (second : Bool) : Power := if second then { p with cp2Ok := false } else { p with cp1Ok := false }

/-- Whether pump 2 (or 1) was in regulation, or has left it by itself. -/
def Power.pumped (p : Power) (second : Bool) : Bool :=
  if second then p.cp2Ok || p.droop2.isSome else p.cp1Ok || p.droop1.isSome

/-- The data of CP_DROOP. -/
def State.droopData (s : State) : Nat := 2 ^ 5 + s.pwrLive + 2 * bit (s.flag F.PWR_STATUS_WARN_LATCH)

theorem State.droopData_mod (s : State) : s.droopData % 2 ^ 16 = s.droopData :=
  Nat.mod_eq_of_lt (by
    have hb : ∀ b : Bool, bit b ≤ 1 := by decide
    have h1 := hb (s.pumpOk true)
    have h2 := hb (s.pumpOk false)
    have h3 := hb s.pwr.hold
    have h4 := hb s.pwr.warn
    have h5 := hb (s.flag F.PWR_STATUS_WARN_LATCH)
    unfold State.droopData State.pwrLive
    omega)

/-- A pump that an injection takes out of regulation. -/
theorem State.droop_injected (second : Bool) : s.droop second false =
    let w := s.setPwr (s.pwr.unpumped second)
    if w.analog && s.pwr.pumped second then
      (w.setFlag F.PWR_STATUS_CP_DROOP true).raise 0x11 (if second then 2 else 1) (w.setFlag F.PWR_STATUS_CP_DROOP true).droopData
    else w := by
  cases second <;> rfl

/-- An injected fault of a pump. -/
theorem State.injectDroop (second : Bool) (ha : u.analog = true) (hlen : u.flt.events.length < 64) (arg : Nat)
    (ht : u.injectNow (if second then 2 else 1) arg = t) :
    t = { u with
      regs := t.regs, fresh := t.fresh, pwr := u.pwr.unpumped second
      flt := { u.flt with
        active := u.flt.active.filter (· != if second then 2 else 1) ++ [if second then 2 else 1]
        events := u.flt.events ++ if u.pwr.pumped second then
          [⟨0x11, true, if second then 2 else 1, t.droopData, u.timeBits 32, false⟩] else [] } } ∧
      (u.pwr.pumped second = true → t.flag F.PWR_STATUS_CP_DROOP = true) ∧
      u.regsKept t (if u.pwr.pumped second then [(F.PWR_STATUS_CP_DROOP, 0)] else []) := by
  have hinject : u.injectNow (if second then 2 else 1) arg =
      ((u.holding (if second then 2 else 1)).droop second false).markedInj u.flt.mark := by cases second <;> rfl
  rw [hinject] at ht
  rw [State.droop_injected] at ht
  generalize (if second then 2 else 1 : Nat) = det at *
  generalize hw : (u.holding det).setPwr ((u.holding det).pwr.unpumped second) = w at *
  have hanalog : w.analog = true := by
    rw [← ha, ← hw]
    cases second <;> rfl
  have hpumped : (u.holding det).pwr.pumped second = u.pwr.pumped second := rfl
  dsimp only at ht
  rw [hpumped, hanalog, Bool.true_and] at ht
  cases hp : u.pwr.pumped second with
  | false =>
    rw [hp, if_neg Bool.false_ne_true] at ht
    simp only [Bool.false_eq_true, if_false, List.append_nil]
    rw [← ht, ← hw]
    exact ⟨rfl, (nomatch ·), State.regsKept_of_regs rfl rfl⟩
  | true =>
    rw [hp, if_pos rfl] at ht
    simp only [if_true]
    have hroom : w.flt.events.length < 64 := by
      rw [← hw]
      exact hlen
    obtain ⟨hframe, hflag, hkept⟩ := State.setFlag_raise (s := w) (f := F.PWR_STATUS_CP_DROOP) hroom rfl (by decide) (i := 0)
      (by decide) 0x11 det (w.setFlag F.PWR_STATUS_CP_DROOP true).droopData
    have hdata : (w.setFlag F.PWR_STATUS_CP_DROOP true).droopData = t.droopData := by
      rw [← ht, State.raise_room (by rw [State.setFlag_frame]; exact hroom)]
      rfl
    rw [hdata] at ht hframe hflag hkept
    generalize State.raise _ 0x11 det t.droopData = x at *
    have hentry : w.entry 0x11 det t.droopData = ⟨0x11, true, det, t.droopData, u.timeBits 32, false⟩ := by
      unfold State.entry
      rw [State.droopData_mod, ← hw]
      rfl
    rw [hentry] at hframe
    generalize hd : t.droopData = d at *
    rw [← hw] at hframe hkept
    rw [← ht]
    exact ⟨congrArg (fun x : State => x.markedInj u.flt.mark) hframe, fun _ => hflag, State.regsKept_trans
      (State.regsKept_of_regs rfl rfl) (State.regsKept_trans hkept (State.regsKept_of_regs rfl rfl))⟩

/-! ### Resets -/

/-- A reset of a marked state is a reset of the state. -/
theorem State.wasReset.of_marked {c : ResetClass} (h : (u.markedInj true).wasReset { t with fresh := [] } c) (m : Bool) :
    u.wasReset { t.markedInj m with fresh := [] } c := by
  obtain ⟨hframe, hrest⟩ := h
  exact ⟨congrArg (fun x : State => x.markedInj m) hframe, hrest⟩

/-- The state in which a reset by an injection starts. -/
structure State.Resettable (u : State) : Prop where
  up : u.up = true
  failing : u.mem.failing = []
  undo : u.port.undo = []
  held : u.pwr.held = false

/-- What a reset by an injection leaves. -/
structure State.InjectedReset (u t : State) (c : ResetClass) : Prop where
  was : u.wasReset { t with fresh := [] } c
  inj : t.flag F.FLT_STATUS_INJ_RESET = true
  pwr : t.pwr = { u.pwr.restarted c with
    step := 1, stepRunning := !(u.pwr.warnReal || c.losesStores), supplyWait := u.pwr.warnReal || c.losesStores }
  mem : u.idleStream = true → t.mem = (if c.losesStores then classC.foldl Memory.clearStore u.mem else u.mem).clearRuntime
  regs : ∀ except, R.SYS_RESET_CAUSE ∈ except → R.FLT_STATUS ∈ except →
    (∀ a ∈ lossRegs, c.losesStores = false ∨ a ∈ except ∨ keptMask (.reset c) a = 0) →
    u.retains t (.reset c) (if c = .por then 0 else F.SYS_STRAPS_CFGSEL.of (u.reg R.SYS_STRAPS))
      (decide (c ≠ .por) && F.SYS_STRAPS_SPIMODE.of (u.reg R.SYS_STRAPS) == 1) except

/-- A device that is up is in no reset and no wake. -/
theorem State.not_reset_of_up (h : u.up = true) : u.pwr.state ≠ .waking ∧ u.pwr.state ≠ .off := by
  constructor <;>
  · intro hs
    simp [State.up, hs] at h

/-- A reset by an injection. -/
theorem State.injectReset (h : u.Resettable) (c : ResetClass) :
    u.InjectedReset (u.injected fun x => x.startReset c false) c := by
  obtain ⟨hup, hfail, hundo, hheld⟩ := h
  obtain ⟨hw, ho⟩ := State.not_reset_of_up hup
  have hspec := State.startReset_spec (s := u.markedInj true) (c := c) (wdog := false) hw ho (.inl hfail)
  rw [State.halfWritten_of_none (s := u.markedInj true) hundo] at hspec
  show u.InjectedReset (((u.markedInj true).startReset c false).markedInj u.flt.mark) c
  generalize (u.markedInj true).startReset c false = t at *
  obtain ⟨hwas, -, -, hinj, hpwr, hmem, -, hregs⟩ := hspec
  exact ⟨hwas.of_marked _, hinj rfl, hpwr.trans (if_neg (show ¬u.pwr.held = true by simp [hheld])), hmem, fun except hc hf => hregs except hc fun _ => hf⟩

/-- The watchdog's period, ended by an injection. -/
theorem State.injectWatchdog (hup : u.up = true) (hen : u.flag F.BND_WDOG_EN = true) (hfail : u.mem.failing = []) :
    u.wdogExpiry.fld F.SYS_RESET_CAUSE_CLASS = ResetClass.fault.code ∧ u.wdogExpiry.flag F.SYS_RESET_CAUSE_FAULT_WDOG = true ∧
      (u.flt.mark = true → u.wdogExpiry.flag F.FLT_STATUS_INJ_RESET = true) ∧
      u.wdogExpiry.pwr = u.pwr.afterReset .fault := by
  obtain ⟨x, hrep, -, hwas, -, hwdog, hinj, hpwr, -⟩ := State.wdogExpiry_spec hen hup hfail
  have hhalf := (State.halfWritten_frame (s := x)).1
  obtain ⟨-, -, -, -, -, -, hclass, -⟩ := hwas
  refine ⟨hclass, hwdog, fun hm => hinj ?_, hpwr.trans (congrArg (fun p : Power => p.afterReset .fault) ?_)⟩
  · exact (congrArg (fun y : State => y.flt.mark) hhalf :).trans ((congrArg (fun y : State => y.flt.mark) hrep.frame :).trans hm)
  · exact (congrArg State.pwr hhalf :).trans (congrArg State.pwr hrep.frame :)

/-! ### REFCLK losses -/

/-- From `s` to `t` a stream has been cut: only its frames, lanes, pages and flash energies have changed. -/
def State.CutsStream (s t : State) : Prop :=
  t = { s with exp := t.exp, aux := t.aux, mem := t.mem, lanes := t.lanes, free := t.free }

theorem State.CutsStream.trans (h : s.CutsStream t) (h' : t.CutsStream u) : s.CutsStream u := by
  unfold State.CutsStream at h h' ⊢
  rw [h] at h'
  exact h'

/-- Every frame abandoned and every lane cut. -/
theorem State.cutsStream : s.CutsStream s.abandonAll.cutLanes := by
  have habandon : s.CutsStream s.abandonAll := by
    unfold State.abandonAll
    dsimp only
    obtain ⟨m, hm⟩ := s.usePages_frame ((s.exp.exposing.toList.flatMap fun e => e.frame.pages)
      ++ (s.exp.reading.toList.flatMap fun r => r.frame.pages) ++ (s.exp.between.toList.flatMap fun b => b.1.pages)) .free
    rw [hm]
    rfl
  have hcut : ∀ x : State, x.CutsStream x.cutLanes := fun x => by
    unfold State.cutLanes State.stopLanes
    dsimp only
    obtain ⟨m, hm⟩ := State.usePages_frame (s := { x with
      lanes := { x.lanes with
        lanes := Cells.mapEntries Lane.init
          (fun q y => y.stop .void (x.idlesBefore y) (Config.freeNat (x.free + q + 1))) x.lanes.lanes }
      free := x.free + 13 }) (x.lanes.lanes.flatMap fun e => e.2.spill.map Prod.fst) .free
    rw [hm]
    rfl
  exact habandon.trans (hcut _)

/-- A REFCLK loss while Armed or Streaming. -/
theorem State.refclkLoss_of_analog (ha : s.analog = true) (hl : s.clk.locked = true ∨ s.clk.relocking = true)
    (hlen : s.flt.events.length < 64) {cause : Nat} (hc : cause < 4) (ht : s.refclkLoss cause = t) :
    t.clk = s.clk.lost ∧ t.flag F.CLK_STATUS_LOST = true ∧ t.fld F.CLK_STATUS_CAUSE = cause ∧
      t.flag F.CLK_STATUS_TIME_GAP = true := by
  have hstate : s.pwr.state = .armed ∨ s.pwr.state = .streaming := by simpa [State.analog] using ha
  have hpll : s.pllOn = true := by rcases hstate with h | h <;> simp [State.pllOn, State.up, h]
  obtain ⟨hframe, hlost, hcause, hgap, -⟩ := State.lossShown_spec (s := s) hc rfl
  have hdeclare : s.declareLoss cause = ((s.lossShown cause).raise 0x18 noUnit cause).abandonAll.cutLanes := by
    rw [State.declareLoss, if_pos (by simpa [hpll] using hl)]
    rfl
  generalize s.lossShown cause = x at *
  rw [State.raise_room (by rw [hframe]; exact hlen)] at hdeclare
  have hcuts := State.cutsStream (s := x.logged (x.entry 0x18 noUnit cause))
  rw [← hdeclare] at hcuts
  have hloss : s.refclkLoss cause = s.declareLoss cause := by
    have hpwr : (s.declareLoss cause).pwr = s.pwr := (congrArg State.pwr hcuts :).trans (congrArg State.pwr hframe :)
    unfold State.refclkLoss
    rw [if_neg (by rcases hl with h | h <;> simp [h])]
    simp only [hpwr]
    rcases hstate with h | h <;> rw [h]
  rw [hloss] at ht
  rw [ht] at hcuts
  have hfld : ∀ f i, t.fld f i = x.fld f i := fun f i => (congrArg (fun y : State => y.fld f i) hcuts :)
  exact ⟨(congrArg State.clk hcuts :).trans (congrArg State.clk hframe :), (congrArg (· == 1) (hfld _ _)).trans hlost,
    (hfld _ _).trans hcause, (congrArg (· == 1) (hfld _ _)).trans hgap⟩

/-! ### A Slate macro -/

/-- A macro declared failed for the first time. -/
structure State.Declares (s t : State) (m : Nat) : Prop where
  reports : s.Reports t
  declared : t.mem.declared = s.mem.declared ++ [m]
  failed : t.mem.failed = some (s.mem.failed.getD m)
  flag : t.flag F.MEM_STATUS_MACRO = true

/-- A macro declared failed (R582). -/
theorem State.declareMacro_spec {m : Nat} (h : s.mem.declared.contains m = false) (reader offset : Nat) :
    s.Declares (s.declareMacro m reader offset) m := by
  let x := s.setMem { s.mem with declared := s.mem.declared ++ [m] }
  let y := x.logFault kindMacro Store.slate reader false offset m
  have hraise : ∀ (z : State) c a d, z.HeadKept (z.raise c a d) := fun z c a d => by
    unfold State.raise
    split <;> exact ⟨rfl, rfl, rfl, rfl⟩
  have hbit : ∀ (z : State) a d, ((z.setFlag F.MEM_STATUS_MACRO true).raise 0x49 a d).flag F.MEM_STATUS_MACRO = true :=
    fun z a d => ((State.regsKept_raise (l := [(F.FLT_EV_LOST_COUNT, 0)]) (by decide)).flag_apart (by decide)).trans
      (State.flag_setFlag _ (by decide) (by decide) _ _)
  have hdeclare : s.declareMacro m reader offset =
      let t := (y.setFlag F.MEM_STATUS_MACRO true).raise 0x49 m x.nextSeq
      if t.mem.failed.isSome then t
      else t.setMem { t.mem with failed := some m, erased := if t.flag F.MEM_CTRL_ERASE_EN then some m else none } :=
    if_neg (by simp only [h]; decide)
  have hrep : s.Reports ((y.setFlag F.MEM_STATUS_MACRO true).raise 0x49 m x.nextSeq) :=
    (((State.Reports.setMem _).trans (.logFault ..)).trans (.setFlag (f := F.MEM_STATUS_MACRO) true (by decide) (by decide))).trans
      (.raise _ _ _)
  obtain ⟨-, hdeclared, hfailed, -⟩ := ((x.logFault_head kindMacro Store.slate reader false offset m).trans
    (.setFlag F.MEM_STATUS_MACRO true 0)).trans (hraise _ 0x49 m x.nextSeq)
  have hflag := hbit y m x.nextSeq
  rw [hdeclare]
  dsimp only
  generalize (y.setFlag F.MEM_STATUS_MACRO true).raise 0x49 m x.nextSeq = z at *
  have hwas : z.mem.failed = s.mem.failed := hfailed
  rw [hwas]
  cases hf : s.mem.failed with
  | some f => exact ⟨hrep, hdeclared, by rw [hf]; exact hwas.trans hf, hflag⟩
  | none => exact ⟨hrep.trans (.setMem _), hdeclared, by rw [hf]; rfl, hflag⟩

/-! ### Sticky flags and the stale timer -/

/-- Sticky flags of an engine, with room in the log. -/
theorem State.sticky_of_room {e : Nat} (he : e < 256) (hlen : s.flt.events.length < 64) (mask : Nat) :
    s.regsKept (s.sticky e mask) [(Field.word R.AGT_STATUS, e)] := by
  have hmark : ∀ w, s.regsKept (if mask = 0 then s else s.markFresh R.AGT_STATUS w e) [(Field.word R.AGT_STATUS, e)] := fun w => by
    split
    · exact State.regsKept_refl
    · exact State.markFresh_kept R.AGT_STATUS w he
  have hroom : ∀ w, (if mask = 0 then s else s.markFresh R.AGT_STATUS w e).flt.events.length < 64 := fun w => by
    split <;> exact hlen
  unfold State.sticky
  dsimp only
  generalize hx : (if mask = 0 then s else s.markFresh R.AGT_STATUS (BitVec.ofNat 16 (mask * 2 ^ 11)) e) = x
  have hkept := hmark (BitVec.ofNat 16 (mask * 2 ^ 11))
  have hlenx := hroom (BitVec.ofNat 16 (mask * 2 ^ 11))
  rw [hx] at hkept hlenx
  split
  · exact hkept
  · rw [State.raise_room (by exact hlenx)]
    exact State.regsKept_trans hkept (State.regsKept_trans (State.regsKept_setReg he List.mem_cons_self)
      (State.regsKept_of_regs rfl rfl))

/-- The stale timer expires where it counts. -/
theorem State.staleNow_flagged (ha : s.analog = true) (hp : s.fld F.TMP_CFG_STALE ≠ 0) (hs : s.tmp.stale = false)
    (hlen : s.flt.events.length < 64) :
    (s.setTmp { s.tmp with stale := true }).flagged s.staleNow F.TMP_STATUS_STALE_LATCH 0 [s.entry 0x3C noUnit 0] := by
  have hexpires : s.staleNow = ((s.setTmp { s.tmp with stale := true }).setFlag F.TMP_STATUS_STALE_LATCH true).raise 0x3C noUnit 0 := by
    unfold State.staleNow
    rw [if_neg (by simp [ha, State.stalePeriod_ne_zero hp, hs])]
  rw [hexpires]
  exact State.setFlag_raise (s := s.setTmp { s.tmp with stale := true }) hlen rfl (by decide) (by decide) _ _ _

end Sys2Proof.Machine
end

section
/-! PROOF.
Injections that act at once: the rows.
-/
namespace Sys2Proof.Machine

variable {s t u : State} {arg : Word}

/-! ### The end of a duration (Table 19-6) -/

/-- A duration that is not in force has no end. -/
theorem State.injEnd_of_off {det : Nat} (h : s.flt.active.contains det = false) : s.injEnd det = s :=
  if_neg (by rw [h]; decide)

/-- The state with a duration no longer in force. -/
def State.unheld (s : State) (det : Nat) : State := s.setFlt { s.flt with active := s.flt.active.filter (· != det) }

/-- The warning of an injection ends, unless it is real. -/
theorem State.injEnd_warn (h : s.flt.active.contains 0 = true) : s.injEnd 0 =
    if s.pwr.warnReal then s.unheld 0 else (s.unheld 0).deassertWarn.resumeWake := if_pos h

/-- A stale timer that is off. -/
theorem State.stalePeriod_of_zero (h : s.fld F.TMP_CFG_STALE = 0) : s.stalePeriod = 0 := by
  unfold State.stalePeriod
  rw [h]
  rfl

/-- What changes beside the registers, the memories and the fault unit: nothing. -/
theorem State.Reports.flt_frame (h : s.Reports t) :
    t = { s with regs := t.regs, fresh := t.fresh, mem := t.mem, flt := t.flt } := by
  have hframe := h.frame
  have hflt : t.flt = { s.flt with events := t.flt.events, head := t.flt.head } := congrArg State.flt hframe
  rw [hflt]
  exact hframe

/-- Settles O60. -/
theorem injectionsAct : Obligations.InjectionsAct := by
  unfold Obligations.InjectionsAct
  intro arg s hlive hlen relates
  obtain ⟨hup, -, -⟩ := State.live_iff.1 hlive
  have hexec : ∀ c det, (c, det) ∈ actingInjections arg → s.injReady det arg →
      ∃ u, s.injectionLogged u det arg ∧ u.flt.events.length < 64 ∧ exec c s = .next (u.injectNow det arg.toNat) := fun c det hc hr => by
    obtain ⟨hlog, hnext⟩ := State.exec_acting hlive hlen hc hr
    refine ⟨_, hlog, ?_, hnext⟩
    obtain ⟨e, he⟩ := hlog.accepts.frame
    rw [he]
    simp only [List.length_append, List.length_singleton]
    omega
  refine ⟨fun hr => ?warn, ?pump, fun hfail hundo hin hlow htest => ?resets, fun hr hl => ?loss, fun hr => ?slate, fun hr => ?txn,
    fun hr => ?stale, fun hr => ?flags, ?ends⟩
  case warn =>
    obtain ⟨u, hlog, hroom, hnext⟩ := hexec (.injSupplyWarn arg) 0x00 (by simp [actingInjections]) hr
    obtain ⟨hpwr, hclk, hactive, hmark, hexp, hlines⟩ := hlog.accepts.rest
    have hkeptu := hlog.accepts.kept
    refine ⟨u, _, hlog, hnext, fun hw => ?_, fun hw hv => ?_⟩
    · rw [State.injectWarn_of_warn (hpwr.symm ▸ hw), hactive]
    · have hspec := State.injectWarn_of_none (hpwr.symm ▸ hw) (hpwr.symm ▸ hv) hroom arg.toNat rfl
      have hsw : u.markSW.exp = s.markSW.exp := (congrArg State.exp (State.markSW_of_exp hexp) :)
      have hlevel : u.warnLevel = s.warnLevel := congrArg (1620 + 10 * ·) (hkeptu.fld_apart (by decide))
      have hpolicy : u.flag F.PWR_DIP_POLICY_POLICY = s.flag F.PWR_DIP_POLICY_POLICY := hkeptu.flag_apart (by decide)
      have htime : u.timeBits 32 = s.timeBits 32 := congrArg (fun x : Clock => x.time.toNat % 2 ^ 32) hclk
      unfold State.warned at hspec
      rw [hsw, hlevel, hpolicy, htime, hpwr, hactive, hlines] at hspec
      exact hspec
  case pump =>
    intro second c hc det hr
    have hin : (c, det) ∈ actingInjections arg := by
      rw [hc]
      cases second <;> simp [actingInjections, det]
    obtain ⟨u, hlog, hroom, hnext⟩ := hexec c det hin hr
    obtain ⟨hpwr, hclk, hactive, hmark, hexp, hlines⟩ := hlog.accepts.rest
    have hanalog : u.analog = true := by
      have hs : s.injState det = true := hr.2.2.1
      have ha : s.injState det = s.analog := by cases second <;> rfl
      unfold State.analog
      rw [hpwr]
      exact ha.symm.trans hs
    have hspec := State.injectDroop second hanalog hroom arg.toNat rfl
    have htime : u.timeBits 32 = s.timeBits 32 := congrArg (fun x : Clock => x.time.toNat % 2 ^ 32) hclk
    rw [hpwr, hactive, htime] at hspec
    refine ⟨u, _, hlog, hnext, ?_⟩
    exact hspec
  case resets =>
    intro cfgsel spi
    have hreset : ∀ u, s.Accepts u → u.Resettable := fun u ⟨⟨e, he⟩, _⟩ => by
      rw [he]
      exact ⟨hup, hfail, hundo, by simp [Power.held, hin, hlow, htest]⟩
    have hstraps : ∀ u, s.Accepts u → u.reg R.SYS_STRAPS = s.reg R.SYS_STRAPS := fun u h => h.kept.reg_eq (by decide) (by decide)
    have hfree : ∀ u, s.Accepts u → u.pwr = s.pwr := fun u h => h.rest.1
    refine ⟨fun hr => ?brownOut, fun hr => ?colophon, fun hr => ?watchdog⟩
    case brownOut =>
      obtain ⟨u, hlog, -, hnext⟩ := hexec (.injBrownOut arg) 0x03 (by simp [actingInjections]) hr
      have hacc := hlog.accepts
      obtain ⟨hwas, hinj, hpwr, hmem, hregs⟩ := State.injectReset (hreset u hacc) .bor
      rw [hfree u hacc] at hpwr
      rw [hstraps u hacc] at hregs
      refine ⟨u, _, hlog, hnext, hwas, hregs _ (by simp) (by simp) (by decide), hinj, fun hidle w hs hb => ?_,
        (congrArg Power.state hpwr :).trans (by simp [Power.restarted, hin]), (congrArg Power.step hpwr :),
        (congrArg Power.stepRunning hpwr :).trans (by simp [ResetClass.losesStores]),
        (congrArg Power.supplyWait hpwr :).trans (by simp [ResetClass.losesStores])⟩
      have hidle' : u.idleStream = true := by
        obtain ⟨e, he⟩ := hacc.frame
        rw [he]
        exact hidle
      have hlost := (hmem hidle').trans (congrArg Memory.clearRuntime (if_pos rfl))
      refine (congrArg (fun m : Memory => m.isValid w) hlost).trans ?_
      exact Memory.isValid_lost hs hb
    case colophon =>
      obtain ⟨u, hlog, -, hnext⟩ := hexec (.injColophonCrc arg) 0x05 (by simp [actingInjections]) hr
      have hacc := hlog.accepts
      obtain ⟨hwas, hinj, hpwr, hmem, hregs⟩ := State.injectReset (hreset u hacc) .soft
      rw [hfree u hacc] at hpwr
      rw [hstraps u hacc] at hregs
      have hnext : exec (.injColophonCrc arg) s = .next ((u.injected fun x => x.startReset .soft false).setFlt
        { (u.injected fun x => x.startReset .soft false).flt with pending := some (5, 0) }) := hnext
      generalize (u.injected fun x => x.startReset .soft false) = t at *
      have hnone : t.flt.pending = none := hwas.2.2.2.2.1
      have hflt : { t.flt with pending := none } = t.flt := by rw [← hnone]
      refine ⟨u, _, hlog, hnext, ?_, rfl, hregs _ (by simp) (by simp) fun _ _ => .inl rfl, hinj,
        (congrArg Power.state hpwr :).trans (by simp [Power.restarted, hin]), (congrArg Power.step hpwr :),
        (congrArg Power.stepRunning hpwr :).trans (by simp [ResetClass.losesStores])⟩
      show u.wasReset { t with fresh := [], flt := { t.flt with pending := none } } .soft
      rw [hflt]
      exact hwas
    case watchdog =>
      obtain ⟨u, hlog, -, hnext⟩ := hexec (.injWatchdog arg) 0x0B (by simp [actingInjections]) hr
      have hacc := hlog.accepts
      obtain ⟨hupu, hfailu, -, hheld⟩ := hreset u hacc
      have hs : (s.up && s.flag F.BND_WDOG_EN) = true := hr.2.2.1
      have hen : u.flag F.BND_WDOG_EN = true := (hacc.kept.flag_apart (by decide)).trans (Bool.and_eq_true_iff.1 hs).2
      obtain ⟨hclass, hwdog, hinj, hpwr⟩ := State.injectWatchdog (u := u.markedInj true) hupu hen hfailu
      have hpwr := hpwr.trans (if_neg (show ¬u.pwr.held = true by simp [hheld]))
      obtain ⟨-, -, -, hmark, -⟩ := hacc.rest
      refine ⟨u, _, hlog, hnext, ⟨_, rfl, ?_⟩, hclass, hwdog, hinj rfl, (congrArg Power.state hpwr :).trans ?_,
        (congrArg Power.kind hpwr :), (congrArg Power.step hpwr :)⟩
      · rw [← hmark]
        rfl
      · have hin' : u.pwr.inReset = none := by rw [hfree u hacc, hin]
        show (if u.pwr.inReset = some .por then PState.off else .waking) = .waking
        rw [hin']
        rfl
  case loss =>
    obtain ⟨u, hlog, hroom, hnext⟩ := hexec (.injRefclkLoss arg) 0x06 (by simp [actingInjections]) hr
    obtain ⟨hpwr, hclk, hactive, hmark, hexp, hlines⟩ := hlog.accepts.rest
    have harg : arg.toNat = 1 ∨ arg.toNat = 2 := by
      have hrange : (decide (1 ≤ arg.toNat) && decide (arg.toNat ≤ 2)) = true := hr.1
      simp only [Bool.and_eq_true, decide_eq_true_eq] at hrange
      omega
    have hanalog : (u.markedInj true).analog = true := by
      have hs : s.analog = true := hr.2.2.1
      unfold State.analog at hs ⊢
      rw [show (u.markedInj true).pwr = s.pwr from hpwr]
      exact hs
    obtain ⟨hclk', hlost, hcause, hgap⟩ := State.refclkLoss_of_analog (s := u.markedInj true) hanalog
      (by rw [show (u.markedInj true).clk = s.clk from hclk]; exact hl) hroom (cause := arg.toNat) (by omega) rfl
    refine ⟨u, _, hlog, hnext, ⟨(u.markedInj true).refclkLoss arg.toNat, ?_, ?_⟩, hlost, hcause, hgap, ?_⟩
    · have hone : arg = 1 ↔ arg.toNat = 1 := ⟨fun h => h ▸ rfl, fun h => BitVec.eq_of_toNat_eq h⟩
      rcases harg with h | h
      · rw [if_pos (hone.2 h), h]
        rfl
      · rw [if_neg fun hn => absurd (h.symm.trans (hone.1 hn)) (by decide), h]
        rfl
    · rw [← hmark]
      rfl
    · rw [← hclk]
      exact hclk'
  case slate =>
    obtain ⟨u, hlog, -, hnext⟩ := hexec (.injMacroFail arg) 0x0A (by simp [actingInjections]) hr
    obtain ⟨⟨e, he⟩, -⟩ := hlog.accepts
    have hfree : u.free = s.free := (congrArg State.free he :)
    have hmem : u.mem = s.mem := (congrArg State.mem he :)
    have hnext : exec (.injMacroFail arg) s = .next (((u.spent.markedInj true).declareMacro arg.toNat Reader.internal.code
        (Config.freeNat u.free)).markedInj u.flt.mark) := hnext
    refine ⟨u, _, hlog, hnext, fun hd => ?_, fun hd => ?_⟩
    · have hsame : (u.spent.markedInj true).declareMacro arg.toNat Reader.internal.code (Config.freeNat u.free) =
          u.spent.markedInj true := if_pos (by rw [show (u.spent.markedInj true).mem = s.mem from hmem]; exact hd)
      rw [hsame, ← hfree]
      rfl
    · obtain ⟨hrep, hdeclared, hfailed, hflag⟩ := State.declareMacro_spec (s := u.spent.markedInj true)
        (m := arg.toNat) (by rw [show (u.spent.markedInj true).mem = s.mem from hmem]; exact hd) Reader.internal.code
        (Config.freeNat u.free)
      generalize (u.spent.markedInj true).declareMacro arg.toNat Reader.internal.code (Config.freeNat u.free) = t at *
      rw [← hmem, ← hfree]
      exact ⟨congrArg (fun x : State => x.markedInj u.flt.mark) hrep.flt_frame, hdeclared, hflag, hfailed, hrep.kept⟩
  case txn =>
    obtain ⟨u, hlog, hroom, hnext⟩ := hexec (.injTxnTimeout arg) 0x0C (by simp [actingInjections]) hr
    obtain ⟨⟨e, he⟩, -⟩ := hlog.accepts
    have hs : (s.up && s.bnd.txn == .open_) = true := hr.2.2.1
    have hopen : u.bnd.txn = .open_ := (congrArg (fun x : State => x.bnd.txn) he :).trans
      (eq_of_beq (Bool.and_eq_true_iff.1 hs).2)
    obtain ⟨t, ht, -, htxn, hstaged, hlatch, -⟩ := txnTimesOut (u.markedInj true) hopen hroom
    refine ⟨u, t.markedInj u.flt.mark, hlog, hnext.trans ?_, ⟨t, ht, ?_⟩, htxn, hstaged, hlatch⟩
    · exact congrArg (fun x : State => Host.Outcome.next (x.markedInj u.flt.mark)) (Host.Outcome.next.inj ht)
    · rw [← (congrArg (fun x : State => x.flt.mark) he :)]
  case stale =>
    obtain ⟨u, hlog, hroom, hnext⟩ := hexec (.injTempStale arg) 0x12 (by simp [actingInjections]) hr
    obtain ⟨⟨e, he⟩, hkeptu⟩ := hlog.accepts
    have hs : s.analog = true := hr.2.2.1
    have hper : u.fld F.TMP_CFG_STALE = s.fld F.TMP_CFG_STALE := hkeptu.fld_apart (by decide)
    have htmp : u.tmp = s.tmp := (congrArg State.tmp he :)
    have hclk : u.clk = s.clk := (congrArg State.clk he :)
    have hanalog : (u.markedInj true).analog = true := by
      rw [he]
      exact hs
    have hnext : exec (.injTempStale arg) s = .next ((u.markedInj true).staleNow.markedInj u.flt.mark) := hnext
    refine ⟨u, _, hlog, hnext, fun hno => ?_, fun hp hst => ?_⟩
    · have hsame : (u.markedInj true).staleNow = u.markedInj true := by
        exact if_pos (.inr (hno.imp (fun h0 => State.stalePeriod_of_zero (s := u.markedInj true) (hper.trans h0))
          fun h1 => htmp.symm ▸ h1))
      rw [hsame]
      rfl
    · obtain ⟨hframe, hflag, hkept⟩ := State.staleNow_flagged (s := u.markedInj true) hanalog (by exact hper.symm ▸ hp)
        (htmp.symm ▸ hst) hroom
      generalize (u.markedInj true).staleNow = t at *
      have htime : u.timeBits 32 = s.timeBits 32 := congrArg (fun x : Clock => x.time.toNat % 2 ^ 32) hclk
      rw [← htmp, ← htime]
      exact ⟨congrArg (fun x : State => x.markedInj u.flt.mark) hframe, hflag, hkept⟩
  case flags =>
    obtain ⟨u, hlog, hroom, hnext⟩ := hexec (.injAgtFlags arg) 0x16 (by simp [actingInjections]) hr
    have he : arg.toNat / 2 ^ 8 % 4 < 256 := by omega
    have hnext : exec (.injAgtFlags arg) s = .next (((u.markedInj true).sticky (arg.toNat / 2 ^ 8 % 4)
        (arg.toNat % 32)).markedInj u.flt.mark) := hnext
    have hframe := State.sticky_frame (s := u.markedInj true) (arg.toNat / 2 ^ 8 % 4) (arg.toNat % 32)
    have hkept := State.sticky_of_room (s := u.markedInj true) he hroom (arg.toNat % 32)
    have hbit : ∀ k < 5, arg.getLsbD k = true → (((u.markedInj true).sticky (arg.toNat / 2 ^ 8 % 4)
        (arg.toNat % 32)).reg R.AGT_STATUS (arg.toNat / 2 ^ 8 % 4)).getLsbD (11 + k) = true := fun k hk hb =>
      State.sticky_bit (s := u.markedInj true) he hk (by
        rw [show 32 = 2 ^ 5 from rfl, Nat.testBit_mod_two_pow, decide_eq_true hk]
        exact hb)
    generalize (u.markedInj true).sticky (arg.toNat / 2 ^ 8 % 4) (arg.toNat % 32) = t at *
    exact ⟨u, _, hlog, hnext, congrArg (fun x : State => x.markedInj u.flt.mark) hframe, hkept, hbit⟩
  case ends =>
    intro k off
    have hresume : ∀ t : State, t.pwr.state = s.pwr.state → t.resumeWake = t := fun t ht =>
      if_pos (.inl (by rw [ht]; exact (State.not_reset_of_up hup).1))
    refine ⟨fun hoff => congrArg Host.Outcome.next (State.injEnd_of_off hoff), fun hon => ⟨?_, ?_, ?_, ?_⟩⟩
    · rintro rfl hreal
      exact congrArg Host.Outcome.next ((State.injEnd_warn hon).trans (if_pos hreal))
    · rintro rfl hreal hw
      refine congrArg Host.Outcome.next ((State.injEnd_warn hon).trans ((if_neg (by simp [hreal])).trans ?_))
      have hdeassert : (s.unheld 0).deassertWarn = (s.unheld 0).setPwr { s.pwr with warn := false, holdCount := s.pwr.hold } :=
        if_pos hw
      rw [hdeassert]
      exact hresume _ rfl
    · rintro rfl
      exact congrArg Host.Outcome.next (if_pos hon)
    · rintro rfl
      exact congrArg Host.Outcome.next (if_pos hon)

end Sys2Proof.Machine
end

section
/-! PROOF.
The codes of the stores: clean words, and single errors of the SEC-DED stores.
-/
namespace Sys2Proof.Machine

/-! ### Bytes and numbers -/

/-- A byte appended to a number, one byte XORed to it in another. -/
theorem xor_mul_add (a b : Nat) (x y : Byte) :
    (a ^^^ b) * 256 + (x ^^^ y).toNat = (a * 256 + x.toNat) ^^^ (b * 256 + y.toNat) := by
  have hx : x.toNat < 2 ^ 8 := x.isLt
  have hy : y.toNat < 2 ^ 8 := y.isLt
  have hxy : (x ^^^ y).toNat < 2 ^ 8 := (x ^^^ y).isLt
  refine Nat.eq_of_testBit_eq fun i => ?_
  rw [Nat.testBit_xor, Nat.mul_comm, Nat.mul_comm a, Nat.mul_comm b, show 256 = 2 ^ 8 from rfl, Nat.testBit_two_pow_mul_add _ hxy,
    Nat.testBit_two_pow_mul_add _ hx, Nat.testBit_two_pow_mul_add _ hy]
  split
  · rw [BitVec.toNat_xor, Nat.testBit_xor]
  · rw [Nat.testBit_xor]

/-- The number that bytes XORed with bytes spell. -/
theorem natBE_zipWith_xor (d e : List Byte) (h : d.length = e.length) :
    natBE (List.zipWith (· ^^^ ·) d e) = natBE d ^^^ natBE e := by
  have hfold : ∀ (d e : List Byte) (a b : Nat), d.length = e.length →
      (List.zipWith (· ^^^ ·) d e).foldl (fun a b => a * 256 + b.toNat) (a ^^^ b) =
        d.foldl (fun a b => a * 256 + b.toNat) a ^^^ e.foldl (fun a b => a * 256 + b.toNat) b := by
    intro d
    induction d with
    | nil =>
      intro e a b h
      rw [List.length_eq_zero_iff.1 h.symm]
      rfl
    | cons x d ih =>
      intro e a b h
      obtain ⟨y, e, rfl⟩ := List.exists_cons_of_length_pos (by rw [← h]; simp : 0 < e.length)
      show (List.zipWith (· ^^^ ·) d e).foldl _ ((a ^^^ b) * 256 + (x ^^^ y).toNat) = _
      rw [xor_mul_add]
      exact ih e _ _ (by simpa using h)
  exact hfold d e 0 0 h

/-- Four bytes, from the number that they spell. -/
theorem bytesBE_natBE {d : List Byte} (h : d.length = 4) : bytesBE 4 (natBE d) = d := by
  obtain ⟨a, b, c, e, rfl⟩ := List.length_eq_four.1 h
  have ha := a.isLt
  have hb := b.isLt
  have hc := c.isLt
  have he := e.isLt
  simp only [bytesBE, natBE, List.foldl_cons, List.foldl_nil, List.cons.injEq, and_true]
  refine ⟨?_, ?_, ?_, ?_⟩ <;>
  · apply BitVec.eq_of_toNat_eq
    rw [BitVec.toNat_ofNat]
    omega

/-! ### The Slate (R563) -/

theorem gfDouble_xor (a b : Byte) : gfDouble (a ^^^ b) = gfDouble a ^^^ gfDouble b := by
  unfold gfDouble
  rw [BitVec.getLsbD_xor, BitVec.shiftLeft_xor_distrib]
  cases a.getLsbD 7 <;> cases b.getLsbD 7 <;> simp only [Bool.xor_false, Bool.xor_true, Bool.not_false, Bool.not_true,
    Bool.false_eq_true, if_false, if_true]
  · exact BitVec.xor_assoc ..
  · ac_rfl
  · have hpair : ∀ x y p : Byte, x ^^^ y = x ^^^ p ^^^ (y ^^^ p) := fun x y p => by
      rw [show x ^^^ p ^^^ (y ^^^ p) = x ^^^ y ^^^ (p ^^^ p) by ac_rfl, BitVec.xor_self, BitVec.xor_zero]
    exact hpair _ _ _

theorem gfScale_xor (a b : Byte) (n : Nat) : gfScale (a ^^^ b) n = gfScale a n ^^^ gfScale b n := by
  induction n with
  | zero => rfl
  | succ n ih => rw [gfScale, ih, gfDouble_xor, gfScale, gfScale]

/-- α^n times a symbol, one power up. -/
theorem gfDouble_gfScale (a : Byte) (n : Nat) : gfDouble (gfScale a n) = gfScale a (n + 1) := rfl

/-- α^n times α times a symbol. -/
theorem gfScale_gfDouble (a : Byte) (n : Nat) : gfScale (gfDouble a) n = gfScale a (n + 1) := by
  induction n with
  | zero => rfl
  | succ n ih => exact congrArg gfDouble ih

/-- S1 of symbols with more symbols after them. -/
theorem slateS1_append (d e : List Byte) : slateS1 (d ++ e) = slateS1 d ^^^ gfScale (slateS1 e) d.length := by
  induction d with
  | nil => simp [slateS1, gfScale]
  | cons x d ih =>
    rw [List.cons_append, slateS1, ih, gfDouble_xor, slateS1, List.length_cons, gfDouble_gfScale]
    exact (BitVec.xor_assoc ..).symm

/-- S0 of symbols with more symbols after them. -/
theorem xorAll_append (d e : List Byte) : xorAll (d ++ e) = xorAll d ^^^ xorAll e := by
  have hfold : ∀ (e : List Byte) (a : Byte), e.foldl (· ^^^ ·) a = a ^^^ xorAll e := fun e => by
    induction e with
    | nil => intro a; simp [xorAll]
    | cons x e ih =>
      intro a
      have hx : xorAll (x :: e) = x ^^^ xorAll e := (ih (0 ^^^ x)).trans (congrArg (· ^^^ xorAll e) BitVec.zero_xor)
      rw [List.foldl_cons, ih, hx, BitVec.xor_assoc]
  rw [xorAll, List.foldl_append, hfold e]
  rfl

/-- The factor of the check symbols solves their equation. -/
theorem gfScale_slateSolve : ∀ y : Byte, gfScale (gfMul slateSolve y) 16 ^^^ gfScale (gfMul slateSolve y) 17 = y := by
  decide +kernel

/-- The syndromes of a Slate word as it was encoded. -/
theorem slate_clean {d : List Byte} (h : d.length = 16) :
    xorAll (d ++ slateCheck d) = 0 ∧ slateS1 (d ++ slateCheck d) = 0 := by
  rw [xorAll_append, slateS1_append, h]
  unfold slateCheck
  dsimp only
  have hsolve := gfScale_slateSolve (slateS1 d ^^^ gfScale (xorAll d) 16)
  generalize gfMul slateSolve (slateS1 d ^^^ gfScale (xorAll d) 16) = c at *
  constructor
  · simp [xorAll]
  · show slateS1 d ^^^ gfScale (xorAll d ^^^ c ^^^ gfDouble (c ^^^ gfDouble 0)) 16 = 0
    rw [show gfDouble 0 = 0 from rfl, show c ^^^ 0 = c from BitVec.xor_zero, gfScale_xor, gfScale_xor, gfScale_gfDouble,
      BitVec.xor_assoc, hsolve, ← BitVec.xor_assoc]
    exact BitVec.xor_self

/-! ### Byte parities (R568) -/

/-- The parity check of four bytes finds none that failed. -/
theorem parityDecode_clean {d : List Byte} (h : d.length = 4) : parityDecode (d ++ [parityCheck d]) = .clean d := by
  obtain ⟨a, b, c, e, rfl⟩ := List.length_eq_four.1 h
  have hlt : ∀ x, parity x < 2 := fun x => Nat.mod_lt _ (by decide)
  have hp : (parityCheck [a, b, c, e]).toNat = 8 * parity a + 4 * parity b + 2 * parity c + parity e := by
    have := hlt a
    have := hlt b
    have := hlt c
    have := hlt e
    simp only [parityCheck, List.foldl_cons, List.foldl_nil, BitVec.toNat_ofNat]
    omega
  have hnone : (List.range 4).filter (fun n => decide (parity (([a, b, c, e] ++ [parityCheck [a, b, c, e]]).getD n 0) ≠
      (([a, b, c, e] ++ [parityCheck [a, b, c, e]]).getD 4 0).toNat / 2 ^ (3 - n) % 2)) = [] := by
    have := hlt a
    have := hlt b
    have := hlt c
    have := hlt e
    refine List.filter_eq_nil_iff.2 fun n hn => ?_
    have hn : n < 4 := List.mem_range.1 hn
    rw [show ([a, b, c, e] ++ [parityCheck [a, b, c, e]]).getD 4 0 = parityCheck [a, b, c, e] from rfl, hp]
    simp only [ne_eq, decide_not, Bool.not_eq_true', decide_eq_false_iff_not, not_not]
    interval_cases n <;> simp <;> omega
  unfold parityDecode
  dsimp only
  rw [hnone]
  rfl

/-! ### SEC-DED (R567) -/

/-- The syndrome is linear. -/
theorem secSyndrome_xor (d e : Nat) (cols : List Nat) (i : Nat) :
    secSyndrome (d ^^^ e) cols i = secSyndrome d cols i ^^^ secSyndrome e cols i := by
  have hbit : ∀ n i : Nat, (n / 2 ^ i % 2 = 1) = (n.testBit i = true) := fun n i => by
    rw [Nat.testBit_eq_decide_div_mod_eq, decide_eq_true_eq]
  induction cols generalizing i with
  | nil => simp [secSyndrome]
  | cons c cols ih =>
    simp only [secSyndrome, hbit, Nat.testBit_xor]
    rw [ih]
    cases d.testBit i <;> cases e.testBit i <;> simp only [Bool.xor_false, Bool.xor_true, Bool.not_false, Bool.not_true,
      Bool.false_eq_true, if_false, if_true, Nat.zero_xor]
    · ac_rfl
    · ac_rfl
    · rw [show ∀ x y : Nat, c ^^^ x ^^^ (c ^^^ y) = c ^^^ c ^^^ (x ^^^ y) from fun x y => by ac_rfl, Nat.xor_self, Nat.zero_xor]

/-- A syndrome has seven bits. -/
theorem secSyndrome_lt (d : Nat) : secSyndrome d secColumns 0 < 128 := by
  have hall : ∀ (cols : List Nat) i, (∀ c ∈ cols, c < 2 ^ 7) → secSyndrome d cols i < 2 ^ 7 := by
    intro cols
    induction cols with
    | nil => exact fun i _ => by simp [secSyndrome]
    | cons c cols ih =>
      intro i hc
      refine Nat.xor_lt_two_pow ?_ (ih _ fun x hx => hc x (List.mem_cons_of_mem _ hx))
      split
      · exact hc c List.mem_cons_self
      · decide
  exact hall secColumns 0 (by decide)

/-- The check byte of a word. -/
theorem secCheck_toNat (d : List Byte) : (secCheck d).toNat = secSyndrome (natBE d) secColumns 0 := by
  rw [secCheck, BitVec.toNat_ofNat, Nat.mod_eq_of_lt (by have := secSyndrome_lt (natBE d); omega)]

/-- A single error of a data bit shows its column. -/
theorem secSyndrome_two_pow : ∀ i < 32, secSyndrome (2 ^ i) secColumns 0 ≠ 0 ∧
    secColumns.idxOf? (secSyndrome (2 ^ i) secColumns 0) = some i := by
  decide +kernel

/-- The syndrome that the SEC-DED decoder finds in a word with the check byte `c`. -/
def secFound (d : List Byte) (c : Byte) : Nat := secSyndrome (natBE d) secColumns 0 ^^^ (c.toNat % 128)

section
variable {d : List Byte} {c : Byte} (hd : d.length = 4)
include hd

/-- A word with its check byte, taken apart. -/
theorem take_getD_check : (d ++ [c]).take 4 = d ∧ (d ++ [c]).getD 4 0 = c := by
  rw [← hd]
  simp

/-- No error. -/
theorem secDecode_clean (h : secFound d c = 0) : secDecode (d ++ [c]) = .clean d := by
  obtain ⟨htake, hget⟩ := take_getD_check (c := c) hd
  unfold secDecode
  rw [htake, hget]
  exact if_pos h

/-- An error of a data bit is corrected. -/
theorem secDecode_data {i : Nat} (h : secFound d c ≠ 0) (hi : secColumns.idxOf? (secFound d c) = some i) :
    secDecode (d ++ [c]) = .corrected (bytesBE 4 (natBE d ^^^ 2 ^ i)) (secFound d c) 0 := by
  obtain ⟨htake, hget⟩ := take_getD_check (c := c) hd
  unfold secDecode
  rw [htake, hget]
  refine (if_neg h).trans ?_
  unfold secFound at hi
  simp only [hi]
  rfl

/-- An error of a check bit leaves the data. -/
theorem secDecode_check (h : secFound d c ≠ 0) (hi : secColumns.idxOf? (secFound d c) = none)
    (hk : (List.range 7).any (fun k => 2 ^ k = secFound d c) = true) : secDecode (d ++ [c]) = .corrected d (secFound d c) 0 := by
  obtain ⟨htake, hget⟩ := take_getD_check (c := c) hd
  unfold secDecode
  rw [htake, hget]
  refine (if_neg h).trans ?_
  unfold secFound at hi
  simp only [hi]
  exact if_pos hk

end

/-- Four bytes with bit `b` of byte `k` alone. -/
def flipBytes (k b : Nat) : List Byte := listModify (· ^^^ (1#8 <<< b)) k [0, 0, 0, 0]

/-- The number that a flipped bit adds. -/
theorem natBE_flipBytes : ∀ k < 4, ∀ b < 8, natBE (flipBytes k b) = 2 ^ (8 * (3 - k) + b) := by
  decide +kernel

/-- Four bytes with one bit flipped. -/
theorem listModify_flip {d : List Byte} (hd : d.length = 4) {k : Nat} (hk : k < 4) (b : Nat) :
    listModify (· ^^^ (1#8 <<< b)) k d = List.zipWith (· ^^^ ·) d (flipBytes k b) ∧ (flipBytes k b).length = 4 := by
  obtain ⟨w, x, y, z, rfl⟩ := List.length_eq_four.1 hd
  interval_cases k <;> simp [listModify, flipBytes]

/-- A data bit flipped under the check byte of the word. -/
theorem secDecode_flip {d : List Byte} (hd : d.length = 4) {k b : Nat} (hk : k < 4) (hb : b < 8) :
    ∃ syn, secDecode (listModify (· ^^^ (1#8 <<< b)) k d ++ [secCheck d]) = .corrected d syn 0 := by
  obtain ⟨hflip, hlen⟩ := listModify_flip hd hk b
  have hnum : natBE (listModify (· ^^^ (1#8 <<< b)) k d) = natBE d ^^^ 2 ^ (8 * (3 - k) + b) := by
    rw [hflip, natBE_zipWith_xor _ _ (by rw [hd, hlen]), natBE_flipBytes k hk b hb]
  have hlen' : (listModify (· ^^^ (1#8 <<< b)) k d).length = 4 := by rw [hflip, List.length_zipWith, hd, hlen, min_self]
  obtain ⟨hne, hcol⟩ := secSyndrome_two_pow (8 * (3 - k) + b) (by omega)
  have hfound : secFound (listModify (· ^^^ (1#8 <<< b)) k d) (secCheck d) = secSyndrome (2 ^ (8 * (3 - k) + b)) secColumns 0 := by
    rw [secFound, hnum, secSyndrome_xor, secCheck_toNat, Nat.mod_eq_of_lt (secSyndrome_lt _), Nat.xor_right_comm, Nat.xor_self,
      Nat.zero_xor]
  rw [← hfound] at hne hcol
  refine ⟨secFound (listModify (· ^^^ (1#8 <<< b)) k d) (secCheck d), (secDecode_data hlen' hne hcol).trans ?_⟩
  rw [hnum, Nat.xor_assoc, Nat.xor_self, Nat.xor_zero, bytesBE_natBE hd]

/-- No column of a data bit is that of a check bit. -/
theorem idxOf_check : ∀ b < 7, secColumns.idxOf? (2 ^ b) = none ∧ (List.range 7).any (fun k => 2 ^ k = 2 ^ b) = true := by
  decide

/-- A check bit flipped. -/
theorem secDecode_flipCheck {d : List Byte} (hd : d.length = 4) {b : Nat} (hb : b < 7) :
    ∃ syn, secDecode (d ++ [secCheck d ^^^ (1#8 <<< b)]) = .corrected d syn 0 := by
  have hfound : secFound d (secCheck d ^^^ (1#8 <<< b)) = 2 ^ b := by
    have hbit : (1#8 <<< b).toNat = 2 ^ b := by interval_cases b <;> rfl
    have hlt : 2 ^ b < 2 ^ 7 := Nat.pow_lt_pow_right (by decide) hb
    rw [secFound, BitVec.toNat_xor, hbit, secCheck_toNat, Nat.mod_eq_of_lt (show _ < 128 from Nat.xor_lt_two_pow (secSyndrome_lt _ : _ < 2 ^ 7) hlt),
      ← Nat.xor_assoc, Nat.xor_self, Nat.zero_xor]
  obtain ⟨hnone, hany⟩ := idxOf_check b hb
  rw [← hfound] at hnone hany
  exact ⟨_, secDecode_check hd (by rw [hfound]; exact (Nat.two_pow_pos b).ne') hnone hany⟩

/-- Settles O14. -/
theorem codesCorrect : Obligations.CodesCorrect := by
  unfold Obligations.CodesCorrect
  refine ⟨fun id d hd => ?clean, fun id k b d hid hd hk hb hcheck => ?flip⟩
  case clean =>
    unfold decodeWord encodeWord
    by_cases hs : id = Store.slate
    · rw [if_pos hs, if_pos hs]
      have hd : d.length = 16 := hd.trans (if_pos hs)
      unfold slateDecode
      dsimp only
      rw [if_pos (slate_clean hd), ← hd, List.take_left]
    · have hd : d.length = 4 := hd.trans (if_neg hs)
      rw [if_neg hs, if_neg hs]
      split
      · exact parityDecode_clean hd
      · refine secDecode_clean hd ?_
        rw [secFound, secCheck_toNat, Nat.mod_eq_of_lt (secSyndrome_lt _), Nat.xor_self]
  case flip =>
    obtain ⟨hs, hp⟩ := (by decide : ∀ id ∈ [Store.cal, Store.defect, Store.log], id ≠ Store.slate ∧ parityCoded id = false) id hid
    have hdecode : ∀ c, decodeWord id none c = secDecode c := fun c => (if_neg hs).trans (if_neg (by simp [hp]))
    have hencode : encodeWord id d = d ++ [secCheck d] := (if_neg hs).trans (if_neg (by simp [hp]))
    rw [hencode, hdecode]
    obtain ⟨w, x, y, z, rfl⟩ := List.length_eq_four.1 hd
    rcases Nat.lt_or_ge k 4 with h4 | h4
    · have hsplit : listModify (· ^^^ (1#8 <<< b)) k ([w, x, y, z] ++ [secCheck [w, x, y, z]]) =
          listModify (· ^^^ (1#8 <<< b)) k [w, x, y, z] ++ [secCheck [w, x, y, z]] := by
        interval_cases k <;> rfl
      rw [hsplit]
      exact secDecode_flip hd h4 hb
    · obtain rfl : k = 4 := by omega
      exact secDecode_flipCheck hd (hcheck rfl)

end Sys2Proof.Machine
end

section
/-! PROOF.
Bulk reads.
-/
namespace Sys2Proof.Machine

variable {s t : State}

/-! ### Reads that succeed -/

/-- A word that could be read has failed no store. -/
theorem State.readWord_failing {rd : Reader} {inspect : Bool} {w : WordAddr} {r : ReadOut}
    (h : s.readWord rd inspect w = (some r, t)) : t.mem.failing = s.mem.failing := by
  have hflag : ∀ (u : State) f, (u.setFlag f true).mem = u.mem := fun u f => State.setFlag_mem ..
  unfold State.readWord at h
  split at h
  · split at h
    · rw [← (Prod.mk.inj h).2]
    · dsimp only at h
      split at h
      · rw [← (Prod.mk.inj h).2]
      · rw [← (Prod.mk.inj h).2, hflag]
    · exact absurd (Prod.mk.inj h).1 (by simp)
  · rw [← (Prod.mk.inj h).2]

/-- Words that could be read have failed no store. -/
theorem State.readWords_failing {rd : Reader} {inspect : Bool} {id : Nat} {bank : Bool} (n : Nat) :
    ∀ {s t : State} {k : Nat} {r : List Byte × Bool}, s.readWords rd inspect id bank k n = (some r, t) →
      t.mem.failing = s.mem.failing := by
  induction n with
  | zero => 
    intro s t k r h
    rw [← (Prod.mk.inj h).2]
  | succ n ih =>
    intro s t k r h
    unfold State.readWords at h
    split at h
    · exact absurd (Prod.mk.inj h).1 (by simp)
    next x u hword =>
      have hfirst := State.readWord_failing hword
      split at h
      · exact absurd (Prod.mk.inj h).1 (by simp)
      next d c v hrest =>
        rw [← (Prod.mk.inj h).2, ih hrest, hfirst]

/-- Bytes that could be read have failed no store. -/
theorem State.readBytes_failing {rd : Reader} {inspect : Bool} {id : Nat} {bank : Bool} {off len : Nat} {r : List Byte × Bool}
    (h : s.readBytes rd inspect id bank off len = (some r, t)) : t.mem.failing = s.mem.failing := by
  unfold State.readBytes at h
  dsimp only at h
  split at h
  · exact absurd (Prod.mk.inj h).1 (by simp)
  next d c u hwords =>
    rw [← (Prod.mk.inj h).2]
    exact State.readWords_failing _ hwords

/-! ### Words that nothing has written (R564) -/

/-- Words of memories with no valid bit. -/
theorem Memory.plainWords_invalid {m : Memory} (h : m.valid = []) (id : Nat) (bank : Bool) (n : Nat) :
    ∀ k, m.plainWords id bank k n = List.replicate (n * wordSize id) 0 := by
  induction n with
  | zero => 
    intro k
    rw [Nat.zero_mul]
    rfl
  | succ n ih =>
    intro k
    have hfirst : m.plainWord ⟨id, bank, k⟩ = List.replicate (wordSize id) 0 := by
      unfold Memory.plainWord Memory.isValid
      rw [h]
      rfl
    rw [Memory.plainWords, hfirst, ih, List.replicate_append_replicate, Nat.succ_mul, Nat.add_comm]

/-- A range of memories with no valid bit reads as zeros. -/
theorem State.readBytes_invalid (h : s.mem.valid = []) (rd : Reader) (inspect : Bool) (id : Nat) (bank : Bool) (off len : Nat) :
    s.readBytes rd inspect id bank off len = (some (List.replicate len 0, false), s) := by
  have hclean : ∀ w, s.wordClean w := fun w hv => by
    unfold Memory.isValid at hv
    rw [h] at hv
    cases hv
  rw [State.readBytes_plain rd inspect id bank rfl fun j _ => hclean _, Memory.plainWords_invalid h, List.drop_replicate,
    List.take_replicate]
  have hmin : min len ((if len = 0 then 0 else (off + len - 1) / wordSize id + 1 - off / wordSize id) * wordSize id -
      (off - off / wordSize id * wordSize id)) = len := by
    unfold wordSize
    split
    · rename_i h0
      omega
    · split <;> omega
  rw [hmin]

/-! ### BULK_RD -/

/-- A bulk read that nothing refuses, outside the Colophon and raw mode. -/
theorem State.bulkRead_of_read {x : Extent} {inspect : Bool} {r : List Byte × Bool}
    (hcheck : s.extentCheck x (banked x.store) = Status.ok) (hslate : ¬(x.store = Store.slate ∧ s.pwr.state = .standby))
    (hcol : x.store ≠ Store.colophon) (hraw : s.rawAccess x = false)
    (hread : ∀ bank, (bankedOf x.store = none → bank = false) →
      s.readBytes .hostRead inspect x.store bank x.low x.len = (some r, t)) :
    s.bulkRead x inspect = ⟨Status.ok, r.1, t⟩ := by
  unfold State.bulkRead
  dsimp only
  rw [if_neg (by simp [hcheck]), if_neg hslate, if_neg hcol, if_neg (by simp [hraw]), hread _ fun hn => by rw [hn]]

/-- The range that a packet names. -/
theorem extent_plainPacket (op : Nat) (flags : Byte) {id off : Nat} (hid : id < 256) (hoff : off < 2 ^ 24) (len : Word) :
    (plainPacket op flags (BitVec.ofNat 32 (id * 2 ^ 24 + off)) len).extent = ⟨id, off, len.toNat⟩ := by
  unfold Packet.extent Packet.store plainPacket
  dsimp only
  rw [BitVec.toNat_ofNat, Nat.mod_eq_of_lt (by omega)]
  congr 1 <;> omega

/-- A bulk read of the range that its packet names is answered. -/
theorem State.exec_bulkRd {flags : Byte} {addr : BitVec 32} {len : Word} {x : Extent} {u : State} {d : List Byte}
    (h : s.portFree (plainPacket 0x84 flags addr len) = true) (hx : (plainPacket 0x84 flags addr len).extent = x)
    (hread : s.slotBegin.bulkRead x (plainPacket 0x84 flags addr len).inspect = ⟨Status.ok, d, u.setPort s.slotBegin.port⟩)
    (hfail : u.mem.failing = []) :
    ∃ t, exec (.bulkRd flags addr len) s = .next t ∧ t.answers (plainPacket 0x84 flags addr len) Status.ok d ∧
      t = { u with regs := t.regs, port := t.port } ∧ u.regsKept t [(F.CP_STATUS_LAST_SEQ, 0)] := by
  have hexec : s.slotBegin.execPacket (plainPacket 0x84 flags addr len) false = ⟨Status.ok, d, u.setPort s.slotBegin.port⟩ := by
    rw [← hread, ← hx]
    rfl
  obtain ⟨hans, hframe, hkept⟩ := State.packetSlot_exec (lost := 0) h rfl hexec rfl hfail (by show ¬(0x84 = 0x8A ∧ _); simp)
  exact ⟨_, rfl, hans, hframe, hkept⟩

/-- Settles O12. -/
theorem bulkRdAnswers : Obligations.BulkRdAnswers := by
  unfold Obligations.BulkRdAnswers
  intro flags id off len s addr p x hid hoff h hcheck hraw hslate
  obtain ⟨c, hbegin⟩ := State.portFree_begin h
  have hextent := extent_plainPacket 0x84 flags hid hoff len
  have hcheck' : (s.setPort c).extentCheck ⟨id, off, len.toNat⟩ (banked id) = Status.ok := hcheck
  have hslate' : ¬(id = Store.slate ∧ (s.setPort c).pwr.state = .standby) := hslate
  have hraw' : (s.setPort c).rawAccess ⟨id, off, len.toNat⟩ = false := hraw
  refine ⟨fun hcol => ?colophon, fun hcol hvalid => ?empty, fun corrected d u hbank hcol hread => ?checked⟩
  case colophon =>
    refine State.exec_bulkRd h hextent ?_ (State.portFree_failing h)
    rw [hbegin]
    unfold State.bulkRead
    dsimp only
    rw [if_neg (not_not.2 hcheck'), if_neg hslate', if_pos hcol]
    rfl
  case empty =>
    have hread := State.bulkRead_of_read (s := s.setPort c) (inspect := p.inspect) hcheck' hslate' hcol hraw' fun bank _ =>
      State.readBytes_invalid (s := s.setPort c) hvalid .hostRead p.inspect id bank (off % 2 ^ 23) len.toNat
    refine State.exec_bulkRd h hextent ?_ (State.portFree_failing h)
    rw [hbegin]
    exact hread
  case checked =>
    have hnone : bankedOf id = none := by
      simp only [banked, Bool.or_eq_false_iff, beq_eq_false_iff_ne] at hbank
      unfold bankedOf
      exact (if_neg hbank.1.1).trans ((if_neg hbank.1.2).trans (if_neg hbank.2))
    have hport : u.port = s.slotBegin.port := by
      have hrep : s.slotBegin.Reports (s.slotBegin.readBytes .hostRead p.inspect id false (off % 2 ^ 23) len.toNat).2 :=
        .readBytes ..
      rw [hread] at hrep
      exact (congrArg State.port hrep.frame :)
    have hfail : u.mem.failing = [] := (State.readBytes_failing hread).trans (by
      rw [hbegin]
      exact (State.portFree_failing h : s.mem.failing = []))
    refine State.exec_bulkRd h hextent ?_ hfail
    rw [← hport]
    rw [hbegin] at hread ⊢
    exact State.bulkRead_of_read (s := s.setPort c) hcheck' hslate' hcol hraw' fun bank hb => by rw [hb hnone]; exact hread

end Sys2Proof.Machine
end

section
/-! PROOF.
Bulk writes of whole words.
-/
namespace Sys2Proof.Machine

variable {s t : State} {m : Memory} {v w : WordAddr}

/-! ### One word stored -/

/-- A word whose cells lie within its bank. -/
def WordAddr.inBank (w : WordAddr) : Prop := (w.word + 1) * rawSize w.store ≤ 2 ^ 23

/-- Cells and keys of two words of different banks, or of different places in one bank, are apart. -/
theorem WordAddr.apart (hv : v.inBank) (hw : w.inBank) (h : ¬(v.store = w.store ∧ v.bank = w.bank ∧ v.word = w.word)) :
    (v.cell + rawSize v.store ≤ w.cell ∨ w.cell + rawSize w.store ≤ v.cell) ∧ v.key ≠ w.key := by
  unfold WordAddr.inBank at hv hw
  unfold WordAddr.cell WordAddr.key cellAddr bankBase
  have hr : ∀ id, 1 ≤ rawSize id := fun id => by
    unfold rawSize
    split <;> decide
  have hvw : v.word + 1 ≤ (v.word + 1) * rawSize v.store := Nat.le_mul_of_pos_right _ (hr _)
  have hww : w.word + 1 ≤ (w.word + 1) * rawSize w.store := Nat.le_mul_of_pos_right _ (hr _)
  have hb : ∀ b : Bool, bit b ≤ 1 := by decide
  have hbv := hb v.bank
  have hbw := hb w.bank
  by_cases hbank : v.store = w.store ∧ v.bank = w.bank
  · obtain ⟨hs, hk⟩ := hbank
    rw [hs] at hv hvw ⊢
    rw [hk]
    have hne : v.word ≠ w.word := fun hx => h ⟨hs, hk, hx⟩
    refine ⟨?_, by omega⟩
    rcases Nat.lt_or_gt_of_ne hne with hlt | hlt
    · have := Nat.mul_le_mul_right (rawSize w.store) (show v.word + 1 ≤ w.word from hlt)
      rw [Nat.succ_mul] at this
      omega
    · have := Nat.mul_le_mul_right (rawSize w.store) (show w.word + 1 ≤ v.word from hlt)
      rw [Nat.succ_mul] at this
      omega
  · have hinj : ∀ a b : Bool, bit a = bit b → a = b := by decide
    have hne : v.store * 2 + bit v.bank ≠ w.store * 2 + bit w.bank := fun he =>
      hbank ⟨by omega, hinj _ _ (by omega)⟩
    rw [Nat.succ_mul] at hv hw hvw hww
    omega

/-- A word stored is read back. -/
theorem Memory.putRaw_self {raw : List Byte} (h : raw.length = rawSize w.store) :
    (m.putRaw w raw).raw w = raw ∧ (m.putRaw w raw).isValid w = true := by
  refine ⟨?_, Cells.get_set_self _ _ _⟩
  unfold Memory.raw
  rw [← h]
  exact Cells.getRange_setRange raw

/-- A word stored leaves every other. -/
theorem Memory.putRaw_other {raw : List Byte} (h : raw.length = rawSize w.store) (hv : v.inBank) (hw : w.inBank)
    (hne : ¬(v.store = w.store ∧ v.bank = w.bank ∧ v.word = w.word)) :
    (m.putRaw w raw).raw v = m.raw v ∧ (m.putRaw w raw).isValid v = m.isValid v := by
  obtain ⟨hcell, hkey⟩ := WordAddr.apart hv hw hne
  refine ⟨?_, Cells.get_set_ne _ _ hkey⟩
  unfold Memory.raw
  refine Cells.getRange_congr fun j hj => ?_
  exact Cells.get_setRange_outside raw (by omega)

/-! ### Consecutive words stored -/

/-- The memory with `n` words of four bytes stored from word `k` of a store on. -/
def Memory.putWords (m : Memory) (id k : Nat) (d : List Byte) : Nat → Memory
  | 0 => m
  | n + 1 => (m.putRaw ⟨id, false, k⟩ (encodeWord id (d.take 4))).putWords id (k + 1) (d.drop 4) n

/-- What words stored leave of the memory. -/
structure Memory.Puts (m m' : Memory) (id k : Nat) (d : List Byte) (n : Nat) : Prop where
  frame : m' = { m with cells := m'.cells, valid := m'.valid, writebacks := m'.writebacks }
  stored : ∀ j < n, m'.raw ⟨id, false, k + j⟩ = encodeWord id ((d.drop (4 * j)).take 4) ∧
    m'.isValid ⟨id, false, k + j⟩ = true
  other : ∀ w : WordAddr, w.inBank → ¬(w.store = id ∧ w.bank = false ∧ k ≤ w.word ∧ w.word < k + n) →
    m'.raw w = m.raw w ∧ m'.isValid w = m.isValid w

/-- The code of a word of four bytes outside the Slate: five raw bytes, the data first. -/
theorem encodeWord_four {id : Nat} (hid : id ≠ Store.slate) {d : List Byte} (hd : d.length = 4) :
    (encodeWord id d).length = 5 ∧ (encodeWord id d).take 4 = d := by
  unfold encodeWord
  rw [if_neg hid]
  split <;> exact ⟨by simp [hd], by rw [← hd, List.take_left]⟩

/-- Words stored one after the other. -/
theorem Memory.putWords_spec {id : Nat} (hid : id ≠ Store.slate) (n : Nat) : ∀ (m : Memory) (k : Nat) (d : List Byte),
    d.length = 4 * n → (k + n) * 5 ≤ 2 ^ 23 → m.Puts (m.putWords id k d n) id k d n := by
  have hsize : rawSize id = 5 := if_neg hid
  induction n with
  | zero => exact fun m k d _ _ => ⟨rfl, fun j hj => absurd hj (by omega), fun w _ _ => ⟨rfl, rfl⟩⟩
  | succ n ih =>
    intro m k d hd hk
    have hlen : (encodeWord id (d.take 4)).length = rawSize id := by
      rw [hsize]
      exact (encodeWord_four hid (by rw [List.length_take]; omega)).1
    have hin : ∀ j ≤ n, WordAddr.inBank ⟨id, false, k + j⟩ := fun j hj => by
      unfold WordAddr.inBank
      rw [hsize]
      show (k + j + 1) * 5 ≤ _
      omega
    obtain ⟨hframe, hstored, hother⟩ := ih (m.putRaw ⟨id, false, k⟩ (encodeWord id (d.take 4))) (k + 1) (d.drop 4)
      (by rw [List.length_drop]; omega) (by omega)
    have hself := Memory.putRaw_self (m := m) (w := ⟨id, false, k⟩) hlen
    unfold Memory.putWords
    refine ⟨hframe, fun j hj => ?_, fun w hw hout => ?_⟩
    · rcases j with _ | j
      · obtain ⟨hraw, hvalid⟩ := hother ⟨id, false, k⟩ (hin 0 (by omega)) (by simp)
        exact ⟨hraw.trans hself.1, hvalid.trans hself.2⟩
      · obtain ⟨hraw, hvalid⟩ := hstored j (by omega)
        rw [List.drop_drop, show k + 1 + j = k + (j + 1) by omega, show 4 + 4 * j = 4 * (j + 1) by omega] at hraw
        rw [show k + 1 + j = k + (j + 1) by omega] at hvalid
        exact ⟨hraw, hvalid⟩
    · obtain ⟨hraw, hvalid⟩ := hother w hw fun ⟨hs, hb, hlo, hhi⟩ => hout ⟨hs, hb, by omega, by omega⟩
      obtain ⟨hraw', hvalid'⟩ := Memory.putRaw_other (m := m) hlen hw (hin 0 (by omega))
        fun ⟨hs, hb, hx⟩ => hout ⟨hs, hb, hx.ge, hx ▸ (by show k < k + (n + 1); omega)⟩
      exact ⟨hraw.trans hraw', hvalid.trans hvalid'⟩

/-! ### Words read back -/

/-- A word whose raw bytes are a code is without an error, whatever macro is erased. -/
theorem State.wordClean_of_encoded {w : WordAddr} (hid : w.store ≠ Store.slate) {d : List Byte} (hd : d.length = 4)
    (h : s.mem.raw w = encodeWord w.store d) : s.wordClean w := by
  have hsize : wordSize w.store = 4 := if_neg hid
  have hclean := codesCorrect.1 w.store d (hd.trans hsize.symm)
  intro _
  rw [h, hsize, (encodeWord_four hid hd).2, ← hclean]
  unfold decodeWord
  rw [if_neg hid, if_neg hid]

/-- Valid words read as what they hold. -/
theorem Memory.plainWords_of_stored {id : Nat} (hid : id ≠ Store.slate) (n : Nat) : ∀ (k : Nat) (d : List Byte),
    d.length = 4 * n → (∀ j < n, m.raw ⟨id, false, k + j⟩ = encodeWord id ((d.drop (4 * j)).take 4) ∧
      m.isValid ⟨id, false, k + j⟩ = true) → m.plainWords id false k n = d := by
  have hsize : wordSize id = 4 := if_neg hid
  induction n with
  | zero => exact fun k d hd _ => (List.length_eq_zero_iff.1 (by omega)).symm
  | succ n ih =>
    intro k d hd h
    have hrest := ih (k + 1) (d.drop 4) (by rw [List.length_drop]; omega) fun j hj => by
      rw [show k + 1 + j = k + (j + 1) by omega, List.drop_drop, show 4 + 4 * j = 4 * (j + 1) by omega]
      exact h (j + 1) (by omega)
    obtain ⟨hraw, hvalid⟩ := h 0 (by omega)
    rw [Nat.add_zero] at hraw hvalid
    have hfirst : m.plainWord ⟨id, false, k⟩ = d.take 4 := by
      unfold Memory.plainWord
      rw [if_pos hvalid]
      show (m.raw ⟨id, false, k⟩).take (wordSize id) = _
      rw [hsize]
      exact (congrArg (List.take 4) hraw).trans (encodeWord_four hid (by rw [List.length_take, Nat.mul_zero, List.drop_zero]; omega)).2
    rw [Memory.plainWords, hfirst, hrest, List.take_append_drop]

/-- Words stored read back. -/
theorem State.readBytes_stored {m : Memory} {id off : Nat} (hid : id ≠ Store.slate) {d : List Byte} (hoff : off % 4 = 0)
    (hd : d.length % 4 = 0) (h : m.Puts s.mem id (off / 4) d (d.length / 4)) (rd : Reader) (inspect : Bool) :
    s.readBytes rd inspect id false off d.length = (some (d, false), s) := by
  have hsize : wordSize id = 4 := if_neg hid
  have hwords := Memory.plainWords_of_stored hid (d.length / 4) (off / 4) d (by omega) h.stored
  have hread := State.readBytes_plain (s := s) rd inspect id false (off := off) (len := d.length) (n := d.length / 4)
    (by rw [hsize]; split <;> omega) fun j hj => by
      rw [hsize]
      exact State.wordClean_of_encoded hid (by rw [List.length_take, List.length_drop]; omega) (h.stored j hj).1
  rw [hsize, hwords, show off - off / 4 * 4 = 0 by omega, List.drop_zero, List.take_length] at hread
  exact hread

/-! ### BULK_WR -/

/-- A word of four bytes written, with no flip armed for its store. -/
theorem State.writePart_word {id k : Nat} (hid : id ≠ Store.slate) (hflip : s.mem.flip ≠ some id) {d : List Byte}
    (hd : d.length = 4) : s.writePart ⟨id, false, k⟩ 0 d = s.setMem (s.mem.putRaw ⟨id, false, k⟩ (encodeWord id d)) := by
  have hsize : wordSize id = 4 := if_neg hid
  unfold State.writePart State.writeWord
  dsimp only
  rw [if_pos ⟨rfl, hd.trans hsize.symm⟩, if_neg hflip]
  rfl

/-- Whole words written. -/
theorem State.writeWords_words {id : Nat} (hid : id ≠ Store.slate) (n : Nat) : ∀ (s : State) (off c : Nat) (d : List Byte),
    s.mem.flip ≠ some id → off % 4 = 0 → d.length = 4 * n → n < c →
    s.writeWords id false off d c = s.setMem (s.mem.putWords id (off / 4) d n) := by
  have hsize : wordSize id = 4 := if_neg hid
  induction n with
  | zero =>
    intro s off c d _ _ hd hc
    obtain ⟨c, rfl⟩ : ∃ c', c = c' + 1 := ⟨c - 1, by omega⟩
    exact if_pos (List.length_eq_zero_iff.1 (by omega))
  | succ n ih =>
    intro s off c d hflip hoff hd hc
    obtain ⟨c, rfl⟩ : ∃ c', c = c' + 1 := ⟨c - 1, by omega⟩
    have hpart := State.writePart_word (s := s) (k := off / 4) hid hflip (d := d.take 4) (by rw [List.length_take]; omega)
    unfold State.writeWords
    rw [if_neg (by rintro rfl; simp at hd)]
    dsimp only
    rw [hsize, hoff, hpart, if_neg (by simp [State.setMem, Memory.putRaw])]
    have hrest := ih (s.setMem (s.mem.putRaw ⟨id, false, off / 4⟩ (encodeWord id (d.take 4)))) (off + 4) c (d.drop 4) hflip
      (by omega) (by rw [List.length_drop]; omega) (by omega)
    rw [show (off + 4) / 4 = off / 4 + 1 by omega] at hrest
    exact hrest

/-- What makes the stores of four-byte words without banks simple. -/
theorem plainStores_facts : ∀ id ∈ [Store.cal, Store.defect, Store.agate, Store.log, Store.trace],
    id ≠ Store.slate ∧ id ≠ Store.wave ∧ bankedOf id = none ∧ banked id = false ∧ id < 256 := by
  decide

/-- Their size. -/
theorem storeSize_plain {id : Nat} (h : id ∈ [Store.cal, Store.defect, Store.agate, Store.log, Store.trace]) (p : Part) :
    storeSize p id ≤ 2 ^ 17 := by
  simp only [List.mem_cons, List.not_mem_nil, or_false] at h
  rcases h with rfl | rfl | rfl | rfl | rfl <;> simp [storeSize, Store.cal, Store.defect, Store.agate, Store.log, Store.trace]

/-- The range that a packet with data names. -/
theorem extent_dataPacket (op : Nat) (flags : Byte) {id off : Nat} (hid : id < 256) (hoff : off < 2 ^ 24) (d : List Byte) :
    (dataPacket op flags (BitVec.ofNat 32 (id * 2 ^ 24 + off)) d).extent = ⟨id, off, d.length⟩ := by
  unfold Packet.extent Packet.store dataPacket
  dsimp only
  rw [BitVec.toNat_ofNat, Nat.mod_eq_of_lt (by omega)]
  congr 1 <;> omega

/-- A write that passes the checks of its range ends within the store. -/
theorem State.bulkWriteCheck_size {x : Extent} (h : s.bulkWriteCheck x = Status.ok) (hb : bankedOf x.store = none)
    (hbank : banked x.store = false) (hraw : s.rawAccess x = false) : x.offset + x.len ≤ storeSize s.part x.store := by
  unfold State.bulkWriteCheck State.extentCheck at h
  rw [hb, hbank, hraw] at h
  simp only [Bool.and_false, Bool.false_eq_true, if_false, ne_eq, not_true_eq_false] at h
  by_contra hout
  rw [if_pos (show storeSize s.part x.store < x.offset + x.len by omega)] at h
  split at h <;> simp_all [Status.ok, Status.range, Status.noUnit]

/-- A bulk write of whole words that nothing refuses. -/
theorem State.bulkWrite_words {id off : Nat} {d : List Byte} (hid : id ∈ [Store.cal, Store.defect, Store.agate, Store.log, Store.trace])
    (hoff : off % 4 = 0) (hd : d.length % 4 = 0) (hcheck : s.bulkWriteCheck ⟨id, off, d.length⟩ = Status.ok)
    (hraw : s.rawAccess ⟨id, off, d.length⟩ = false) (hflip : s.mem.flip ≠ some id) :
    s.bulkWrite ⟨id, off, d.length⟩ d = ⟨Status.ok, [], { s with
      mem := s.mem.putWords id (off / 4) d (d.length / 4), port := { s.port with undo := s.undoOf ⟨id, off, d.length⟩ } }⟩ := by
  obtain ⟨hslate, hwave, hnone, -, -⟩ := plainStores_facts id hid
  have hwords := State.writeWords_words hslate (d.length / 4) s off (d.length / 4 + 2) d hflip hoff (by omega) (by omega)
  have hstore : s.bulkStore ⟨id, off, d.length⟩ d = s.setMem (s.mem.putWords id (off / 4) d (d.length / 4)) := by
    unfold State.bulkStore
    rw [if_neg (by simp [hraw]), hnone]
    show s.writeWords id false off d (d.length / wordSize id + 2) = _
    rw [show wordSize id = 4 from if_neg hslate]
    exact hwords
  unfold State.bulkWrite
  dsimp only
  rw [if_neg (by simp [hcheck]), hstore, if_neg (by simp [hwave])]
  rfl

/-- A bulk write of the range that its packet names is answered, with the words that it replaces. -/
theorem State.exec_bulkWr {flags : Byte} {addr : BitVec 32} {d : List Byte} {m : Memory}
    {undo : List (WordAddr × List Byte × Bool)} (h : s.portFree (dataPacket 0x85 flags addr d) = true)
    (hwrite : s.slotBegin.bulkWrite (dataPacket 0x85 flags addr d).extent d =
      ⟨Status.ok, [], { s.slotBegin with mem := m, port := { s.slotBegin.port with undo := undo } }⟩)
    (hfail : m.failing = []) :
    ∃ t, exec (.bulkWr flags addr d) s = .next t ∧ t.answers (dataPacket 0x85 flags addr d) Status.ok [] undo ∧
      t = { s with regs := t.regs, port := t.port, mem := m } ∧ s.regsKept t [(F.CP_STATUS_LAST_SEQ, 0)] := by
  obtain ⟨c, hbegin⟩ := State.portFree_begin h
  have hexec : s.slotBegin.execOne (dataPacket 0x85 flags addr d) 0 =
      ⟨Status.ok, [], { s.slotBegin with mem := m, port := { s.slotBegin.port with undo := undo } }⟩ := by
    rw [← hwrite]
    rfl
  obtain ⟨hans, hframe, hkept⟩ := State.packetSlot_spec h (by intro hb; cases hb) hexec rfl hfail
    (by show ¬(0x85 = 0x8A ∧ _); simp) rfl
  refine ⟨_, rfl, hans, ?_, State.regsKept_trans (State.regsKept_of_regs ?_ ?_) hkept⟩
  · refine hframe.trans ?_
    rw [hbegin]
    rfl
  · rw [hbegin]
    rfl
  · rw [hbegin]
    rfl

/-- Settles O13. -/
theorem bulkWrStores : Obligations.BulkWrStores := by
  unfold Obligations.BulkWrStores
  intro flags id off d s addr p hid hoff hoff4 hd4 hlen h hcheck hraw hflip
  obtain ⟨hslate, -, hnone, hbank, h256⟩ := plainStores_facts id hid
  obtain ⟨c, hbegin⟩ := State.portFree_begin h
  have hextent : p.extent = ⟨id, off, d.length⟩ := extent_dataPacket 0x85 flags h256 (by omega) d
  have hsize := State.bulkWriteCheck_size hcheck hnone hbank hraw
  have hmax := storeSize_plain hid s.part
  dsimp only at hsize
  have hputs := Memory.putWords_spec hslate (d.length / 4) s.mem (off / 4) d (by omega) (by omega)
  have hwrite : s.slotBegin.bulkWrite p.extent d = ⟨Status.ok, [], { s.slotBegin with
      mem := s.mem.putWords id (off / 4) d (d.length / 4)
      port := { s.slotBegin.port with undo := s.undoOf ⟨id, off, d.length⟩ } }⟩ := by
    rw [hextent, hbegin]
    exact State.bulkWrite_words (s := s.setPort c) hid hoff4 hd4 hcheck hraw hflip
  have hfail : (s.mem.putWords id (off / 4) d (d.length / 4)).failing = [] :=
    (congrArg Memory.failing hputs.frame :).trans (State.portFree_failing h)
  obtain ⟨t, hexec, hans, hframe, hkept⟩ := State.exec_bulkWr h hwrite hfail
  have hmem : t.mem = s.mem.putWords id (off / 4) d (d.length / 4) := (congrArg State.mem hframe :)
  rw [← hmem] at hputs
  refine ⟨t, hexec, hans, ?_, hkept, congrArg Prod.fst (State.readBytes_stored hslate hoff4 hd4 hputs .hostRead true), fun w hw hin hout => ?_⟩
  · rw [← hputs.frame, hmem]
    exact hframe
  · refine hputs.other w hin fun ⟨hs, hb, hlo, hhi⟩ => hout ⟨hs, hb, by omega, by omega⟩

end Sys2Proof.Machine
end


section
/-! PROOF.
The idle tick of a quiet state: the lands that had both levels within a tick are forgotten with it (R384, R508).
-/
namespace Sys2Proof.Machine

variable {s : State}

/-! ### The mark of lands with both levels -/

/-- The units before the Spine leave of the engines all but what they drive. -/
theorem State.OnlySpine.beforeSpine_agt (h : s.OnlySpine) (he : s.agt.engines = []) (e : Byte × Byte × State)
    (hedges : s.dueApply.injectedLoss.agtDrive.landEdges = e) :
    (e.2.2.raiseLands e.1).posTick.agt = s.drive.agt := by
  have hinj : s.injectedLoss = s := by simp [State.injectedLoss, h.analog]
  rw [h.dueApply_eq, hinj, State.agtDrive, he, List.isEmpty_nil, if_pos rfl] at hedges
  have hfree : ∃ k, e.2.2 = { s.drive with free := k } := by
    rw [← hedges]
    unfold State.landEdges
    dsimp only
    split <;> exact ⟨_, rfl⟩
  obtain ⟨k, hk⟩ := hfree
  have hpos : (e.2.2.raiseLands e.1).posTick = e.2.2.raiseLands e.1 := by
    rw [hk]
    exact State.posTick_of_not_analog h.analog
  rw [hpos, hk]
  rfl

/-- Where only the Spine has work, a tick keeps the mark with which it opens. -/
theorem State.OnlySpine.unitTick_blur (h : s.OnlySpine) (he : s.agt.engines = [])
    (hcap : ∀ j < 4, (s.capture j).en = false) (hw : ∀ n < 8, (s.source n).weight = 0) (ls : BitVec 64) :
    (s.unitTick ls).agt.blur = s.agt.blur := by
  unfold State.unitTick
  dsimp only
  generalize hedges : s.dueApply.injectedLoss.agtDrive.landEdges = e
  have hagt := h.beforeSpine_agt he e hedges
  obtain ⟨a, l, k, ht⟩ := h.beforeSpine_frame he e hedges
  rw [ht] at hagt ⊢
  have hcounts := State.spineTick_countsOn (s := { s with agt := a, lines := l, free := k }) (old := s) rfl rfl hcap hw
    s.pos.p ls e.1 e.2.1
  generalize State.spineTick _ s s.pos.p ls e.1 e.2.1 = u at hcounts ⊢
  obtain ⟨r, f, x, l', hall⟩ := State.compareAll_frame (s := { s with agt := a, lines := l, free := k })
  have hframe := hcounts.frame
  rw [hall] at hframe
  have honly : u.OnlySpine := by
    rw [hframe]
    exact ⟨h.txn, h.analog, h.compile, h.burst, h.late⟩
  have hpass : u.passTick.agt = u.agt := by
    unfold State.passTick
    split <;> rfl
  rw [honly.afterSpine_eq_passTick, hpass, hframe]
  exact (congrArg Agate.blur hagt :)

/-- The end of a tick forgets the mark. -/
theorem State.closeTick_blur : s.closeTick.agt.blur = 0 := rfl

/-! ### The counterexample -/

/-- In Standby, with land 0 at both levels in the present tick. -/
def blurredStandby : State :=
  { State.reset with
    pwr := { State.reset.pwr with state := .standby }
    agt := { State.reset.agt with blur := 1 } }

/-- Nothing is due in it. -/
theorem blurredStandby_quiet : blurredStandby.quiet := by
  unfold State.quiet
  decide

/-- No counter of it has an encoder source. -/
theorem blurredStandby_weight : ∀ n < 8, (blurredStandby.source n).weight = 0 := by decide +kernel

/-- The tick that follows has no such land. -/
theorem blurredStandby_tick_blur : blurredStandby.tick.agt.blur = 0 := by
  obtain ⟨a, hclose, hengines⟩ := State.closeTick_of_quiet blurredStandby_quiet
  have hblur : blurredStandby.closeTick.agt.blur = 0 := State.closeTick_blur
  unfold State.tick
  rw [hclose] at hblur ⊢
  dsimp only [State.setClk]
  rw [show blurredStandby.mem.failing.isEmpty = true from rfl, if_pos rfl]
  generalize hopen : State.openTick _ = t
  have honly : t.OnlySpine := by
    subst hopen
    exact ⟨nofun, rfl, rfl, rfl, rfl⟩
  have he : t.agt.engines = [] := by
    subst hopen
    simp [State.openTick, State.agtOpen, hengines, Cells.mapEntries]
  have hregs : t.regs = blurredStandby.regs := by
    subst hopen
    rfl
  have hspn : t.spn = blurredStandby.spn.newTick := by
    subst hopen
    rfl
  have hcap : ∀ j < 4, (t.capture j).en = false := by
    unfold State.capture
    rw [hspn]
    decide
  have hw : ∀ n < 8, (t.source n).weight = 0 := by
    intro n hn
    rw [State.source, State.fld, State.reg, hregs]
    exact blurredStandby_weight n hn
  have hopened : t.agt.blur = 0 := by
    subst hopen
    exact hblur
  exact (honly.unitTick_blur he hcap hw _).trans hopened

/-- Refutes O2: a land that had both levels in the tick before the idle one keeps its mark in the statement's frame
(`blur` is as before), and the model forgets the mark as the tick ends. -/
theorem not_stepIdles : ¬Obligations.StepIdles := by
  unfold Obligations.StepIdles
  intro h
  obtain ⟨t, ht, -, hagt, -⟩ := h blurredStandby blurredStandby_quiet (by decide) (by decide) (by decide)
  have hstep : step blurredStandby = .next blurredStandby.tick := rfl
  obtain rfl := Host.Outcome.next.inj (hstep.symm.trans ht)
  have hkept : blurredStandby.tick.agt.blur = 1 := congrArg Agate.blur hagt
  rw [blurredStandby_tick_blur] at hkept
  exact absurd hkept (by decide)

end Sys2Proof.Machine
end


section
/-! PROOF.
Memory integrity: the scrubber's visit, write-backs, the checker registers and two steps of a test run.
-/
namespace Sys2Proof.Machine

variable {s : State} {v : Word}

/-! ### The scrubber (R573, R579) -/

/-- The walk does not depend on what the memories hold beside the use of the pages. -/
theorem State.nextPlace_setMem {x : Memory} (h : x.pages = s.mem.pages) (n : Nat) :
    ∀ k, (s.setMem x).nextPlace k n = s.nextPlace k n := by
  have hretired : ∀ p, (s.setMem x).retired p = s.retired p := fun p => by
    show (s.retireBit p && Cells.get .free x.pages p == .free) = _
    rw [h]
    rfl
  induction n with
  | zero => exact fun _ => rfl
  | succ n ih =>
    intro k
    unfold State.nextPlace
    dsimp only
    simp only [ih, hretired]
    rfl

/-- A visit of a word without an error moves on to the next place of the walk. -/
theorem State.scrubVisit_clean (hs : s.scrubs = true) (hk : s.scrubNext s.mem.scrubPos < walkEnd s.part)
    (hnext : s.scrubNext (s.scrubNext s.mem.scrubPos + 1) < walkEnd s.part)
    (hclean : s.wordClean (walkWord s.part (s.scrubNext s.mem.scrubPos))) :
    s.scrubVisit = s.setMem { s.mem with
      interval := if s.mem.paced = s.passTime then s.mem.interval else s.passTime / s.passWords
      paced := s.passTime, scrubPos := s.scrubNext (s.scrubNext s.mem.scrubPos + 1) } := by
  unfold State.scrubVisit
  rw [hs, if_neg (by decide)]
  dsimp only
  by_cases hp : s.mem.paced = s.passTime
  · rw [if_pos hp, if_neg (by omega), State.readWord_plain hclean]
    simp only [Bool.false_eq_true, if_false]
    rw [if_neg (by omega), if_pos hp, ← hp]
  · have hread : s.setPace.readWord .scrubber false (walkWord s.part (s.scrubNext s.mem.scrubPos)) = _ :=
      State.readWord_plain (s := s.setPace) hclean _ _
    have hplace : s.setPace.scrubNext (s.scrubNext s.mem.scrubPos + 1) =
        s.scrubNext (s.scrubNext s.mem.scrubPos + 1) :=
      State.nextPlace_setMem (s := s) (x := { s.mem with interval := s.passTime / s.passWords, paced := s.passTime }) rfl
        (s.part.pages + 4) _
    have hpart : s.setPace.part = s.part := rfl
    rw [if_neg hp, hpart, if_neg (by omega), hread]
    simp only [Bool.false_eq_true, if_false]
    rw [hplace, hpart, if_neg (by omega), if_neg hp]
    rfl

/-- A write-back stores the corrected code of its word. -/
theorem State.writeBack_cons {w : WordAddr} {raw : List Byte} {rest : List (WordAddr × List Byte)}
    (h : s.mem.writebacks = (w, raw) :: rest) : s.writeBack = s.setMem (s.mem.putRaw w raw) := by
  unfold State.writeBack
  rw [h]

/-! ### The checker registers (R584, R586, R588) -/

/-- What a field holds fits its width. -/
theorem Field.of_lt (f : Field) (w : Word) : f.of w < 2 ^ (f.hi + 1 - f.lo) := Nat.mod_lt _ (Nat.two_pow_pos _)

/-- Two fields apart, written one after the other. -/
theorem State.setFld_setFld {f g : Field} (hf : f.lo ≤ f.hi ∧ f.hi < 16) (hg : g.lo ≤ g.hi ∧ g.hi < 16)
    (hfg : g.hi < f.lo ∨ f.hi < g.lo) (w : Word) :
    ((s.setFld f (f.of w)).setFld g (g.of w)).fld f = f.of w ∧
      ((s.setFld f (f.of w)).setFld g (g.of w)).fld g = g.of w ∧
      s.regsKept ((s.setFld f (f.of w)).setFld g (g.of w)) [(f, 0), (g, 0)] := by
  have hfirst : s.regsKept (s.setFld f (f.of w)) [(f, 0)] := State.setFld_kept ⟨by decide, hf⟩ _
  have hsecond : (s.setFld f (f.of w)).regsKept ((s.setFld f (f.of w)).setFld g (g.of w)) [(g, 0)] :=
    State.setFld_kept ⟨by decide, hg⟩ _
  refine ⟨?_, State.fld_setFld_of_lt hg (g.of_lt w), hfirst.append hsecond⟩
  rw [hsecond.fld_apart ⟨by decide, by simp; omega⟩]
  exact State.fld_setFld_of_lt hf (f.of_lt w)

/-- A write of MEM_FLIP_MASK in a live state is judged and, where accepted, stored. -/
theorem exec_memFlipMaskWrite (h : s.live = true) (v : Word) :
    exec (.memFlipMaskWrite v) s = .next (ifOk s (s.flipCheck v) (s.writeFlip v)).2 := by
  have hwrite : s.writeMasked .port R.MEM_FLIP_MASK v 0xFFFF false =
      ifOk s (s.flipCheck (merge (s.view .port R.MEM_FLIP_MASK 0) v 0xFFFF))
        (s.writeFlip (merge (s.view .port R.MEM_FLIP_MASK 0) v 0xFFFF)) := rfl
  show Host.Outcome.next (s.portWrite R.MEM_FLIP_MASK v false) = _
  rw [State.portWrite_of_live h, hwrite, merge_full]

/-- A write of MEM_RAW in a live state is judged and, where accepted, stored. -/
theorem exec_memRawWrite (h : s.live = true) (v : Word) :
    exec (.memRawWrite v) s = .next (ifOk s (s.rawCheck v) (s.writeRaw v)).2 := by
  have hwrite : s.writeMasked .port R.MEM_RAW v 0xFFFF false =
      ifOk s (s.rawCheck (merge (s.view .port R.MEM_RAW 0) v 0xFFFF))
        (s.writeRaw (merge (s.view .port R.MEM_RAW 0) v 0xFFFF)) := rfl
  show Host.Outcome.next (s.portWrite R.MEM_RAW v false) = _
  rw [State.portWrite_of_live h, hwrite, merge_full]

/-- A write of SLT_RETIRE in a live state stores the pages of the selected group, where it is present. -/
theorem exec_sltRetireWrite (h : s.live = true) (v : Word) :
    exec (.sltRetireWrite v) s = .next (s.writeRetire v) := by
  have hwrite : s.writeMasked .port R.SLT_RETIRE v 0xFFFF false =
      if !instPresent s.part R.SLT_RETIRE (s.fld F.MEM_SEL_RGRP) then (Status.ok, s)
      else (Status.ok, s.writeRetire (merge (s.view .port R.SLT_RETIRE (s.fld F.MEM_SEL_RGRP)) v 0xFFFF)) := rfl
  show Host.Outcome.next (s.portWrite R.SLT_RETIRE v false) = _
  rw [State.portWrite_of_live h, hwrite, merge_full]
  have hpresent : instPresent s.part R.SLT_RETIRE (s.fld F.MEM_SEL_RGRP) =
      decide (16 * s.fld F.MEM_SEL_RGRP < s.part.pages) := rfl
  rw [hpresent]
  unfold State.writeRetire
  by_cases hg : 16 * s.fld F.MEM_SEL_RGRP < s.part.pages <;> simp [hg]

/-- The stores that the checker codes. -/
def codedStores : List Nat :=
  [Store.wave, Store.cal, Store.defect, Store.agate, Store.lut, Store.slate, Store.log, Store.adcseq, Store.trace]

/-- An accepted write of MEM_FLIP_MASK with a coded store selected. -/
theorem State.writeFlip_coded (hid : s.fld F.MEM_SEL_STORE ∈ codedStores) (v : Word) :
    s.writeFlip v =
      ((s.setFld F.MEM_FLIP_MASK_MASK (F.MEM_FLIP_MASK_MASK.of v)).setFld F.MEM_FLIP_MASK_POS
        (F.MEM_FLIP_MASK_POS.of v)).setMem { s.mem with
          flip := if F.MEM_FLIP_MASK_MASK.of v = 0 then none else some (s.fld F.MEM_SEL_STORE) } := by
  have hcoded : ∀ id ∈ codedStores, (decide (1 ≤ id) && decide (id ≤ 10) && id != Store.colophon) = true := by decide
  unfold State.writeFlip
  dsimp only
  rw [hcoded _ hid, Bool.true_and]
  by_cases hm : F.MEM_FLIP_MASK_MASK.of v = 0
  · rw [hm]
    rfl
  · rw [if_neg hm, if_pos (by simpa using hm)]
    rfl

/-- A position outside the word of a coded store is refused. -/
theorem State.flipCheck_range (hid : s.fld F.MEM_SEL_STORE ∈ codedStores)
    (h : (if s.fld F.MEM_SEL_STORE = Store.slate then 17 else 4) < F.MEM_FLIP_MASK_POS.of v) :
    s.flipCheck v = Status.range := by
  have hcoded : ∀ id ∈ codedStores, ¬(id = Store.colophon ∨ id = 0 ∨ Store.trace < id) := by decide
  unfold State.flipCheck
  dsimp only
  rw [if_neg (hcoded _ hid), if_pos h]

/-- Raw mode is refused while Streaming. -/
theorem State.rawCheck_streaming (hen : F.MEM_RAW_EN.of v = 1) (h : s.pwr.state = .streaming) :
    s.rawCheck v ≠ Status.ok := by
  unfold State.rawCheck
  split
  · decide
  · rw [if_pos ⟨hen, h⟩]
    decide

/-! ### Steps of a test run (R596, R607) -/

/-- Step 3 without an injection judges the references. -/
theorem State.judgeStep_references {r : TestRun} (hinj : s.injArg 0x1A = none) (hstep : r.step = 3) (m : Measured) :
    s.judgeStep r m = ({ r with micros := r.micros + m.micros }.references m false (Config.freeNat s.free), s) := by
  unfold State.judgeStep
  simp [hinj, hstep]

/-- Step 5 without an injection judges the lanes. -/
theorem State.judgeStep_lanes {r : TestRun} (hinj : s.injArg 0x1A = none) (hstep : r.step = 5) (m : Measured) :
    s.judgeStep r m = ({ r with micros := r.micros + m.micros }.lanes s.part m false, s) := by
  unfold State.judgeStep
  simp [hinj, hstep]

/-- A step between the first and the last that leads on to one before the last. -/
theorem State.testStep_of_judged {r out : TestRun} {m : Measured} (hrun : s.bst.run = some r) (hfreq : m.freqOut = false)
    (hfirst : r.step ≠ 0) (hlast : r.step ≠ 7) (hout : s.judgeStep r m = (out, s)) {k : Nat} (hnext : out.next = k)
    (hk : k < 7) : s.testStep m = s.setBst { s.bst with run := some { out with step := k } } := by
  unfold State.testStep
  rw [hrun]
  dsimp only
  rw [if_neg hfirst, if_neg hlast, hfreq, if_neg (by decide), hout]
  dsimp only
  rw [hnext, if_neg (Nat.not_le.2 hk)]

/-- The references against their limits. -/
theorem TestRun.references_measured (r : TestRun) (m : Measured) (f : Nat) :
    let bad := ¬(8110 ≤ m.vrefSum / 16 ∧ m.vrefSum / 16 ≤ 8274) ∨
      ¬(11919 ≤ m.vcoreSum / 16 ∧ m.vcoreSum / 16 ≤ 12657) ∨ ¬(9933 ≤ m.vanaSum / 16 ∧ m.vanaSum / 16 ≤ 10547)
    r.references m false f = { r with
      vref := m.vrefSum / 16
      firstFail := if bad then some (r.firstFail.getD 3) else r.firstFail
      analogFail := if bad then r.analogFail ||| 2 else r.analogFail } := by
  intro bad
  unfold TestRun.references average TestRun.failIf TestRun.fail
  dsimp only
  by_cases hbad : bad
  · rw [if_pos hbad, if_pos hbad, if_pos]
    · rfl
    · simp only [bad] at hbad
      simp
      omega
  · rw [if_neg hbad, if_neg hbad, if_neg]
    · rfl
    · simp only [bad] at hbad
      simp
      omega

/-- The lanes that counted errors. -/
theorem TestRun.lanes_measured (r : TestRun) (p : Part) (m : Measured) :
    let e := m.laneErrors.toNat % 2 ^ p.quires
    r.lanes p m false = { r with
      laneFail := e
      firstFail := if e ≠ 0 then some (r.firstFail.getD 5) else r.firstFail
      analogFail := if e ≠ 0 then r.analogFail ||| 16 else r.analogFail } := by
  intro e
  unfold TestRun.lanes TestRun.failIf TestRun.fail
  by_cases he : e = 0 <;> simp [e, he]

/-- Settles O58. The walk by `State.scrubVisit_clean`, the registers by their writes, the steps of a test by what they
judge. -/
theorem integrityWorks : Obligations.IntegrityWorks := by
  unfold Obligations.IntegrityWorks
  intro s v
  refine ⟨fun hs => ?visit, fun w raw rest h => ?writeback, fun hlive => ?registers,
    fun m r hrun hfreq hinj => ⟨fun hstep => ?references, fun hstep => ?lanes⟩⟩
  case visit =>
    intro k hk hnext hclean
    exact congrArg Host.Outcome.next (State.scrubVisit_clean hs hk hnext hclean)
  case writeback =>
    refine ⟨_, congrArg Host.Outcome.next (State.writeBack_cons h), rfl, Cells.get_set_self _ _ _, fun hlen => ?_⟩
    exact (Memory.putRaw_self hlen).1
  case references =>
    intro bad
    have hjudge := State.judgeStep_references (s := s) hinj hstep m
    rw [TestRun.references_measured] at hjudge
    exact congrArg Host.Outcome.next
      (State.testStep_of_judged hrun hfreq (by omega) (by omega) hjudge (by simp [TestRun.next, hstep]) (by decide))
  case lanes =>
    intro e
    have hjudge := State.judgeStep_lanes (s := s) hinj hstep m
    rw [TestRun.lanes_measured] at hjudge
    exact congrArg Host.Outcome.next
      (State.testStep_of_judged hrun hfreq (by omega) (by omega) hjudge (by simp [TestRun.next, hstep]) (by decide))
  case registers =>
    intro id
    refine ⟨fun hid => ⟨fun hok => ?flip, fun hpos => ?range⟩, fun hok => ?raw, fun hen hst => ?streaming,
      fun hg => ?retire, fun hg => ?absent⟩
    case flip =>
      have hexec := exec_memFlipMaskWrite hlive v
      rw [ifOk, if_pos hok, State.writeFlip_coded hid] at hexec
      exact ⟨_, hexec, rfl, State.setFld_setFld (f := F.MEM_FLIP_MASK_MASK) (g := F.MEM_FLIP_MASK_POS) (by decide)
        (by decide) (by decide) v⟩
    case range =>
      rw [exec_memFlipMaskWrite hlive, State.flipCheck_range hid hpos]
      rfl
    case raw =>
      have hexec := exec_memRawWrite hlive v
      rw [ifOk, if_pos hok] at hexec
      exact ⟨_, hexec, rfl, State.setFld_setFld (f := F.MEM_RAW_EN) (g := F.MEM_RAW_STORE) (by decide) (by decide)
        (by decide) v⟩
    case streaming =>
      rw [exec_memRawWrite hlive, ifOk, if_neg (State.rawCheck_streaming hen hst)]
    case retire =>
      have hg' : s.fld F.MEM_SEL_RGRP < 256 := by
        have := s.fld_lt F.MEM_SEL_RGRP 0
        exact Nat.lt_of_lt_of_le this (by decide)
      have hexec := exec_sltRetireWrite hlive v
      rw [State.writeRetire, if_pos hg] at hexec
      exact ⟨_, hexec, rfl, State.reg_setReg _ _ _ _, State.regsKept_setReg hg' List.mem_cons_self⟩
    case absent =>
      rw [exec_sltRetireWrite hlive, State.writeRetire, if_neg (by omega)]

end Sys2Proof.Machine
end


section
/-! PROOF.
What the counters and the channels do when P changes (R381 to R383, R399).
-/
namespace Sys2Proof.Machine

variable {s t u : State} {n : Nat} {c : Counter} {kind : Move} {old : BitVec 48}

/-! ### One counter -/

/-- Counter `n` has taken `c`: `o` holds the channels that moved and the state.  No channel outside a grid moves. -/
structure State.Steps (s : State) (n : Nat) (c : Counter) (o : List (Nat × Int) × State) : Prop where
  frame : o.2 = { s with spn := { s.spn with
    counters := o.2.spn.counters, compares := o.2.spn.compares, stepped := o.2.spn.stepped } }
  counter : ∀ j, o.2.counter j = if j = n then c else s.counter j
  compare : ∀ m, s.inGrid m = false → o.2.compare m = s.compare m
  moved : (∀ m < 16, s.inGrid m = false) → o.1 = []

/-- A counter that stays as it is. -/
theorem State.Steps.refl : s.Steps n (s.counter n) ([], s) where
  frame := rfl
  counter j := by split <;> simp [*]
  compare _ _ := rfl
  moved _ := rfl

/-- The channels bound to a counter that has stepped by more than a count are realigned (R399). -/
theorem State.realign_steps : s.Steps n (s.counter n) (s.realign n) := by
  unfold State.realign
  refine List.foldlRecOn (List.range 16) _ (motive := fun o => s.Steps n (s.counter n) o) .refl fun o ho m hm => ?_
  have hgrid : ∀ f i, o.2.flag f i = s.flag f i := fun f i => by
    rw [ho.frame]
    rfl
  dsimp only
  split
  next h =>
    have hin : s.inGrid m = true := by
      simp only [Bool.and_eq_true, hgrid] at h
      simp [State.inGrid, h]
    refine ⟨?_, ho.counter, fun j hj => ?_, fun hall => absurd hin (by simp [hall m (List.mem_range.1 hm)])⟩
    · have hframe := ho.frame
      generalize o.2 = t at hframe
      rw [hframe]
      rfl
    · rw [State.compare_setCompare, if_neg (by rintro rfl; simp [hin] at hj)]
      exact ho.compare j hj
  next h => exact ho

/-- A counter takes a value (R390, R399). -/
theorem State.stepTo_steps : s.Steps n c (s.stepTo n c) := by
  have hset : s.Steps n c ([], s.setCounter n c) := ⟨rfl, State.counter_setCounter c, fun _ _ => rfl, fun _ => rfl⟩
  have hmark : s.Steps n c ([], (s.setCounter n c).markStep n false) := ⟨rfl, hset.counter, fun _ _ => rfl, fun _ => rfl⟩
  have hstep : s.Steps n c ([], if delta48 (s.counter n).value c.value = 0 then s.setCounter n c
      else (s.setCounter n c).markStep n false) := by
    split
    · exact hset
    · exact hmark
  unfold State.stepTo
  dsimp only
  generalize (if delta48 (s.counter n).value c.value = 0 then s.setCounter n c
      else (s.setCounter n c).markStep n false) = t at hstep ⊢
  split
  · have hframe : t = _ := hstep.frame
    have hgrid : ∀ m, t.inGrid m = s.inGrid m := fun m => by
      rw [hframe]
      rfl
    have hre := State.realign_steps (s := t) (n := n)
    generalize t.realign n = o at hre ⊢
    refine ⟨?_, fun j => ?_, fun m hm => ?_, fun hall => hre.moved fun m hm => (hgrid m).trans (hall m hm)⟩
    · have h := hre.frame
      rw [hframe] at h
      exact h
    · rw [hre.counter]
      split
      next h => exact (hstep.counter n).trans (if_pos rfl)
      next h => exact (hstep.counter j).trans (if_neg h)
    · exact (hre.compare m ((hgrid m).trans hm)).trans (hstep.compare m hm)
  · exact hstep

/-- What counter `n` becomes when P has moved. -/
structure State.Followed (s : State) (n : Nat) (c : Counter) : Prop where
  run : c.run = (s.counter n).run
  still : (s.counter n).run ≠ .running ∨ (s.source n).weight = 0 → c = s.counter n
  locked : (s.counter n).run = .running → s.locked n = true →
    c.value = BitVec.ofNat 48 (64 * (s.source n).weight * s.pos.p.toNat / (s.counter n).div)

/-- A counter without an encoder source is not position-locked. -/
theorem State.weight_of_locked (h : s.locked n = true) : (s.source n).weight ≠ 0 := by
  simp only [State.locked, Bool.and_eq_true, bne_iff_ne] at h
  exact h.2

/-- A counter follows a change of P. -/
theorem State.followOne_steps (kind : Move) (old : BitVec 48) (n : Nat) :
    ∃ c, s.Followed n c ∧ s.Steps n c (s.followOne kind old n) := by
  have hkeep : s.locked n = false ∨ (s.counter n).run ≠ .running → s.Followed n (s.counter n) := fun h =>
    ⟨rfl, fun _ => rfl, fun hr hl => by rcases h with h | h <;> simp_all⟩
  unfold State.followOne
  dsimp only
  split
  next hl =>
    unfold State.lockOne
    dsimp only
    split
    next h =>
      refine ⟨_, ⟨?_, fun hh => absurd hh (by simp [h.1, State.weight_of_locked hl]), fun _ _ => ?_⟩, State.stepTo_steps⟩
      · rfl
      · rfl
    next h => exact ⟨_, hkeep (.inr fun hr => h ⟨hr, hl⟩), .refl⟩
  next hl =>
    split
    next hw =>
      unfold State.feedOne
      dsimp only
      split
      next hr =>
        refine ⟨_, ⟨?_, fun hh => absurd hh (by simp [hr, hw.1]), fun _ h => absurd h hl⟩, State.stepTo_steps⟩
        rfl
      next hr => exact ⟨_, hkeep (.inr hr), .refl⟩
    next => exact ⟨_, hkeep (.inl (by simpa using hl)), .refl⟩

/-! ### All counters -/

/-- The first `k` counters have followed. -/
structure State.FollowedTo (s : State) (k : Nat) (o : List (Nat × Int) × State) : Prop where
  frame : o.2 = { s with spn := { s.spn with
    counters := o.2.spn.counters, compares := o.2.spn.compares, stepped := o.2.spn.stepped } }
  done : ∀ n < k, s.Followed n (o.2.counter n)
  rest : ∀ n, k ≤ n → o.2.counter n = s.counter n
  compare : ∀ m, s.inGrid m = false → o.2.compare m = s.compare m
  moved : (∀ m < 16, s.inGrid m = false) → o.1 = []

/-- One counter more. -/
theorem State.FollowedTo.succ {k : Nat} {o : List (Nat × Int) × State} (h : s.FollowedTo k o) :
    s.FollowedTo (k + 1) (o.1 ++ (o.2.followOne kind old k).1, (o.2.followOne kind old k).2) := by
  obtain ⟨c, hc, hsteps⟩ := State.followOne_steps (s := o.2) kind old k
  have hgrid : ∀ m, o.2.inGrid m = s.inGrid m := fun m => by
    rw [h.frame]
    rfl
  have hsource : ∀ n, o.2.source n = s.source n := fun n => by
    rw [h.frame]
    rfl
  have hlocked : ∀ n, o.2.locked n = s.locked n := fun n => by
    rw [h.frame]
    rfl
  have hp : o.2.pos = s.pos := by
    rw [h.frame]
  have hfollowed : s.Followed k c := by
    obtain ⟨hrun, hstill, hlock⟩ := hc
    rw [h.rest k le_rfl, hsource] at hstill hlock
    rw [hlocked, hp] at hlock
    exact ⟨hrun.trans (by rw [h.rest k le_rfl]), hstill, hlock⟩
  generalize o.2.followOne kind old k = q at hsteps ⊢
  refine ⟨?_, fun n hn => ?_, fun n hn => ?_, fun m hm => ?_, fun hall => ?_⟩
  · have hframe := hsteps.frame
    rw [h.frame] at hframe
    exact hframe
  · rw [hsteps.counter]
    split
    next he => rwa [he]
    next he => exact h.done n (by omega)
  · rw [hsteps.counter, if_neg (by omega)]
    exact h.rest n (by omega)
  · exact (hsteps.compare m ((hgrid m).trans hm)).trans (h.compare m hm)
  · rw [h.moved hall, hsteps.moved fun m hm => (hgrid m).trans (hall m hm)]
    rfl

/-- Counters in turn. -/
theorem State.foldl_followedTo (kind : Move) (old : BitVec 48) : ∀ k, s.FollowedTo k
    ((List.range k).foldl (fun o n => (o.1 ++ (o.2.followOne kind old n).1, (o.2.followOne kind old n).2)) ([], s))
  | 0 => ⟨rfl, nofun, fun _ _ => rfl, fun _ _ => rfl, fun _ => rfl⟩
  | k + 1 => by
    rw [List.range_succ, List.foldl_append]
    exact (State.foldl_followedTo kind old k).succ

/-- When P has changed, every counter follows. -/
theorem State.followAll_followsP (kind : Move) (old : BitVec 48) : s.followsP (s.followAll kind old).2 := by
  have h := State.foldl_followedTo (s := s) kind old 8
  exact ⟨h.frame, fun n hn => ⟨(h.done n hn).run, (h.done n hn).still, (h.done n hn).locked⟩, fun m _ => h.compare m⟩

/-- Where no channel is in a grid, none moves. -/
theorem State.followAll_moved (kind : Move) (old : BitVec 48) (h : ∀ m < 16, s.inGrid m = false) :
    (s.followAll kind old).1 = [] := by
  have hnone := (State.foldl_followedTo (s := s) kind old 8).moved h
  unfold State.followAll State.eachCounter
  dsimp only
  rw [hnone]
  rfl

/-! ### The same change in another state -/

/-- What the counters do about P they do alike in a state with the same Spine and the same settings of it. -/
theorem State.followsP.alike (h : s.followsP t) (hspn : u.spn = s.spn) (hp : u.pos.p = s.pos.p)
    (hfld : ∀ f i, f.addr = R.SPN_C_CFG ∨ f.addr = R.SPN_M_CFG → i < 256 → u.fld f i = s.fld f i) :
    u.followsP { u with spn := t.spn } := by
  obtain ⟨hframe, hcounters, hcompares⟩ := h
  have hsource : ∀ n < 8, u.source n = s.source n := fun n hn => by
    rw [State.source, hfld F.SPN_C_CFG_SRC n (.inl rfl) (by omega), State.source]
  have hlocked : ∀ n < 8, u.locked n = s.locked n := fun n hn => by
    rw [State.locked, State.flag, hfld F.SPN_C_CFG_PLOCK n (.inl rfl) (by omega), hsource n hn]
    rfl
  have hgrid : ∀ m < 16, u.inGrid m = s.inGrid m := fun m hm => by
    simp only [State.inGrid, State.flag, hfld F.SPN_M_CFG_EN m (.inr rfl) (by omega),
      hfld F.SPN_M_CFG_MODE m (.inr rfl) (by omega), hfld F.SPN_M_CFG_AUTO m (.inr rfl) (by omega)]
  have hcounter : ∀ n, u.counter n = s.counter n := fun n => by rw [State.counter, hspn, State.counter]
  refine ⟨?_, fun n hn => ?_, fun m hm hin => ?_⟩
  · have hrest : t.spn = { s.spn with
        counters := t.spn.counters, compares := t.spn.compares, stepped := t.spn.stepped } :=
      congrArg State.spn hframe
    rw [hspn, ← hrest]
  · rw [hcounter, hsource n hn, hlocked n hn, hp]
    exact hcounters n hn
  · rw [State.compare, State.compare, hspn]
    exact hcompares m hm ((hgrid m hm).symm.trans hin)

end Sys2Proof.Machine
end


section
/-! PROOF.
Encoder edges, index pulses and presets of the position.
-/
namespace Sys2Proof.Machine

variable {s t u : State} {a b : Bool}

/-! ### Where P moves -/

/-- Without a pending transaction no position applies one. -/
theorem State.atPosition_of_not_pending (h : s.bnd.txn ≠ .pending) : s.atPosition = s := if_neg fun hp => h hp.1

/-- What follows P changes the Spine alone. -/
theorem State.followsP.frame (h : u.followsP t) : t = { u with spn := t.spn } := by
  have hframe := h.1
  have hspn : t.spn = { u.spn with counters := t.spn.counters, compares := t.spn.compares, stepped := t.spn.stepped } :=
    congrArg State.spn hframe
  rw [← hspn] at hframe
  exact hframe

/-- What follows P raises events as before. -/
theorem State.followsP.entry_eq (h : u.followsP t) (code unit data : Nat) : t.entry code unit data = u.entry code unit data := by
  rw [h.frame]
  rfl

/-- A number of 16 bits fits an entry. -/
theorem unsigned_lt (w : Nat) (z : Int) : unsigned w z < 2 ^ w := by
  have hpos : (0 : Int) < 2 ^ w := by positivity
  refine (Int.toNat_lt (Int.emod_nonneg z hpos.ne')).2 ?_
  push_cast
  exact Int.emod_lt_of_pos z hpos

/-- What follows P is not pending where nothing was. -/
theorem State.followsP.atPosition_eq (h : u.followsP t) (hu : u.bnd.txn ≠ .pending) : t.atPosition = t := by
  refine State.atPosition_of_not_pending ?_
  rw [h.1]
  exact hu

@[simp] theorem State.setPos_setPos (x y : Position) : (s.setPos x).setPos y = s.setPos y := rfl
@[simp] theorem State.setPos_frozen (x : Position) : (s.setPos x).frozen = s.frozen := rfl

/-- P takes a value and the counters follow. -/
theorem State.moveP_followsP (x : Position) (kind : Move) (new : BitVec 48) :
    (s.setPos { x with p := new }).followsP ((s.setPos x).moveP kind new).2 := State.followAll_followsP kind x.p

/-! ### Edges (R414 to R417) -/

/-- Levels as they were are no edge. -/
theorem State.encLevels_same : s.encLevels s.pos.a s.pos.b = s := by
  have hnone : s.edgeDir s.pos.a s.pos.b = none := by
    unfold State.edgeDir
    simp only [bne_self_eq_false, Bool.false_and, Bool.or_self, Bool.false_eq_true, if_false]
    split <;> rfl
  unfold State.encLevels
  simp only [bne_self_eq_false, Bool.false_and, Bool.false_eq_true, if_false, hnone]
  split <;> rfl

/-- Both lands at once are a quadrature error. -/
theorem State.encLevels_both (hon : s.analog = true) (ha : a ≠ s.pos.a) (hb : b ≠ s.pos.b) :
    s.encLevels a b = (s.setPos { s.pos with a := a, b := b }).setFlag F.POS_STATUS_QERR true := by
  unfold State.encLevels
  simp [hon, ha, hb]

/-- The direction of an edge at X4, forward or not. -/
def State.forward (s : State) (a b : Bool) : Bool :=
  (if a != s.pos.a then a != b else b == a) != s.flag F.POS_CFG_DIR

/-- At X4 the change of one land is a decoded edge. -/
theorem State.encLevels_one (hon : s.analog = true) (hone : (a != s.pos.a) ≠ (b != s.pos.b)) (hwas : s.pos.was = none)
    (hdecode : s.fld F.POS_CFG_DECODE = 2) (hinj : s.injArg 0x08 = none)
    (hgate : ((s.setPos { s.pos with a := a, b := b }).edge (s.forward a b)).flag F.POS_CFG_ZG_EN = false) :
    s.encLevels a b = (s.setPos { s.pos with a := a, b := b }).edge (s.forward a b) := by
  have hany : ((a != s.pos.a) || (b != s.pos.b)) = true := by
    cases ha : a != s.pos.a <;> cases hb : b != s.pos.b <;> simp_all
  have hboth : ¬((a != s.pos.a) && (b != s.pos.b)) = true := by
    cases ha : a != s.pos.a <;> cases hb : b != s.pos.b <;> simp_all
  have hedge : s.edgeDir a b = some (s.forward a b) := by
    have hcfg : F.POS_CFG_DECODE.of (s.reg R.POS_CFG) = 2 := hdecode
    unfold State.edgeDir
    rw [hwas]
    dsimp only [Option.getD_none]
    rw [hcfg, hany]
    rfl
  unfold State.encLevels
  rw [hon, if_neg (by decide), if_neg hboth]
  dsimp only
  rw [hedge]
  dsimp only
  rw [hinj, if_neg (by decide), hgate]
  simp

/-- What a decoded edge does to C and its anchor; `v` is the estimate after it and `run` the run of edges. -/
def Position.counted (x : Position) (now : Nat) (fwd : Bool) (run : List Nat) (v : Rat) : Position :=
  let c := x.c + if fwd then 1 else -1
  { x with
    c := c, back := !fwd, run := run, lastEdge := some now, anchor := c, anchorTick := now, frac := 0, p := wholeP c
    v := v, vEdge := v }

/-- The run of edges in one direction, newest first, after an edge. -/
def Position.runAfter (x : Position) (now : Nat) (fwd : Bool) : List Nat :=
  if (x.lastEdge.isSome && x.back == !fwd) && !x.run.isEmpty then now :: x.run.take 15 else [now]

/-- One count in a direction. -/
theorem ofInt_dirSign (fwd : Bool) : BitVec.ofInt 40 (dirSign fwd) = if fwd then 1 else -1 := by cases fwd <;> rfl

/-- An edge in TRACK in the direction of the estimate filters it (R416). -/
theorem State.edge_track {t0 : Nat} {fwd : Bool} (hst : s.pos.state = .track) (hlast : s.pos.lastEdge = some t0)
    (hfrozen : s.frozen = false) (hdir : 0 ≤ (dirSign fwd : Rat) * s.pos.v) :
    (s.setPos (s.pos.counted s.clk.now fwd (s.pos.runAfter s.clk.now fwd)
      (s.pos.v + ((dirSign fwd : Rat) / ((s.clk.now - t0 : Nat) : Rat) - s.pos.v) / 2 ^ s.fld F.POS_CFG_BW))).followsP
        (s.edge fwd) := by
  unfold State.edge Position.counted Position.runAfter
  dsimp only
  rw [hst, hlast]
  dsimp only [Option.map_some]
  simp only [if_pos hdir, State.anchorAtC, State.setPos_setPos, State.setPos_pos, State.setPos_clk, State.setPos_fld,
    State.setPos_frozen, hfrozen, Bool.false_eq_true, if_false, ofInt_dirSign]
  exact State.moveP_followsP ..

/-- The first edge with none known leaves the estimate at 0 (R417). -/
theorem State.edge_first {fwd : Bool} (hst : s.pos.state = .acquire) (hlast : s.pos.lastEdge = none) :
    (s.setPos (s.pos.counted s.clk.now fwd [s.clk.now] 0)).followsP (s.edge fwd) := by
  have hnone : runVelocity (s.fld F.POS_LOSS_RET_EDGES) fwd [s.clk.now] none = none := by
    unfold runVelocity
    split
    · rfl
    · rw [if_neg (by simp; omega)]
  unfold State.edge Position.counted
  dsimp only
  rw [hst, hlast]
  simp only [State.anchorAtC, State.setPos_setPos, State.setPos_pos, State.setPos_clk, ofInt_dirSign,
    Option.isSome_none, Bool.false_and, Bool.false_eq_true, if_false, hnone, Option.getD_none]
  exact State.moveP_followsP ..

/-! ### Index pulses (R421, R422) -/

/-- The distance from the previous index pulse, as reported. -/
def Position.indexDistance (x : Position) : Int :=
  match x.zPrev with
  | some c0 => clampInt (-32767) 32767 (x.c - c0).toInt
  | none => 0

/-- An index pulse sets C to `c`, and P and the anchor with it. -/
def Position.indexedAt (x : Position) (now : Nat) (c : BitVec 40) : Position :=
  { x with
    zOpen := false, c := c, p := wholeP c, anchor := c, anchorTick := now, frac := 0, zPrev := some c
    zDelta := x.indexDistance, ref := true, dupPend := 0, holdFrom := x.holdFrom + (wholeP c - x.p) }

/-- The state in which an index pulse has set C to `c`. -/
def State.indexed (s : State) (c : BitVec 40) : State :=
  { s with lines := s.lines ||| (1#64 <<< 35), pos := s.pos.indexedAt s.clk.now c }

/-- The counters have followed P to an index pulse at `c`. -/
def State.indexMoved (s : State) (c : BitVec 40) : State :=
  let t := ((s.setPos { s.pos with
    c := c, zPrev := some c, zDelta := s.pos.indexDistance, ref := true, dupPend := 0, zOpen := false
    anchor := c, anchorTick := s.clk.now, frac := 0 }).moveP .origin (wholeP c)).2
  (t.setPos { t.pos with holdFrom := t.pos.holdFrom + (wholeP c - s.pos.p), state := s.pos.state }).raiseLine 35

/-- The counters follow the P that an index pulse gives. -/
theorem State.indexMoved_followsP (c : BitVec 40) : (s.indexed c).followsP (s.indexMoved c) := by
  unfold State.indexMoved
  have h := State.moveP_followsP (s := s) { s.pos with
    c := c, zPrev := some c, zDelta := s.pos.indexDistance, ref := true, dupPend := 0, zOpen := false
    anchor := c, anchorTick := s.clk.now, frac := 0 } .origin (wholeP c)
  dsimp only
  generalize ((State.setPos _ _).moveP .origin (wholeP c)).2 = t at h ⊢
  have halike := h.alike (u := s.indexed c) rfl rfl fun _ _ _ _ => rfl
  have hframe := h.frame
  generalize t.spn = x at halike hframe
  rw [hframe]
  exact halike

/-- An index pulse whose distance is not the expected one. -/
def State.indexMissed (s : State) : Prop :=
  s.pos.zPrev.isSome = true ∧ s.fld F.POS_Z_SPAN_SPAN ≠ 0 ∧ s.pos.indexDistance.natAbs ≠ s.fld F.POS_Z_SPAN_SPAN

/-- An index pulse outside a re-lock, not injected. -/
theorem State.index_eq (hinj : s.injArg 0x09 = none) (hst : s.pos.state ≠ .relock) (back : Bool) :
    (s.indexMissed → s.index (!back) =
      ((s.indexMoved (intP s.pos.zValue + if back then -1 else 0)).setFlag F.POS_STATUS_ZMISS true).raise 0x2B noUnit
        (unsigned 16 s.pos.indexDistance)) ∧
      (¬s.indexMissed → s.index (!back) = s.indexMoved (intP s.pos.zValue + if back then -1 else 0)) := by
  have hc : BitVec.ofInt 40 (if (!back) = true then 0 else -1) = if back then -1 else 0 := by cases back <;> rfl
  have hindex : s.index (!back) =
      if s.pos.zPrev.isSome && s.fld F.POS_Z_SPAN_SPAN != 0 && s.pos.indexDistance.natAbs != s.fld F.POS_Z_SPAN_SPAN then
        ((s.indexMoved (intP s.pos.zValue + if back then -1 else 0)).setFlag F.POS_STATUS_ZMISS true).raise 0x2B noUnit
          (unsigned 16 s.pos.indexDistance)
      else s.indexMoved (intP s.pos.zValue + if back then -1 else 0) := by
    unfold State.index
    dsimp only
    rw [hinj, if_neg hst, if_neg hst, hc]
    rfl
  have hiff : (s.pos.zPrev.isSome && s.fld F.POS_Z_SPAN_SPAN != 0 &&
      s.pos.indexDistance.natAbs != s.fld F.POS_Z_SPAN_SPAN) = true ↔ s.indexMissed := by
    simp [State.indexMissed, and_assoc]
  exact ⟨fun h => hindex.trans (if_pos (hiff.2 h)), fun h => hindex.trans (if_neg (mt hiff.1 h))⟩

/-- The state in which ENC_Z has risen. -/
def State.risen (s : State) : State := s.setPos { s.pos with z := true, zOpen := true }

/-- A rise that ZMODE accepts takes effect at once. -/
theorem State.encZ_rise (hon : s.analog = true) (hz : s.pos.z = false) (hgate : s.flag F.POS_CFG_ZG_EN = false)
    (hacc : s.indexAccepted = true) :
    s.encZ true = s.risen.index (!s.pos.back) := by
  have hacc' : (s.setPos { s.pos with z := true, zOpen := true }).indexAccepted = true := hacc
  unfold State.encZ State.risen
  simp [hon, hz, hgate, hacc']

/-- A fall ends the pulse. -/
theorem State.encZ_fall (hon : s.analog = true) : s.encZ false = s.setPos { s.pos with z := false, zOpen := false } := by
  unfold State.encZ
  simp [hon]

/-! ### Presets (R423) -/

/-- The position after a preset of P to `new`. -/
def Position.presetTo (x : Position) (new : BitVec 48) : Position :=
  let d := (new - x.p).toInt
  let up (c : BitVec 40) : BitVec 40 := c + BitVec.ofInt 40 (d / 256)
  { x with
    c := up x.c, anchor := up x.anchor, zPrev := x.zPrev.map up, frac := x.frac + ((d % 256 : Int) : Rat) / 256
    holdFrom := x.holdFrom + (new - x.p), ref := true, dupPend := 0, p := new }

/-- A preset shifts the unit, and the counters follow. -/
theorem State.preset_followsP (new : BitVec 48) : (s.setPos (s.pos.presetTo new)).followsP (s.preset new) :=
  State.moveP_followsP (s := s) { s.pos.presetTo new with p := s.pos.p } .origin new

/-! ### The statement -/

/-- Settles O48. Edges by `State.edge_track` and `State.edge_first`, index pulses by `State.index_eq`, presets by
`State.preset_followsP`; the counters by `State.followAll_followsP`. -/
theorem encoderCounts : Obligations.EncoderCounts := by
  unfold Obligations.EncoderCounts
  intro s la lb lz hidle a b
  have hstay : ∀ {t : State}, t.bnd = s.bnd → t.atPosition = t := fun ht =>
    State.atPosition_of_not_pending (by rw [ht]; exact hidle)
  have hlevels : ∀ {t : State}, s.encLevels a b = t → t.bnd = s.bnd → exec (.encEdge la lb) s = .next t := by
    rintro _ rfl ht
    exact congrArg Host.Outcome.next (hstay ht)
  have hindex : ∀ {t : State}, s.accepts lz.held = true → s.encZ lz.high = t → t.bnd = s.bnd →
      exec (.encZ lz) s = .next t := by
    rintro _ hacc rfl ht
    show Host.Outcome.next (if s.accepts lz.held then _ else s) = _
    rw [if_pos hacc, hstay ht]
  refine ⟨fun ha hb => ?none, fun hz => ?noIndex, fun hon => ⟨fun ha hb => ?both, fun ha hb => ?same,
    fun hone hwas hdecode hgate hinj => ?edge, fun hacc hhigh hz hgate hindexed hinj hst => ?index,
    fun hacc hlow => ?fall⟩, fun hlive v => ?preset⟩
  case none =>
    refine hlevels ?_ rfl
    have ha' : a = s.pos.a := if_neg (by simp [ha])
    have hb' : b = s.pos.b := if_neg (by simp [hb])
    rw [ha', hb']
    exact State.encLevels_same
  case noIndex =>
    show Host.Outcome.next (if s.accepts lz.held then _ else s) = _
    rw [if_neg (by simp [hz])]
  case both =>
    refine ⟨_, hlevels (State.encLevels_both hon ha hb) ?_, ?_, State.flag_setFlag _ rfl (by decide) true 0, ?_⟩
    · rw [State.setFlag_frame]
      rfl
    · exact State.setFlag_frame _ _ _
    · exact State.setFlag_kept (by decide) true
  case same =>
    refine hlevels ?_ rfl
    rw [ha, hb]
    exact State.encLevels_same
  case edge =>
    have hexec : ∀ {u t : State}, u.followsP t → (s.setPos { s.pos with a := a, b := b }).edge (s.forward a b) = t →
        u.bnd = s.bnd → u.regs = s.regs → exec (.encEdge la lb) s = .next t := by
      rintro u _ hfollows rfl hbnd hregs
      refine hlevels (State.encLevels_one hon hone hwas hdecode hinj ?_) ?_
      · rw [hfollows.frame, State.flag, State.fld, State.reg, hregs]
        exact hgate
      · rw [hfollows.frame, hbnd]
    intro fwd c x
    refine ⟨fun t0 hst hlast hfrozen hdir => ?_, fun hst hlast => ?_⟩
    · have hfollows := State.edge_track (s := s.setPos { s.pos with a := a, b := b }) hst hlast hfrozen hdir
      exact ⟨_, _, hexec hfollows rfl rfl rfl, hfollows, rfl⟩
    · have hfollows := State.edge_first (s := s.setPos { s.pos with a := a, b := b }) (fwd := fwd) hst hlast
      exact ⟨_, _, hexec hfollows rfl rfl rfl, hfollows, rfl⟩
  case index =>
    obtain ⟨hmissed, hmet⟩ := State.index_eq (s := s.risen) hinj hst s.pos.back
    have hfollows : (s.risen.indexed (intP s.pos.zValue + if s.pos.back then -1 else 0)).followsP
        (s.risen.indexMoved (intP s.pos.zValue + if s.pos.back then -1 else 0)) := State.indexMoved_followsP _
    have hrise : s.encZ lz.high = s.risen.index (!s.pos.back) := by
      rw [hhigh]
      exact State.encZ_rise hon hz hgate hindexed
    intro c d miss u
    have hmiss_iff : miss ↔ s.risen.indexMissed := Iff.rfl
    change u.followsP (s.risen.indexMoved c) at hfollows
    change _ → _ = (State.setFlag (s.risen.indexMoved c) _ _).raise _ _ _ at hmissed
    change _ → _ = s.risen.indexMoved c at hmet
    generalize s.risen.indexMoved c = w at hfollows hmissed hmet
    have hbnd : w.bnd = s.bnd := by rw [hfollows.frame]
    have hflt : w.flt = s.flt := by rw [hfollows.frame]
    refine ⟨fun hmiss => ⟨w, hindex hacc (hrise.trans (hmet (mt hmiss_iff.2 hmiss))) hbnd, hfollows⟩, fun hmiss hroom => ?_⟩
    obtain ⟨hframe, hset, hkept⟩ := State.setFlag_raise (s := w) (by rw [hflt]; exact hroom) (f := F.POS_STATUS_ZMISS) rfl
      (by decide) (i := 0) (by decide) 0x2B noUnit (unsigned 16 s.risen.pos.indexDistance)
    refine ⟨w, _, hindex hacc (hrise.trans (hmissed (hmiss_iff.1 hmiss))) ?_, hfollows, ?_, hset, hkept⟩
    · rw [hframe]
      exact hbnd
    · have hentry : w.entry 0x2B noUnit (unsigned 16 s.risen.pos.indexDistance) =
          ⟨0x2B, s.flt.mark, noUnit, unsigned 16 d, s.timeBits 32, false⟩ := by
        rw [hfollows.entry_eq, State.entry, Nat.mod_eq_of_lt (unsigned_lt 16 _)]
        rfl
      rw [hentry] at hframe
      exact hframe
  case fall => exact hindex hacc (by rw [hlow]; exact State.encZ_fall hon) rfl
  case preset =>
    obtain ⟨hup, hdue, -⟩ := State.live_iff.1 hlive
    intro p d up
    refine ⟨⟨_, s.preset p, ?_, State.preset_followsP p, rfl⟩, ?_⟩
    · show Host.Outcome.next (s.presetWrite v false) = _
      rw [State.presetWrite, if_pos (by simp [hup]), State.dueApply_of hdue, join48_eq_append,
        (State.preset_followsP p).atPosition_eq hidle]
    · show Host.Outcome.next (s.presetWrite v true) = _
      rw [State.presetWrite, if_neg (by simp)]

end Sys2Proof.Machine
end


section
/-! PROOF.
Loss of the encoder, holdover and re-lock.
-/
namespace Sys2Proof.Machine

variable {s t u w : State}

/-! ### Flags and events where the counters have followed -/

/-- A flag set and an event raised once the counters have followed P. -/
theorem State.followsP.flagged (h : u.followsP w) (hroom : u.flt.events.length < 64) {f : Field} (hf : f.hi = f.lo)
    (h16 : f.hi < 16) (code unit : Nat) :
    w.flagged ((w.setFlag f true).raise code unit 0) f 0 [u.entry code unit 0] := by
  have hflt : w.flt = u.flt := by rw [h.frame]
  rw [← h.entry_eq]
  exact State.setFlag_raise (by rw [hflt]; exact hroom) hf h16 (by decide) code unit 0

/-! ### Loss (R425) -/

/-- The position as a loss declared in the present tick starts holdover. -/
def State.heldOver (s : State) : State := s.setPos { s.pos with state := .holdover, run := [], injLoss := false }

/-- No channel moved counts no line. -/
theorem State.account_none : t.account (s.linesMoved []) = t := by
  unfold State.account State.linesMoved
  simp [State.countBy]

/-- The state in which P has stepped to its course, before the counters follow. -/
def State.heldAhead (s : State) : State :=
  s.setPos { s.heldOver.pos with p := s.heldOver.nextP, holdLines := 0, holdFrom := s.heldOver.nextP }

/-- The counters have followed the step of P to its course. -/
def State.heldMoved (s : State) : State :=
  let t := (s.heldOver.moveP .motion s.heldOver.nextP).2
  t.setPos { t.pos with holdLines := 0, holdFrom := t.pos.p }

/-- The counters follow the step of P to its course. -/
theorem State.heldMoved_followsP : s.heldAhead.followsP s.heldMoved := by
  have h : (s.heldOver.setPos { s.heldOver.pos with p := s.heldOver.nextP }).followsP
      (s.heldOver.moveP .motion s.heldOver.nextP).2 := State.followAll_followsP _ _
  unfold State.heldMoved
  generalize (s.heldOver.moveP .motion s.heldOver.nextP).2 = t at h ⊢
  have halike := h.alike (u := s.heldAhead) rfl rfl fun _ _ _ _ => rfl
  have hframe := h.frame
  generalize t.spn = x at halike hframe
  rw [hframe]
  exact halike

/-- A loss in TRACK, with no channel in a grid and lines to hold, starts holdover. -/
theorem State.encHold_track (hon : s.analog = true) (hst : s.pos.state = .track) (hstill : s.still = false)
    (hgrid : ∀ m < 16, s.inGrid m = false)
    (hlines : ((s.heldMoved.setFlag F.POS_STATUS_HOLD_LATCH true).raise 0x28 noUnit 0).fld F.POS_HOLD_LINES_LINES ≠ 0) :
    s.encHold false = (s.heldMoved.setFlag F.POS_STATUS_HOLD_LATCH true).raise 0x28 noUnit 0 := by
  have hmoved : (s.heldOver.moveP .motion s.heldOver.nextP).1 = [] := State.followAll_moved _ _ hgrid
  have hcond : (s.analog && s.pos.state == .track && !s.still) = true := by simp [hon, hst, hstill]
  unfold State.encHold
  rw [if_pos hcond]
  unfold State.heldMoved at hlines ⊢
  dsimp only at hlines ⊢
  generalize hm : State.moveP _ _ (State.nextP _) = m
  rw [show s.heldOver.moveP .motion s.heldOver.nextP = m from hm] at hmoved hlines ⊢
  rw [hmoved, State.account_none]
  exact if_neg hlines

/-! ### The end of holdover, and re-lock (R426, R430) -/

/-- The position as P freezes in LOST. -/
def State.lostPos (s : State) : Position :=
  { s.pos with
    state := .lost, frac := s.course, anchorTick := s.clk.now, ref := s.pos.ref && !s.flag F.POS_CFG_LOSS_UNREF }

/-- Holdover of a loss that was not injected ends in LOST. -/
theorem State.encLose_holdover (hst : s.pos.state = .holdover) (hinj : s.pos.injLoss = false) :
    s.encLose = ((s.setPos s.lostPos).setFlag F.POS_STATUS_LOST_LATCH true).raise 0x29 noUnit 0 := by
  unfold State.encLose
  rw [if_pos hst]
  exact if_neg (show ¬s.pos.injLoss = true by simp [hinj])

/-- The state in which a slew has ended with P = C. -/
def State.converged (s : State) : State :=
  s.setPos { s.pos with
    state := .track, anchor := s.pos.c, anchorTick := s.clk.now, frac := 0, p := wholeP s.pos.c }

/-- A slew after a loss that was not injected converges. -/
theorem State.converge_relock (hst : s.pos.state = .relock) (hinj : s.pos.injLoss = false) :
    s.converge = (s.converged.setFlag F.POS_STATUS_RELOCKED true).raise 0x2A noUnit 0 := by
  have hconverged : s.setPos { s.converged.pos with injLoss := false } = s.converged :=
    congrArg (fun b => s.setPos { s.converged.pos with injLoss := b }) hinj.symm
  unfold State.converge
  rw [if_pos hst, ← hconverged]
  exact if_neg (show ¬s.pos.injLoss = true by simp [hinj])

/-! ### The statement -/

/-- Settles O49. Losses by `State.encHold_track`, their end by `State.encLose_holdover`, slews by `State.converge_relock`;
the counters by `State.followAll_followsP`. -/
theorem encoderLosses : Obligations.EncoderLosses := by
  unfold Obligations.EncoderLosses
  intro s hidle hroom
  have hstay : ∀ {t : State}, t.bnd = s.bnd → t.atPosition = t := fun ht =>
    State.atPosition_of_not_pending (by rw [ht]; exact hidle)
  refine ⟨fun hdue => ?early, fun hdue hon hst hstill hlines hgrid => ?hold, fun hover => ?held,
    fun hover hst hinj => ?lost, fun hst herr => ?slewing, fun hst herr hinj => ?relocked⟩
  case early => exact congrArg Host.Outcome.next (if_neg (by simp [hdue]))
  case held => exact congrArg Host.Outcome.next (if_neg (by simp [hover]))
  case slewing =>
    show Host.Outcome.next (s.encRelocked.atPosition) = _
    rw [State.encRelocked, if_neg (by omega), hstay rfl]
  case hold =>
    intro u
    have hfollows := State.heldMoved_followsP (s := s)
    obtain ⟨hframe, hset, hkept⟩ := hfollows.flagged (f := F.POS_STATUS_HOLD_LATCH) hroom rfl (by decide) 0x28 noUnit
    have hregs : s.heldMoved.regs = s.regs := by
      rw [hfollows.frame]
      rfl
    have hhold := State.encHold_track hon hst hstill hgrid (by
      rw [hkept.fld_apart (by decide), State.fld, State.reg, hregs]
      exact hlines)
    have hflt : s.heldMoved.flt = s.flt := by
      rw [hfollows.frame]
      rfl
    have hfresh : s.heldMoved.fresh = s.fresh := by
      rw [hfollows.frame]
      rfl
    rw [hflt] at hframe
    refine ⟨s.heldMoved, _, ?_, hfollows, hframe, hset, State.regsKept_trans (State.regsKept_of_regs hregs hfresh) hkept⟩
    · show Host.Outcome.next (if s.lossDue then (s.encHold false).atPosition else s) = _
      rw [if_pos hdue, hhold]
      refine congrArg Host.Outcome.next (hstay ?_)
      rw [hframe, hfollows.frame]
      rfl
  case lost =>
    have hlose := State.encLose_holdover hst hinj
    obtain ⟨hframe, hset, hkept⟩ := State.setFlag_raise (s := s.setPos s.lostPos) hroom (f := F.POS_STATUS_LOST_LATCH) rfl
      (by decide) (i := 0) (by decide) 0x29 noUnit 0
    rw [← hlose] at hframe hset hkept
    refine ⟨_, ?_, hframe, hset, State.regsKept_trans (State.regsKept_of_regs rfl rfl) hkept⟩
    show Host.Outcome.next (if s.holdOver then s.encLose.atPosition else s) = _
    rw [if_pos hover, hstay (by rw [hframe]; rfl)]
  case relocked =>
    obtain ⟨hframe, hset, hkept⟩ := State.setFlag_raise (s := s.converged) hroom (f := F.POS_STATUS_RELOCKED) rfl
      (by decide) (i := 0) (by decide) 0x2A noUnit 0
    have hexec : exec .encRelocked s = .next (s.converge.followAll .motion s.pos.p).2.atPosition := by
      show Host.Outcome.next (s.encRelocked.atPosition) = _
      rw [State.encRelocked, if_pos ⟨hst, herr⟩]
    rw [State.converge_relock hst hinj] at hexec
    generalize (s.converged.setFlag F.POS_STATUS_RELOCKED true).raise 0x2A noUnit 0 = v at hframe hset hkept hexec
    have hfollows := State.followAll_followsP (s := v) .motion s.pos.p
    generalize (v.followAll .motion s.pos.p).2 = t at hfollows hexec
    have hapart : ∀ f : Field, f.addr = R.SPN_C_CFG ∨ f.addr = R.SPN_M_CFG → F.POS_STATUS_RELOCKED.addr ≠ f.addr := by
      rintro f (hf | hf) <;> rw [hf] <;> decide
    have halike := hfollows.alike (u := s.converged) (by rw [hframe]) (by rw [hframe]) fun f i hf hi =>
      (hkept.fld_apart ⟨hi, by simpa using fun h => absurd h (hapart f hf)⟩).symm
    have ht := hfollows.frame
    have hregs : t.regs = v.regs := by rw [ht]
    have hfresh : t.fresh = v.fresh := by rw [ht]
    refine ⟨_, t, ?_, halike, ?_, ?_, ?_⟩
    · rw [hexec, hstay]
      rw [ht, hframe]
      rfl
    · refine ht.trans ?_
      rw [hregs, hfresh]
      exact congrArg (fun x : State => { x with spn := t.spn }) hframe
    · rw [State.flag, State.fld, State.reg, hregs]
      exact hset
    · exact State.regsKept_trans (State.regsKept_trans (State.regsKept_of_regs rfl rfl) hkept)
        (State.regsKept_of_regs hregs hfresh)

end Sys2Proof.Machine
end


section
/-! PROOF.
Aux rounds: the descriptors read, the timer and ROUND_NOW, the slots in turn.
-/
namespace Sys2Proof.Machine

variable {s t u : State}

/-! ### Descriptors (R442 to R444) -/

/-- A descriptor whose words are clean is read as it stands. -/
theorem State.readSlot_clean {inj : Bool} {i : Nat}
    (h : ∀ j < 2, s.wordClean ⟨Store.adcseq, s.adcBank, slotOffset inj i / 4 + j⟩) :
    s.readSlot inj i = (some (s.peekSlot s.adcBank inj i), s) := by
  have hoff : slotOffset inj i % 8 = 0 := by
    unfold slotOffset
    split <;> omega
  have hread := State.readBytes_plain (s := s) .internal false Store.adcseq s.adcBank (off := slotOffset inj i) (len := 8)
    (n := 2) (by rw [show wordSize Store.adcseq = 4 from rfl, if_neg (by decide)]; omega) h
  have hlen : ∀ k, (s.mem.plainWord ⟨Store.adcseq, s.adcBank, k⟩).length = 4 := fun k => Memory.plainWord_length _ _
  have hplain : ((s.mem.plainWords Store.adcseq s.adcBank (slotOffset inj i / wordSize Store.adcseq) 2).drop
      (slotOffset inj i - slotOffset inj i / wordSize Store.adcseq * wordSize Store.adcseq)).take 8 =
      s.mem.plainWord ⟨Store.adcseq, s.adcBank, slotOffset inj i / 4⟩ ++
        s.mem.plainWord ⟨Store.adcseq, s.adcBank, slotOffset inj i / 4 + 1⟩ := by
    rw [show wordSize Store.adcseq = 4 from rfl, show slotOffset inj i - slotOffset inj i / 4 * 4 = 0 by omega]
    simp only [Memory.plainWords, List.drop_zero, List.append_nil]
    exact List.take_of_length_le (by simp [hlen])
  rw [hplain] at hread
  unfold State.readSlot
  rw [hread]
  rfl

/-- Descriptors whose words are clean are read as they stand. -/
theorem State.readRound_clean : ∀ (n i : Nat),
    (∀ k < 2 * (i + n), s.wordClean ⟨Store.adcseq, s.adcBank, k⟩) →
      s.readRound i n = (some ((List.range' i n).map (s.peekSlot s.adcBank false)), s)
  | 0, _, _ => rfl
  | n + 1, i, h => by
    have hslot : s.readSlot false i = _ := State.readSlot_clean fun j hj => h _ (by unfold slotOffset; simp; omega)
    have hrest := State.readRound_clean n (i + 1) fun k hk => h k (by omega)
    unfold State.readRound
    rw [hslot]
    dsimp only
    rw [hrest]
    rfl

/-! ### The request (R445) -/

/-- The registers are the same words, however they are kept. -/
def State.SameWords (s t : State) : Prop := t = { s with regs := t.regs } ∧ s.regsKept t []

/-- The same words make the same fields. -/
theorem State.SameWords.fld (h : s.SameWords t) {i : Nat} (hi : i < 256) (f : Field) : t.fld f i = s.fld f i :=
  h.2.fld_apart ⟨hi, by simp⟩

/-- The same words make the same flags. -/
theorem State.SameWords.flag (h : s.SameWords t) {i : Nat} (hi : i < 256) (f : Field) : t.flag f i = s.flag f i :=
  congrArg (· == 1) (h.fld hi f)

/-- The same words leave a memory word without an error. -/
theorem State.SameWords.wordClean (h : s.SameWords t) {w : WordAddr} (hw : s.wordClean w) : t.wordClean w := by
  unfold State.wordClean at hw ⊢
  rw [h.1]
  exact hw

/-- A write of ROUND_NOW stores nothing. -/
theorem State.storeReg_roundNow : s.SameWords (s.storeReg R.AUX_STATUS 0 0x8000 0x8000) := by
  have hrw : accessMask R.AUX_STATUS .rw = 0 := by decide
  have hw1c : accessMask R.AUX_STATUS .w1c = 0xF0 := by decide
  have hlimit : ∀ w, limitWord R.AUX_STATUS w = w := fun w => by
    rw [limitWord, (by decide : (Machine.limits.filter fun x => x.field.addr = R.AUX_STATUS) = [])]
    rfl
  have hword : storedAfter R.AUX_STATUS (s.reg R.AUX_STATUS) 0x8000 (s.reaches R.AUX_STATUS 0 0x8000) =
      s.reg R.AUX_STATUS := by
    unfold storedAfter merge State.reaches
    rw [hrw, hw1c]
    generalize (0x8000 &&& ~~~(s.freshBits R.AUX_STATUS 0 &&& 0xF0) : Word) = x
    have hclear : (0x8000 &&& x &&& 0xF0 : Word) = 0 := by
      rw [BitVec.and_assoc, BitVec.and_comm x, ← BitVec.and_assoc]
      simp
    have hall : ∀ w : Word, w &&& 65535#16 = w := fun w => BitVec.and_allOnes
    rw [hclear]
    simp [hall]
  refine ⟨rfl, fun a i b hi _ => ⟨?_, rfl⟩⟩
  unfold State.storeReg
  rw [hlimit, hword]
  unfold State.setReg State.reg
  rw [Cells.get_set]
  split
  next hk => rw [hk]
  next => rfl

/-- The timer, and a write of ROUND_NOW in a live state, ask for a round. -/
theorem exec_round {c : Instr} (h : c = .auxRoundTimer ∨ c = .roundNow ∧ s.live = true) :
    ∃ u, s.SameWords u ∧ exec c s = .next u.askRound := by
  rcases h with rfl | ⟨rfl, hlive⟩
  · exact ⟨s, ⟨rfl, State.regsKept_refl⟩, rfl⟩
  · refine ⟨_, State.storeReg_roundNow, ?_⟩
    show Host.Outcome.next (s.hostWrite .port R.AUX_STATUS 0x8000 0x8000 false) = _
    rw [State.hostWrite_of_live hlive]
    rfl

/-- During a round, a request is remembered and shown (R446). -/
theorem State.askRound_late (hon : s.analog = true) (hen : s.flag F.AUX_CTRL_REG_EN = true)
    (hround : s.aux.round.isSome = true) :
    s.askRound = (s.setAux { s.aux with late := true }).setFlag F.AUX_STATUS_ROUND_LATE true := by
  unfold State.askRound
  rw [if_pos (by simp [hon, hen]), if_pos hround]

/-- A round with a slot to run goes on (R445). -/
theorem State.roundStep_goesOn {r : Round} (hround : s.aux.round = some r) (hnext : (s.nextSlot r).isSome = true)
    (hen : s.flag F.AUX_CTRL_REG_EN = true) : s.roundStep = s := by
  have hend : s.endRound = s := by
    unfold State.endRound
    rw [hround]
    have hsome : (s.nextSlot r).isNone = false := by simpa [Option.isNone_iff_eq_none, Option.isSome_iff_ne_none] using hnext
    simp [hsome, hen]
  unfold State.roundStep
  rw [hend]
  exact if_neg (by simp [hround])

/-- A round with a slot to run starts with its descriptors (R444). -/
theorem State.askRound_starts (hon : s.analog = true) (hen : s.flag F.AUX_CTRL_REG_EN = true) (hround : s.aux.round = none)
    (hclean : ∀ k < 2 * (s.fld F.AUX_CTRL_REG_LEN_M1 + 1), s.wordClean ⟨Store.adcseq, s.adcBank, k⟩)
    (hany : ((List.range (s.fld F.AUX_CTRL_REG_LEN_M1 + 1)).map (s.peekSlot s.adcBank false)).any s.slotOn = true) :
    s.askRound = s.setAux { s.aux with round := some {
      slots := (List.range (s.fld F.AUX_CTRL_REG_LEN_M1 + 1)).map (s.peekSlot s.adcBank false), next := 0 } } := by
  have hread := State.readRound_clean (s := s) (s.fld F.AUX_CTRL_REG_LEN_M1 + 1) 0 (by simpa using hclean)
  rw [← List.range_eq_range'] at hread
  generalize (List.range (s.fld F.AUX_CTRL_REG_LEN_M1 + 1)).map (s.peekSlot s.adcBank false) = xs at hread hany ⊢
  have hbegin : s.beginRound = s.setAux { s.aux with round := some { slots := xs, next := 0 } } := by
    unfold State.beginRound
    rw [hread]
  have hnext : ((s.setAux { s.aux with round := some { slots := xs, next := 0 } }).nextSlot
      { slots := xs, next := 0 }).isSome = true := by
    obtain ⟨x, hx, hon⟩ := List.any_eq_true.1 hany
    obtain ⟨i, hi, rfl⟩ := List.getElem_of_mem hx
    refine List.find?_isSome.2 ⟨i, List.mem_range.2 hi, ?_⟩
    have hon' : (s.setAux { s.aux with round := some { slots := xs, next := 0 } }).slotOn xs[i] = true := hon
    simp [List.getElem?_eq_getElem hi, hon']
  unfold State.askRound
  rw [if_pos (by simp [hon, hen]), if_neg (by simp [hround]), hbegin]
  exact State.roundStep_goesOn rfl hnext hen

/-! ### The slots of a round (R445) -/

/-- The next slot of a round takes its converter where nothing injected needs it. -/
theorem State.startSlot_takes {r : Round} {i : Nat} {x : Slot} (hon : s.analog = true)
    (hen : s.flag F.AUX_CTRL_REG_EN = true) (hround : s.aux.round = some r) (hregular : s.aux.regular = none)
    (hnext : s.nextSlot r = some i) (hslot : r.slots[i]? = some x) (hbusy : s.injectedBusy x = false)
    (hidle : ∀ j < 4, (s.slotData (16 + j)).request = .idle) :
    s.startSlot = s.setAux { s.aux with
      round := some { r with next := i }, regular := some (s.newRun x false i none) } := by
  unfold State.startSlot
  rw [if_neg (by simp [hon, hen, hregular]), hround]
  dsimp only
  rw [hnext]
  dsimp only
  rw [hslot]
  dsimp only
  rw [hbusy, Bool.false_or]
  refine if_neg ?_
  rw [Bool.not_eq_true, List.any_eq_false]
  intro j hj
  rw [hidle j (List.mem_range.1 hj)]
  exact Bool.false_ne_true

end Sys2Proof.Machine
end


section
/-! PROOF.
Injected slots: their triggers, and what becomes of their requests.
-/
namespace Sys2Proof.Machine

variable {s t : State} {l i k : Nat}

/-- A slot's data replaced. -/
@[simp] theorem State.slotData_setSlotData (d : SlotData) (j : Nat) :
    (s.setSlotData k d).slotData j = if j = k then d else s.slotData j := Cells.get_set ..

/-! ### Triggers (R447) -/

/-- What an I-slot keeps once the event on line `l` has come. -/
def State.heard (s : State) (l i : Nat) : SlotData :=
  if (s.peekSlot s.adcBank true i).trig = l ∧ s.injOn i (s.peekSlot s.adcBank true i) = true then
    { s.slotData (16 + i) with
      triggers := ((s.slotData (16 + i)).triggers + 1) % 8
      request := .counting (s.peekSlot s.adcBank true i) s.exp.lastNumber }
  else s.slotData (16 + i)

/-- The first `k` I-slots have heard the event on line `l`. -/
structure State.HeardTo (s : State) (l k : Nat) (t : State) : Prop where
  frame : t = { s with aux := { s.aux with slots := t.aux.slots } }
  done : ∀ i < k, t.slotData (16 + i) = s.heard l i
  rest : ∀ j, j < 16 ∨ 16 + k ≤ j → t.slotData j = s.slotData j

/-- A trigger is accepted with its descriptor where the slot is idle. -/
theorem State.injAccept_idle (hon : s.analog = true) (hidle : (s.slotData (16 + i)).request = .idle)
    (hinj : s.aux.injected = []) (hclean : ∀ j < 2, s.wordClean ⟨Store.adcseq, s.adcBank, slotOffset true i / 4 + j⟩) :
    s.injAccept i = s.setSlotData (16 + i) { s.slotData (16 + i) with
      triggers := ((s.slotData (16 + i)).triggers + 1) % 8
      request := .counting (s.peekSlot s.adcBank true i) s.exp.lastNumber } := by
  have htest : (s.pwr.state == .testing) = false := by
    cases h : s.pwr.state <;> simp_all [State.analog]
  unfold State.injAccept
  dsimp only
  rw [htest, hidle, hinj, if_neg (by simp), State.readSlot_clean hclean]

/-- One I-slot more. -/
theorem State.HeardTo.succ (h : s.HeardTo l k t) (hk : k < 4) (hon : s.analog = true)
    (hidle : (s.slotData (16 + k)).request = .idle) (hinj : s.aux.injected = [])
    (hclean : ∀ j < 40, s.wordClean ⟨Store.adcseq, s.adcBank, j⟩) :
    s.HeardTo l (k + 1) (if t.triggers l k then t.injAccept k else t) := by
  have hframe := h.frame
  have htriggers : t.triggers l k = s.triggers l k := by
    rw [hframe]
    rfl
  have hdata : t.slotData (16 + k) = s.slotData (16 + k) := h.rest _ (.inr le_rfl)
  have hcond : s.triggers l k = true ↔
      (s.peekSlot s.adcBank true k).trig = l ∧ s.injOn k (s.peekSlot s.adcBank true k) = true := by
    simp [State.triggers]
  rw [htriggers]
  split
  next htrig =>
    have haccept := State.injAccept_idle (s := t) (i := k) (by rw [hframe]; exact hon) (by rw [hdata]; exact hidle)
      (by rw [hframe]; exact hinj) fun j hj => by
        rw [hframe]
        exact hclean _ (by unfold slotOffset; simp; omega)
    have hpeek : t.peekSlot t.adcBank true k = s.peekSlot s.adcBank true k := by
      rw [hframe]
      rfl
    have hnumber : t.exp = s.exp := by rw [hframe]
    rw [hpeek, hdata, hnumber] at haccept
    rw [haccept]
    refine ⟨?_, fun i hi => ?_, fun j hj => ?_⟩
    · generalize t.aux.slots = sl at hframe
      rw [hframe]
      rfl
    · rw [State.slotData_setSlotData]
      split
      next he =>
        obtain rfl : i = k := by omega
        exact (if_pos (hcond.1 htrig)).symm
      next he => exact h.done i (by omega)
    · rw [State.slotData_setSlotData, if_neg (by omega)]
      exact h.rest j (by omega)
  next htrig =>
    refine ⟨hframe, fun i hi => ?_, fun j hj => h.rest j (by omega)⟩
    by_cases he : i = k
    · rw [he, hdata]
      exact (if_neg (mt hcond.2 htrig)).symm
    · exact h.done i (by omega)

/-- The event of a tick on a line reaches each I-slot once. -/
theorem State.injLine_heard (hon : s.analog = true) (hline : s.lineExists l = true)
    (htaken : s.aux.taken.getLsbD l = false) (hgate : (s.gated && l == s.fld F.EXP_SCHED_EVENT) = false)
    (hidle : ∀ j < 4, (s.slotData (16 + j)).request = .idle) (hinj : s.aux.injected = [])
    (hclean : ∀ j < 40, s.wordClean ⟨Store.adcseq, s.adcBank, j⟩) :
    State.HeardTo (s.setAux { s.aux with taken := s.aux.taken ||| (1#64 <<< l) }) l 4 (s.injLine l) := by
  have hall : ∀ k ≤ 4, State.HeardTo (s.setAux { s.aux with taken := s.aux.taken ||| (1#64 <<< l) }) l k
      ((List.range k).foldl (fun t i => if t.triggers l i then t.injAccept i else t)
        (s.setAux { s.aux with taken := s.aux.taken ||| (1#64 <<< l) })) := fun k hk => by
    induction k with
    | zero => exact ⟨rfl, nofun, fun _ _ => rfl⟩
    | succ k ih =>
      rw [List.range_succ, List.foldl_append]
      exact (ih (by omega)).succ (by omega) hon (hidle k (by omega)) hinj hclean
  have hopen : ((s.setAux { s.aux with taken := s.aux.taken ||| (1#64 <<< l) }).gated &&
      l == (s.setAux { s.aux with taken := s.aux.taken ||| (1#64 <<< l) }).fld F.EXP_SCHED_EVENT) = false := hgate
  unfold State.injLine
  rw [if_neg (by simp [hon, htaken, hline])]
  dsimp only
  rw [hopen, if_neg Bool.false_ne_true]
  exact hall 4 le_rfl

/-! ### Requests (R448, R449) -/

/-- From `s` to `t` the request of I-slot `i` has become `r`. -/
def State.asks (s t : State) (i : Nat) (r : Request) : Prop :=
  ∀ k, t.slotData k = if k = 16 + i then { s.slotData (16 + i) with request := r } else s.slotData k

/-- A request replaced. -/
theorem State.setRequest_asks (r : Request) : s.asks (s.setRequest i r) i r := fun k => State.slotData_setSlotData _ k

/-- A request started on free converters. -/
theorem State.startInjected_eq (x : Slot) (f : Option Nat) :
    s.startInjected i x f = (s.setRequest i .idle).setAux { (s.setRequest i .idle).aux with
      injected := s.aux.injected ++ [s.newRun x true i f] } := by
  have hrange : (s.setRequest i .idle).startRange x (16 + i) = s.startRange x (16 + i) := by
    unfold State.startRange
    rw [State.setRequest_asks .idle (16 + i), if_pos rfl]
  have hrun : (s.setRequest i .idle).newRun x true i f = s.newRun x true i f := by
    unfold State.newRun slotKey
    dsimp only
    rw [if_pos rfl, hrange]
    rfl
  unfold State.startInjected
  dsimp only
  rw [hrun]
  rfl

/-- The regular run is aborted where no converter is in low power. -/
theorem State.abortRegular_eq (h0 : s.convLp 0 = false) (h1 : s.convLp 1 = false) :
    s.abortRegular = s.setAux { s.aux with regular := none } := by
  unfold State.abortRegular
  cases hr : s.aux.regular with
  | none =>
    dsimp only
    rw [← hr]
    rfl
  | some r =>
    have h0' : (s.setAux { s.aux with regular := none }).convLp 0 = false := h0
    have h1' : (s.setAux { s.aux with regular := none }).convLp 1 = false := h1
    unfold State.unsettle
    simp only [h0', h1', Bool.and_false, Bool.false_eq_true, if_false]
    rfl

/-- What an event of the delay's end does in a slot that counts, without an injection. -/
theorem State.injRequest_counting {x : Slot} {f : Option Nat} (hreq : (s.slotData (16 + i)).request = .counting x f)
    (hinj : s.injArg 0x10 = none) (hon : s.analog = true) :
    s.injRequest i =
      if !s.injOn i x then (s.setRequest i .idle).dropRequest i
      else if s.injectedBusy x then
        if x.collide then s.setRequest i (.waiting x f) else (s.setRequest i .idle).dropRequest i
      else if s.regularBusy x then
        if x.collide then s.abortRegular.startInjected i x f else (s.setRequest i .idle).dropRequest i
      else s.startInjected i x f := by
  unfold State.injRequest
  rw [hreq]
  dsimp only
  rw [hinj, if_neg (by simp), hon, Bool.not_true, Bool.or_false]

/-- A request dropped is counted, with its event. -/
theorem State.dropRequest_spec (hroom : s.flt.events.length < 64) :
    s.dropRequest i = { s with
      regs := (s.dropRequest i).regs, flt := { s.flt with events := s.flt.events ++ [s.entry 0x30 i 0] } } ∧
      s.counts (s.dropRequest i) F.AUX_INJ_DROPPED_COUNT ∧
      s.regsKept (s.dropRequest i) [(F.AUX_INJ_DROPPED_COUNT, 0)] := by
  have hcount : s.dropRequest i = (s.count F.AUX_INJ_DROPPED_COUNT).logged (s.entry 0x30 i 0) :=
    State.raise_room (s := s.count F.AUX_INJ_DROPPED_COUNT) hroom 0x30 i 0
  rw [hcount]
  exact ⟨rfl, State.count_counts (by decide), State.setFld_kept (by decide) _⟩

/-! ### The statement -/

/-- Settles O50. Rounds by `State.askRound_late`, `State.askRound_starts` and `State.startSlot_takes`, triggers by
`State.injLine_heard`, requests by `State.injRequest_counting`. -/
theorem auxRuns : Obligations.AuxRuns := by
  unfold Obligations.AuxRuns
  intro s hon
  refine ⟨fun hen => ?rounds, fun l hline => ⟨fun htaken => ?taken, fun htaken hgate hclean hidle hinj => ?heard⟩,
    fun i x f hreq hinj => ?requests⟩
  case rounds =>
    intro n slots
    refine ⟨fun hround c hc => ?late, fun hround hclean hany c hc => ?starts,
      fun r i x hround hregular hnext hslot hbusy hidle =>
        congrArg Host.Outcome.next (State.startSlot_takes hon hen hround hregular hnext hslot hbusy hidle)⟩
    case late =>
      obtain ⟨u, hsame, hexec⟩ := exec_round hc
      have hframe := hsame.1
      have hlate := State.askRound_late (s := u) (by rw [hframe]; exact hon) ((hsame.flag (by decide) _).trans hen)
        (by rw [hframe]; exact hround)
      have hasked : u.setAux { u.aux with late := true } =
          { s with regs := u.regs, aux := { s.aux with late := true } } :=
        congrArg (fun v : State => v.setAux { v.aux with late := true }) hframe
      rw [hlate, hasked] at hexec
      refine ⟨_, hexec, State.setFlag_frame _ _ _, State.flag_setFlag _ rfl (by decide) true 0, ?_⟩
      have hkept : s.regsKept { s with regs := u.regs, aux := { s.aux with late := true } } [(F.AUX_STATUS_ROUND_LATE, 0)] := by
        refine State.regsKept_trans (State.regsKept_mono hsame.2 (by simp)) (State.regsKept_of_regs rfl ?_)
        exact (congrArg State.fresh hframe).symm
      exact State.regsKept_trans hkept (State.setFlag_kept (by decide) true)
    case starts =>
      obtain ⟨u, hsame, hexec⟩ := exec_round hc
      have hframe := hsame.1
      have hbank : u.adcBank = s.adcBank := hsame.flag (by decide) _
      have hlen : u.fld F.AUX_CTRL_REG_LEN_M1 = s.fld F.AUX_CTRL_REG_LEN_M1 := hsame.fld (by decide) _
      have hpeek : u.peekSlot = s.peekSlot := by
        rw [hframe]
        rfl
      have hslotOn : u.slotOn = s.slotOn := funext fun x => by
        unfold State.slotOn State.convOn
        simp only [apply_ite (u.flag · 0), apply_ite (s.flag · 0), hsame.flag (by decide : 0 < 256)]
        rw [hframe]
      have hstart := State.askRound_starts (s := u) (by rw [hframe]; exact hon) ((hsame.flag (by decide) _).trans hen)
        (by rw [hframe]; exact hround) (by rw [hlen, hbank]; exact fun k hk => hsame.wordClean (hclean k hk))
        (by rw [hlen, hbank, hpeek, hslotOn]; exact hany)
      rw [hlen, hbank, hpeek] at hstart
      have hasked : u.setAux { u.aux with round := some { slots := slots, next := 0 } } =
          { s with regs := u.regs, aux := { s.aux with round := some { slots := slots, next := 0 } } } :=
        congrArg (fun v : State => v.setAux { v.aux with round := some { slots := slots, next := 0 } }) hframe
      rw [hstart] at hexec
      refine ⟨_, hexec, hasked, State.regsKept_trans hsame.2 (State.regsKept_of_regs rfl rfl)⟩
  case taken =>
    show Host.Outcome.next (s.injLine l.toNat) = _
    unfold State.injLine
    rw [if_pos (by simp [htaken])]
  case heard =>
    have h := State.injLine_heard hon hline htaken hgate hidle hinj hclean
    exact ⟨_, rfl, h.frame, fun k hk => h.rest k (.inl hk), fun i hi => h.done i hi⟩
  case requests =>
    intro asks
    have hdecide := State.injRequest_counting hreq hinj hon
    refine ⟨fun hen hfree hregular => ?runs, fun hen hbusy hcollide => ?waits, fun hdrop hroom => ?drops⟩
    case runs =>
      rw [hen, if_neg (by decide), hfree, if_neg (by decide)] at hdecide
      cases hbusy : s.regularBusy x with
      | true =>
        obtain ⟨hcollide, h0, h1⟩ := hregular hbusy
        rw [hbusy, if_pos rfl, hcollide, if_pos rfl, State.abortRegular_eq h0 h1, State.startInjected_eq] at hdecide
        exact ⟨_, congrArg Host.Outcome.next hdecide,
          State.setRequest_asks (s := s.setAux { s.aux with regular := none }) .idle, rfl⟩
      | false =>
        rw [hbusy, if_neg (by decide), State.startInjected_eq] at hdecide
        exact ⟨_, congrArg Host.Outcome.next hdecide, State.setRequest_asks .idle, rfl⟩
    case waits =>
      rw [hen, if_neg (by decide), hbusy, if_pos rfl, hcollide, if_pos rfl] at hdecide
      exact ⟨_, congrArg Host.Outcome.next hdecide, State.setRequest_asks _, rfl⟩
    case drops =>
      have hdropped : s.injRequest i.val = (s.setRequest i.val .idle).dropRequest i.val := by
        rw [hdecide]
        rcases hdrop with hoff | ⟨hbusy, hcollide⟩
        · rw [hoff, if_pos (by decide)]
        · rcases Bool.or_eq_true_iff.1 hbusy with hinjected | hregular
          · simp [hinjected, hcollide]
          · simp [hregular, hcollide]
      obtain ⟨hframe, hcount, hkept⟩ := State.dropRequest_spec (s := s.setRequest i.val .idle) (i := i.val) hroom
      refine ⟨_, congrArg Host.Outcome.next hdropped, ?_, ?_, hcount,
        State.regsKept_trans (State.regsKept_of_regs rfl rfl) hkept⟩
      · rw [hframe]
        exact State.setRequest_asks .idle
      · rw [hframe]
        rfl

end Sys2Proof.Machine
end


section
/-! PROOF.
Aux conversions: samples, the end of a run, references, the stop of a flash run and the result queue.
-/
namespace Sys2Proof.Machine

variable {s t : State} {r : Run} {k : Fin 2}

/-! ### A sample (R451) -/

/-- A plain block: no flash slot, no autorange, no pair of conversions. -/
structure Run.Plain (r : Run) : Prop where
  phase : r.phase = .block
  flash : r.slot.flash = false
  ar : r.slot.ar = false
  chan : r.slot.chan ≠ 8
  first : r.first = none
  stop : r.stop = none
  select : r.select = r.range

/-- A run after a sample of code `v` in its block; `dark` is the dark level of the flash terms. -/
def Run.sampled (r : Run) (v dark : Nat) : Run :=
  { r with
    count := r.count + 1, sum := r.sum + v, sat := r.sat || v == 0 || v == 16383
    terms := r.terms + ((v : Int) * 2 ^ (3 - r.range) - dark), lastRange := r.range }

/-- What a sample makes of a plain block. -/
theorem Run.Plain.addSample (h : r.Plain) (v dark : Nat) :
    ({ r with first := none }.addSample false dark r.range v).decide r.range v = r.sampled v dark := by
  have h0 : ((v : Int) == 0) = (v == 0) := by
    rw [Bool.eq_iff_iff]
    simp
  have hmax : ((v : Int) == 16383) = (v == 16383) := by
    rw [Bool.eq_iff_iff]
    simp only [beq_iff_eq]
    omega
  have hr : ({ r with first := none } : Run) = r := by rw [← h.first]
  rw [hr]
  unfold Run.addSample Run.decide Run.sampled
  simp only [beq_self_eq_true, Bool.or_true, if_true, h.ar, Bool.false_and, Bool.false_eq_true, if_false, h0, hmax]

/-- A plain block flushes nothing at its boundary. -/
theorem Run.boundary_same {q : Run} {j : Nat} (hconv : q.slot.conv ≠ 2) (hselect : q.select = q.range) (integ : Bool) :
    q.boundary j integ = (q, false) := by
  unfold Run.boundary
  rw [if_neg (by simp [hconv]), if_neg (by simp [hselect])]

/-- A conversion of the only run adds its sample. -/
theorem State.conversionEnd_plain (hregular : s.aux.regular = some r) (hinj : s.aux.injected = [])
    (hconv : r.slot.conv = k.val) (h : r.Plain) (nv : Int) :
    s.conversionEnd k.val nv =
      let q := r.sampled (s.convCode r.slot.chan r.range nv) (s.fld F.AUX_FLASH_DARK_DARK)
      if r.slot.len ≤ r.count + 1 then s.finishRun q false else s.putRun q := by
  have hk := k.isLt
  have hrun : s.runOn k.val = some r := by
    unfold State.runOn
    rw [hinj, hregular]
    simp [Slot.uses, hconv, h.phase]
  have hinteg : s.integrates r = false := by simp [State.integrates, h.flash]
  have hsample := h.addSample (s.convCode r.slot.chan r.range nv) (s.fld F.AUX_FLASH_DARK_DARK)
  have hstop : (r.sampled (s.convCode r.slot.chan r.range nv) (s.fld F.AUX_FLASH_DARK_DARK)).stop = none := h.stop
  have hsame := Run.boundary_same (j := k.val)
    (q := r.sampled (s.convCode r.slot.chan r.range nv) (s.fld F.AUX_FLASH_DARK_DARK)) (by show r.slot.conv ≠ 2; omega)
    h.select false
  unfold State.conversionEnd
  rw [hrun]
  dsimp only
  rw [h.phase] at hsample ⊢
  rw [if_neg (by omega : ¬(r.slot.conv = 2 ∧ k.val = 1))]
  dsimp only
  rw [if_neg (by simp [h.chan]), hinteg, if_neg Bool.false_ne_true, h.first]
  dsimp only
  rw [hsample]
  generalize hq : r.sampled _ _ = q at hstop hsame
  have hcount : q.count = r.count + 1 := by rw [← hq]; rfl
  have hlen : q.slot = r.slot := by rw [← hq]; rfl
  have hstays : (q.stop.map fun m => m &&& ~~~(1#2 <<< k.val)) = q.stop := by
    rw [hstop]
    rfl
  rw [hstays]
  change (if q.slot.len ≤ q.count then s.finishRun q false
    else if (q.boundary k.val false).2 = true then _ else s.putRun (q.boundary k.val false).1) = _
  rw [hsame, hcount, hlen]
  rfl

/-! ### References, the flash stop and the queue (R454, R462, R467) -/

/-- The settled reference lets the runs that waited for it go on. -/
theorem State.refSettled_eq (hon : s.analog = true) (hk : s.convOn k.val = true) (go : Run → Run)
    (hgo : ∀ r, go r = if r.phase = .settling ∧
      (s.setAux { s.aux with settled := s.aux.settled ||| (1#2 <<< k.val) }).settledFor r.slot then
        { r with phase := r.slot.firstPhase } else r) :
    s.refSettled k.val = s.setAux { s.aux with
      settled := s.aux.settled ||| (1#2 <<< k.val), regular := s.aux.regular.map go
      injected := s.aux.injected.map go } := by
  obtain rfl := funext hgo
  unfold State.refSettled
  rw [if_pos (by simp [hon, hk])]
  rfl

/-- The only injected run in its block ends with the conversions in progress. -/
theorem State.flashStop_going {going : BitVec 2} (hinj : s.aux.injected = [r]) (hr : r.inj = true)
    (hintegrates : s.integrates r = true) (hstop : r.stop = none) (hphase : r.phase = .block)
    (hm : going &&& ((if r.slot.uses 0 then 1#2 else 0#2) ||| (if r.slot.uses 1 then 2#2 else 0#2)) ≠ 0) :
    s.flashStop going = s.setAux { s.aux with injected := [{ r with
      stop := some (going &&& ((if r.slot.uses 0 then 1#2 else 0#2) ||| (if r.slot.uses 1 then 2#2 else 0#2))) }] } := by
  have hfilter : (s.aux.injected.filter fun r => s.integrates r && r.stop.isNone) = [r] := by
    simp [hinj, hintegrates, hstop]
  unfold State.flashStop
  rw [hfilter, List.foldl_cons, List.foldl_nil]
  dsimp only
  rw [if_neg (not_or.2 ⟨hm, by simp [hphase]⟩)]
  unfold State.putRun
  rw [if_pos hr, hinj]
  simp

/-- A pop through the port removes the oldest entry. -/
theorem State.portRead_queue (hopen : s.readOpen = true) (hdue : s.commitDue = false) (hv : s.pwr.rails.vcore = true)
    (hawake : s.pwr.state ≠ .dormant) : s.portRead R.AUX_Q_HI = s.popQueue.2 := by
  rw [State.portRead, if_pos hopen, State.dueApply_of hdue, State.hostRead, if_neg (by simp [hv, hawake])]
  rfl

/-! ### The end of a regular run (R451 to R456) -/

/-- The data of the slot of a run that has ended with the value `v`. -/
def SlotData.ended (d : SlotData) (v : Nat) : SlotData := { d with last := v, results := (d.results + 1) % 256 }

/-- VALUE and SAT of a run that is no flash run, with a sum from 0 on. -/
theorem State.runValue_plain (hflash : r.slot.flash = false) (hsum : 0 ≤ r.sum) (w : Word) :
    s.runValue r false w = (min (r.sum.toNat / 2 ^ r.slot.shift) 0xFFFF,
      r.sat || decide (0xFFFF < r.sum.toNat / 2 ^ r.slot.shift)) := by
  unfold State.runValue
  rw [hflash, if_neg Bool.false_ne_true, if_neg (by omega)]

/-- Waiting requests start nothing where every I-slot is idle. -/
theorem State.startWaiting_idle (h : ∀ j < 4, (s.slotData (16 + j)).request = .idle) : s.startWaiting = s := by
  unfold State.startWaiting
  refine List.foldlRecOn (List.range 4) _ (motive := fun t => t = s) rfl ?_
  rintro _ rfl j hj
  rw [h j (List.mem_range.1 hj)]

/-- An entry enters a queue with room. -/
theorem State.enqueue_room (hinj : s.injArg 0x0F = none) (hroom : s.aux.queue.length < 64) (e : BitVec 32) :
    s.enqueue e = s.setAux { s.aux with queue := s.aux.queue ++ [e] } := by
  unfold State.enqueue
  rw [hinj]
  dsimp only [Option.isSome_none]
  rw [if_neg Bool.false_ne_true, Bool.false_or, if_neg (by simpa using hroom)]

/-- A run on one converter outside low power leaves its reference settled. -/
theorem State.unsettle_high {x : Slot} (hconv : x.conv = k.val) (hlp : s.convLp k.val = false) : s.unsettle x = s := by
  have hoff : ∀ j, j < 2 → (x.uses j && s.convLp j) = false := fun j hj => by
    by_cases hjk : j = k.val
    · rw [hjk, hlp, Bool.and_false]
    · have huses : x.uses j = false := by
        have := k.isLt
        simp [Slot.uses, hconv]
        omega
      rw [huses, Bool.false_and]
  unfold State.unsettle
  dsimp only
  rw [hoff 0 (by decide), hoff 1 (by decide)]
  rfl

/-- The state in which the slot of a run has the value `v`. -/
def State.valued (s : State) (r : Run) (v : Nat) : State := s.setSlotData r.index ((s.slotData r.index).ended v)

/-- What the end of a regular run without flash brings once its entry is in the queue. -/
def State.handOn (s : State) (r : Run) (sat : Bool) : State :=
  let s := if r.slot.chan = 9 ∧ r.count ≠ 0 then s.setAux { s.aux with vdd := some (r.sum, r.count) } else s
  let s := if r.count == 0 then s else s.auxTemp r.slot.chan r.count r.sum r.lastRange sat
  let s := s.unsettle r.slot
  let s := s.setAux { s.aux with regular := none, round := s.aux.round.map fun q => { q with next := r.index + 1 } }
  s.startWaiting.roundStep

/-- A regular run without flash or autorange: its data, its entry, and what follows. -/
theorem State.finishRun_eq (hr : r.inj = false) (hflash : r.slot.flash = false) (har : r.slot.ar = false)
    (hsum : 0 ≤ r.sum) {v : Nat} {sat : Bool} (hv : v = min (r.sum.toNat / 2 ^ r.slot.shift) 0xFFFF)
    (hsat : sat = (r.sat || decide (0xFFFF < r.sum.toNat / 2 ^ r.slot.shift))) :
    s.finishRun r false =
      ((s.valued r v).enqueue (entryWord r s.aux.roundNo v sat)).handOn r sat := by
  have hkey : slotKey false r.index = r.index := rfl
  have hneg : ¬(r.sum < 0) := by omega
  have hvalue := State.runValue_plain (s := s) hflash hsum
  rw [← hv, ← hsat] at hvalue
  unfold State.finishRun
  simp only [hvalue, hr, hflash, har, hkey, hneg, false_and, Bool.false_and, Bool.false_or, Bool.false_eq_true, if_false]
  rfl

/-- The end of a regular run whose round has slots left hands the round on. -/
theorem State.handOn_next {rd : Round} {sat : Bool} (hconv : r.slot.conv = k.val) (hcount : r.count ≠ 0)
    (hlp : s.convLp k.val = false) (htemp : s.flag F.TMP_CFG_HOST = true ∨ r.slot.chan ≠ s.fld F.TMP_CFG_CHAN)
    (hen : s.flag F.AUX_CTRL_REG_EN = true) (hidle : ∀ j < 4, (s.slotData (16 + j)).request = .idle)
    (hround : s.aux.round = some rd) (hnext : (s.nextSlot { rd with next := r.index + 1 }).isSome = true) :
    s.handOn r sat = s.setAux { s.aux with
      vdd := if r.slot.chan = 9 then some (r.sum, r.count) else s.aux.vdd, regular := none
      round := some { rd with next := r.index + 1 } } := by
  have hvdd : (if r.slot.chan = 9 ∧ r.count ≠ 0 then s.setAux { s.aux with vdd := some (r.sum, r.count) } else s) =
      s.setAux { s.aux with vdd := if r.slot.chan = 9 then some (r.sum, r.count) else s.aux.vdd } := by
    by_cases h : r.slot.chan = 9
    · rw [if_pos ⟨h, hcount⟩, if_pos h]
    · rw [if_neg fun hh => h hh.1, if_neg h]
      rfl
  unfold State.handOn
  dsimp only
  rw [hvdd]
  generalize (if r.slot.chan = 9 then some (r.sum, r.count) else s.aux.vdd) = x
  have hauxTemp : (s.setAux { s.aux with vdd := x }).auxTemp r.slot.chan r.count r.sum r.lastRange sat =
      s.setAux { s.aux with vdd := x } := if_pos htemp
  have hunsettle : (s.setAux { s.aux with vdd := x }).unsettle r.slot = s.setAux { s.aux with vdd := x } :=
    State.unsettle_high hconv hlp
  rw [hauxTemp, ite_self, hunsettle]
  generalize hu : State.setAux _ _ = u
  have hround' : (s.setAux { s.aux with vdd := x }).aux.round = some rd := hround
  rw [hround'] at hu
  have hu' : u = s.setAux { s.aux with vdd := x, regular := none, round := some { rd with next := r.index + 1 } } :=
    hu.symm
  have hwaiting : u.startWaiting = u := State.startWaiting_idle (by rw [hu']; exact hidle)
  have hstep : u.roundStep = u := State.roundStep_goesOn (by rw [hu']; rfl) (by rw [hu']; exact hnext) (by rw [hu']; exact hen)
  rw [hwaiting, hstep, hu']

/-- A regular run without flash or autorange ends with its entry, and hands the round on. -/
theorem State.finishRun_next {rd : Round} (hr : r.inj = false) (hflash : r.slot.flash = false) (har : r.slot.ar = false)
    (hsum : 0 ≤ r.sum) {v : Nat} {sat : Bool} (hv : v = min (r.sum.toNat / 2 ^ r.slot.shift) 0xFFFF)
    (hsat : sat = (r.sat || decide (0xFFFF < r.sum.toNat / 2 ^ r.slot.shift)))
    (hroom : s.aux.queue.length < 64) (hinj : s.injArg 0x0F = none) (hindex : r.index < 16)
    (hconv : r.slot.conv = k.val) (hcount : r.count ≠ 0)
    (hlp : s.convLp k.val = false) (htemp : s.flag F.TMP_CFG_HOST = true ∨ r.slot.chan ≠ s.fld F.TMP_CFG_CHAN)
    (hen : s.flag F.AUX_CTRL_REG_EN = true) (hidle : ∀ j < 4, (s.slotData (16 + j)).request = .idle)
    (hround : s.aux.round = some rd) (hnext : (s.nextSlot { rd with next := r.index + 1 }).isSome = true) :
    s.finishRun r false = s.setAux { s.aux with
      slots := (s.valued r v).aux.slots, queue := s.aux.queue ++ [entryWord r s.aux.roundNo v sat], regular := none
      round := some { rd with next := r.index + 1 }
      vdd := if r.slot.chan = 9 then some (r.sum, r.count) else s.aux.vdd } := by
  have hidle' : ∀ j < 4, ((s.valued r v).slotData (16 + j)).request = .idle := fun j hj => by
    rw [State.valued, State.slotData_setSlotData, if_neg (by omega)]
    exact hidle j hj
  have hqueue := State.enqueue_room (s := s.valued r v) hinj hroom (entryWord r s.aux.roundNo v sat)
  rw [State.finishRun_eq hr hflash har hsum hv hsat, hqueue]
  exact State.handOn_next hconv hcount hlp htemp hen hidle' hround hnext

/-! ### The statement -/

/-- Settles O51. Samples by `State.conversionEnd_plain`, the last one by `State.finishRun_eq` and `State.handOn_next`. -/
theorem auxConverts : Obligations.AuxConverts := by
  unfold Obligations.AuxConverts
  intro s
  refine ⟨fun k nv r rd hregular hinj hround hr hconv hphase hflash har hchan hfirst hstop hselect => ?sample,
    fun k hon hk => ?settled, fun going r hinj hr hintegrates hstop hphase => ?stop,
    fun hopen hdue hv hawake => ⟨fun e q hq => ?pop, fun hq => ?empty⟩⟩
  case sample =>
    have hend := State.conversionEnd_plain hregular hinj hconv ⟨hphase, hflash, har, hchan, hfirst, hstop, hselect⟩ nv
    intro v r'
    refine ⟨fun hlen => ?_, fun hlen hsum hlp hroom hfull htemp hen hidle hnext hindex => ?_⟩
    · have hput : s.putRun r' = s.setAux { s.aux with regular := some r' } := if_neg (by show ¬r.inj = true; simp [hr])
      exact congrArg Host.Outcome.next ((hend.trans (if_neg (by omega))).trans hput)
    · intro sum e
      have hsum' : 0 ≤ r.sum + (v : Int) := by omega
      have hdone := State.finishRun_next (r := r') hr hflash har hsum' rfl rfl hroom hfull hindex hconv (Nat.succ_ne_zero _)
        hlp htemp hen hidle hround hnext
      exact ⟨_, congrArg Host.Outcome.next ((hend.trans (if_pos hlen)).trans hdone), rfl, State.slotData_setSlotData _⟩
  case settled =>
    intro settled go
    refine congrArg Host.Outcome.next (State.refSettled_eq hon hk go fun r => ?_)
    have hiff : ((r.slot.uses 0 = true → settled.getLsbD 0 = true) ∧ (r.slot.uses 1 = true → settled.getLsbD 1 = true)) ↔
        (s.setAux { s.aux with settled := settled }).settledFor r.slot = true := by
      simp [State.settledFor, State.setAux, Bool.or_eq_true, imp_iff_not_or]
    exact if_congr (and_congr_right fun _ => hiff) rfl rfl
  case stop =>
    intro m hm
    exact congrArg Host.Outcome.next (State.flashStop_going hinj hr hintegrates hstop hphase hm)
  case pop =>
    have hpop : s.popQueue.2 = s.setAux { s.aux with queue := q, hold := e.setWidth 16 } := by
      unfold State.popQueue
      rw [hq]
      rfl
    exact congrArg Host.Outcome.next ((State.portRead_queue hopen hdue hv hawake).trans hpop)
  case empty =>
    have hpop : s.popQueue.2 = s.setAux { s.aux with hold := 0xFFFF } := by
      unfold State.popQueue
      rw [hq]
    exact congrArg Host.Outcome.next ((State.portRead_queue hopen hdue hv hawake).trans hpop)

end Sys2Proof.Machine
end
